-- ==== Sys2Proof/Word.lean ====
section
/-! DEFINITION. The words of the machine: the bit patterns the spec counts in (bytes, beacon numbers,
serials, tag ids, ticks of the site clock) and the four-fold collections its cells and campaigns form. -/

namespace Sys2Proof

/-- One byte of the host line or of the air. -/
abbrev Byte := BitVec 8

/-- A beacon number, the 24-bit count of R4. -/
abbrev Beacon := BitVec 24

/-- A serial or content version (R64); 0 means none. -/
abbrev Serial := BitVec 16

/-- A tag id (Table 0-2). -/
abbrev TagId := BitVec 32

/-- An admission sequence (R65). -/
abbrev Sequence := BitVec 32

/-- The site clock of R7: 32 bits of site seconds over 10 bits of tick fraction. -/
abbrev Clock := BitVec 42

/-- A set of the twelve event flags, flag number n of Table 9-4 at bit n. -/
abbrev FlagSet := BitVec 12

/-- A cell port, 0..3. -/
abbrev Cell := Fin 4

/-- A campaign entry of the Campaign Table; index i stands for campaign id i + 1. -/
abbrev CampaignIndex := Fin 4

/-- A wake class, 0..7 (R18). -/
abbrev WakeClass := Fin 8

/-- One value for each of the four cells, or for each of the four campaigns. -/
structure Quad (α : Type) where
  c0 : α
  c1 : α
  c2 : α
  c3 : α
deriving DecidableEq, Repr

end Sys2Proof
end

