-- ==== Sys2Proof/Syntax.lean ====
section
/-! DEFINITION. The commands of the part: one constructor for each row of spec/opcode_table.json. A request row
carries the request number and the payload bytes of its frame (R160, Table 11-4); an event row carries what
comes from outside with the event (a byte, a frame heard on the air, the outcome of a settings write). -/

namespace Sys2Proof

/-- The order in which a cell whose offset is 0 takes its instant at a beacon start (R99). -/
inductive InstantOrder where
  /-- The instant of the current beacon, taken after its beacon start. -/
  | afterStart
  /-- The instant of the next beacon, taken just before that beacon's BEACON_START step (R99, instant first). -/
  | beforeStart
deriving DecidableEq, Repr

/-- What the cell engine heard in a join slot (R152). -/
inductive JoinHeard where
  /-- No frame. -/
  | nothing
  /-- Two or more overlapping joins. -/
  | collided
  /-- One frame received whole, its bytes. -/
  | heard (bytes : List Byte)
deriving DecidableEq, Repr

/-- The steps of the part. `num` is the request number of a request frame and `payload` its payload. -/
inductive Instr where
  /-- POWER_ON (R180). `heads` is what the four cell ports report at that moment (R11), cell c at bit c. -/
  | powerOn (heads : BitVec 4)
  /-- STATUS (R175). -/
  | status (num : Byte) (payload : List Byte)
  /-- SET_CLOCK (R8). -/
  | setClock (num : Byte) (payload : List Byte)
  /-- SET_BEACON (R5). -/
  | setBeacon (num : Byte) (payload : List Byte)
  /-- SET_MODE (R182). -/
  | setMode (num : Byte) (payload : List Byte)
  /-- CONFIG_SET (R177). -/
  | configSet (num : Byte) (payload : List Byte)
  /-- CONFIG_GET (R178). -/
  | configGet (num : Byte) (payload : List Byte)
  /-- SAVE_SETTINGS (R181). -/
  | saveSettings (num : Byte) (payload : List Byte)
  /-- SETTINGS_WRITE_END (R181): the storage reports the write completed, or failed. -/
  | settingsWriteEnd (completed : Bool)
  /-- RESET_COLD (R184): a RESET request that does not name WARM. -/
  | resetCold (num : Byte) (payload : List Byte)
  /-- RESET_WARM (R184): a RESET request that does not name COLD. -/
  | resetWarm (num : Byte) (payload : List Byte)
  /-- RESET_ACTS (R184). -/
  | resetActs
  /-- SET_LINE (R166). -/
  | setLine (num : Byte) (payload : List Byte)
  /-- LINE_RATE_CHANGE (R166). -/
  | lineRateChange
  /-- SET_NOTICES (R172). -/
  | setNotices (num : Byte) (payload : List Byte)
  /-- CLEAR_EVENTS (R171). -/
  | clearEvents (num : Byte) (payload : List Byte)
  /-- ENROL (R24, R25). -/
  | enrol (num : Byte) (payload : List Byte)
  /-- REMOVE (R26). -/
  | remove (num : Byte) (payload : List Byte)
  /-- SET_WAKE_TAG (R27): a SET-WAKE request that does not name the zone form. -/
  | setWakeTag (num : Byte) (payload : List Byte)
  /-- SET_WAKE_ZONE (R28): a SET-WAKE request that does not name the tag form. -/
  | setWakeZone (num : Byte) (payload : List Byte)
  /-- SET_ALLOWANCE (R30). -/
  | setAllowance (num : Byte) (payload : List Byte)
  /-- LOCATE (R29). -/
  | locate (num : Byte) (payload : List Byte)
  /-- QUERY_TAG (R31). -/
  | queryTag (num : Byte) (payload : List Byte)
  /-- LIST_STRANGERS (R41). -/
  | listStrangers (num : Byte) (payload : List Byte)
  /-- REFRESH_BUDGETS (R119). -/
  | refreshBudgets (num : Byte) (payload : List Byte)
  /-- OPEN_CAMPAIGN (R89). -/
  | openCampaign (num : Byte) (payload : List Byte)
  /-- QUERY_CAMPAIGN (R106). -/
  | queryCampaign (num : Byte) (payload : List Byte)
  /-- RELEASE_CAMPAIGN (R105). -/
  | releaseCampaign (num : Byte) (payload : List Byte)
  /-- POST_CHANGE (R66). -/
  | postChange (num : Byte) (payload : List Byte)
  /-- CANCEL_CHANGE (R80). -/
  | cancelChange (num : Byte) (payload : List Byte)
  /-- QUERY_CHANGE (R85). -/
  | queryChange (num : Byte) (payload : List Byte)
  /-- FETCH_OUTCOMES (R84). -/
  | fetchOutcomes (num : Byte) (payload : List Byte)
  /-- OUTCOMES_READY_TIMEOUT (R174). -/
  | outcomesReadyTimeout
  /-- HOST_BYTE_RECEIVED (R161). `faulty` says that its stop bit was at space (R163). -/
  | hostByteReceived (byte : Byte) (faulty : Bool)
  /-- IDLE_GAP (R163). -/
  | idleGap
  /-- LINE_BREAK (R165). -/
  | lineBreak
  /-- HOLD (R167). -/
  | hold
  /-- GO (R167). -/
  | go
  /-- OUTBOUND_FRAME_SENT (R168). -/
  | outboundFrameSent
  /-- NOTICE_MOVE (R173). -/
  | noticeMove
  /-- HEAD_LOST (R11, R12). -/
  | headLost (c : Cell)
  /-- HEAD_RETURNED (R11). -/
  | headReturned (c : Cell)
  /-- BEACON_START (R2). -/
  | beaconStart
  /-- REFRESH_CROSSING (R10). -/
  | refreshCrossing
  /-- CELL_BEACON_INSTANT (R126). -/
  | cellBeaconInstant (c : Cell) (order : InstantOrder)
  /-- SLOT_END (R153) of the next slot of cell c's window. `received` is the frame received whole within slot
  ticks 20..29 (R142), if any, and `level` the link level the engine measured on it. -/
  | slotEnd (c : Cell) (received : Option (List Byte)) (level : Byte)
  /-- JOIN_SLOT_END (R152). -/
  | joinSlotEnd (c : Cell) (heard : JoinHeard)
  /-- UNKNOWN_KIND (R169). -/
  | unknownKind (kind : Byte) (num : Byte) (payload : List Byte)
  /-- POWER_LOSS (R181). -/
  | powerLoss
deriving DecidableEq, Repr

end Sys2Proof
end

