-- ==== Sys2Proof/WellFormed.lean ====
section
/-! DEFINITION. Which commands are well formed: a request's payload fits a host frame, an unknown kind is no kind of
the catalogue, and the two rows of a request with two forms do not stand for each other's form. -/

namespace Sys2Proof

/-- The kinds of the request catalogue, 0x01..0x1A (Table 9-2). -/
def knownKind (kind : Byte) : Bool := decide (1 ≤ kind.toNat) && decide (kind.toNat ≤ 0x1A)

/-- A payload that fits a frame: the body header and the payload are at most 1,100 bytes (R160). -/
def payloadFits (payload : List Byte) : Bool := decide (payload.length ≤ 1097)

/-- Whether a RESET payload names the kind of code `k` (R186: one byte; Table 11-1). -/
def namesReset (k : Byte) (payload : List Byte) : Bool := decide (payload = [k])

/-- Whether a SET-WAKE payload has its length of 6 and names the form of code `k` (R186, Table 11-1). -/
def namesWakeForm (k : Byte) (payload : List Byte) : Bool :=
  decide (payload.length = 6) && decide (payload.head? = some k)

/-- The well-formed commands. -/
def Instr.wellFormed : Instr → Bool
  | .status _ p | .setClock _ p | .setBeacon _ p | .setMode _ p | .configSet _ p | .configGet _ p
  | .saveSettings _ p | .setLine _ p | .setNotices _ p | .clearEvents _ p | .enrol _ p | .remove _ p
  | .setAllowance _ p | .locate _ p | .queryTag _ p | .listStrangers _ p | .refreshBudgets _ p
  | .openCampaign _ p | .queryCampaign _ p | .releaseCampaign _ p | .postChange _ p | .cancelChange _ p
  | .queryChange _ p | .fetchOutcomes _ p => payloadFits p
  | .resetCold _ p => payloadFits p && !namesReset 2 p
  | .resetWarm _ p => payloadFits p && !namesReset 1 p
  | .setWakeTag _ p => payloadFits p && !namesWakeForm 1 p
  | .setWakeZone _ p => payloadFits p && !namesWakeForm 0 p
  | .unknownKind kind _ p => payloadFits p && !knownKind kind
  | .powerOn _ | .settingsWriteEnd _ | .resetActs | .lineRateChange | .outcomesReadyTimeout
  | .hostByteReceived _ _ | .idleGap | .lineBreak | .hold | .go | .outboundFrameSent | .noticeMove
  | .headLost _ | .headReturned _ | .beaconStart | .refreshCrossing | .cellBeaconInstant _ _
  | .slotEnd _ _ _ | .joinSlotEnd _ _ | .powerLoss => true

end Sys2Proof
end

