-- ==== Sys2Proof/Decode.lean ====
section
/-! DEFINITION. What spells a command: the table gives no row any bits, so no word does; a request frame does, by its
kind byte (Table 9-2). -/

namespace Sys2Proof

/-- No row of spec/opcode_table.json gives bits, so no word spells a command. -/
def decodeTableWord (_nbits _w : Nat) : Option Instr := none

/-- The command a request frame of this kind, number and payload stands for (R169, Table 9-2). A RESET that names no kind
and a SET-WAKE that names no form are read as the first row of their two (log entry 21). -/
def commandOf (kind num : Byte) (payload : List Byte) : Instr :=
  if kind = 0x01 then .status num payload
  else if kind = 0x02 then .setClock num payload
  else if kind = 0x03 then .setBeacon num payload
  else if kind = 0x04 then .setMode num payload
  else if kind = 0x05 then .configSet num payload
  else if kind = 0x06 then .configGet num payload
  else if kind = 0x07 then .saveSettings num payload
  else if kind = 0x08 then if namesReset 2 payload then .resetWarm num payload else .resetCold num payload
  else if kind = 0x09 then .setLine num payload
  else if kind = 0x0A then .setNotices num payload
  else if kind = 0x0B then .clearEvents num payload
  else if kind = 0x0C then .enrol num payload
  else if kind = 0x0D then .remove num payload
  else if kind = 0x0E then if namesWakeForm 1 payload then .setWakeZone num payload else .setWakeTag num payload
  else if kind = 0x0F then .setAllowance num payload
  else if kind = 0x10 then .locate num payload
  else if kind = 0x11 then .queryTag num payload
  else if kind = 0x12 then .listStrangers num payload
  else if kind = 0x13 then .refreshBudgets num payload
  else if kind = 0x14 then .openCampaign num payload
  else if kind = 0x15 then .queryCampaign num payload
  else if kind = 0x16 then .releaseCampaign num payload
  else if kind = 0x17 then .postChange num payload
  else if kind = 0x18 then .cancelChange num payload
  else if kind = 0x19 then .queryChange num payload
  else if kind = 0x1A then .fetchOutcomes num payload
  else .unknownKind kind num payload

end Sys2Proof
end

