-- ==== Sys2Proof/Config.lean ====
section
/-! DEFINITION. What the spec leaves free: the one uninterpreted constant of the model. -/

namespace Sys2Proof

/-- A free value: the choices the spec allows in either order (two events due at one moment; two campaigns
cut at one beacon, R97) are read from it, one number after another. Nothing in Lean knows a value of it
(log entries 5 and 6). -/
opaque Config.freeChoice : Nat → Nat

end Sys2Proof
end

