-- ==== Sys2Proof/Machine/State.lean ====
section
/-! DEFINITION. The state of the part as plain data, one structure for each block of Table 0-1, the closed types of its
faults and refusals, and the state right after reset. -/

namespace Sys2Proof.Machine

/-! ### Names the spec enumerates (Table 11-1) -/

/-- The operating mode (R182). -/
inductive Mode where
  | quiet | night | day
deriving DecidableEq, Repr

/-- A campaign's late policy (R89). -/
inductive LatePolicy where
  | apply | drop
deriving DecidableEq, Repr

/-- A campaign entry's state (R88); `opened` is OPEN. -/
inductive CampaignState where
  | free | opened | cut | done
deriving DecidableEq, Repr

/-- A staged condition: `nil` is NONE, `partly` is PARTIAL. -/
inductive Condition where
  | nil | partly | complete | bad
deriving DecidableEq, Repr

/-- A directory entry's state (R23). -/
inductive EntryState where
  | unseen | present | lost
deriving DecidableEq, Repr

/-- A change record's state (R62). -/
inductive ChangeState where
  | queued | sending | staged | withdrawing | verifying | finished
deriving DecidableEq, Repr

/-- The outcome codes (Table 4-5). -/
inductive OutcomeCode where
  | applied | appliedLate | appliedUnverified | superseded | cancelled | withdrawn | withdrawUnconfirmed
  | cancelTooLate | failedUnreachable | failedBudget | failedCorrupt | droppedLate
deriving DecidableEq, Repr

/-- The OUTCOMES_READY latch (R174). -/
inductive Latch where
  | armed | spent
deriving DecidableEq, Repr

/-- The kind of an accepted RESET (R184). -/
inductive ResetKind where
  | cold | warm
deriving DecidableEq, Repr

/-- The five line rates (R166). -/
inductive LineRate where
  | r57600 | r115200 | r230400 | r460800 | r921600
deriving DecidableEq, Repr

/-- The receiver's states (R161). -/
inductive RxState where
  | hunt | length | body | check
deriving DecidableEq, Repr

/-- The flow-control states (Table 9-1). -/
inductive Flow where
  | flowOpen | holdDue | held | goDue
deriving DecidableEq, Repr

/-! ### Settings Store -/

/-- One cell's items 3..6 of Table 10-1. -/
structure CellSetting where
  enabled : Bool
  group   : Nat
  offset  : Nat
deriving DecidableEq, Repr

/-- The twenty settings items of Table 10-1. -/
structure Settings where
  siteCode         : BitVec 16
  period           : Nat
  cells            : Quad CellSetting
  capacityNight    : Nat
  capacityDay      : Nat
  callCost         : Nat
  blockCost        : Nat
  reportCost       : Nat
  boostWakeCost    : Nat
  defaultAllowance : Nat
  missLimit        : Nat
  guardBeacons     : Nat
  span             : Nat
  refreshTime      : Nat
  outcomeTrigger   : Nat
  enableMask       : FlagSet
  lineRate         : LineRate
deriving DecidableEq, Repr

/-- The defaults of Table 10-1. -/
def Settings.defaults : Settings where
  siteCode := 0
  period := 2048
  cells := ⟨⟨true, 0, 0⟩, ⟨false, 0, 0⟩, ⟨false, 0, 0⟩, ⟨false, 0, 0⟩⟩
  capacityNight := 10
  capacityDay := 2
  callCost := 6
  blockCost := 3
  reportCost := 10
  boostWakeCost := 2
  defaultAllowance := 1200
  missLimit := 6
  guardBeacons := 4
  span := 64
  refreshTime := 72000
  outcomeTrigger := 16
  enableMask := 0
  lineRate := .r115200

/-- The stored settings block (R179). A block never written and a block that a failed write or a power loss left behind
both fail the check value whatever bytes they hold (R180), so no bytes are kept for them (log entry 8). -/
inductive StoredBlock where
  | unwritten
  | damaged
  | written (bytes : List Byte)
deriving DecidableEq, Repr

/-- The Settings Store (R176, R179, R182). -/
structure SettingsStore where
  working      : Settings
  unsaved      : Bool
  defaultsUsed : Bool
  mode         : Mode
  stored       : StoredBlock
deriving DecidableEq, Repr

/-! ### Air Timer -/

/-- The geometry in force (R3). -/
structure Geometry where
  period        : Nat
  cells         : Quad CellSetting
  capacityNight : Nat
  capacityDay   : Nat
deriving DecidableEq, Repr

/-- The Air Timer (R1 to R7). The start tick t_B of R9 is computed from these. -/
structure AirTimer where
  counter  : Nat
  geometry : Geometry
  beacon   : Beacon
  preset   : Option Beacon
  clock    : Clock
  clockSet : Bool
deriving DecidableEq, Repr

/-! ### Tag Directory -/

/-- A staged version with its condition (R22); serial 0 with condition NONE is staged none. -/
structure StagedPage where
  serial    : Serial
  condition : Condition
deriving DecidableEq, Repr

/-- A directory entry (Table 2-1). -/
structure Entry where
  addr        : Nat
  tagId       : TagId
  zone        : Byte
  pageClass   : Fin 4
  state       : EntryState
  home        : Option Cell
  believed    : WakeClass
  commanded   : Option WakeClass
  boostEnd    : Option Beacon
  flash       : Bool
  shown       : Option Serial
  staged      : Option StagedPage
  link        : Option Byte
  battery     : Option (Fin 16)
  allowance   : Nat
  effective   : Nat
  remaining   : Nat
  misses      : Nat
  live        : Option Serial
deriving DecidableEq, Repr

/-- A grant (R38). -/
structure Grant where
  tagId : TagId
  addr  : Nat
deriving DecidableEq, Repr

/-- A stranger record (R40). -/
structure Stranger where
  tagId  : TagId
  cell   : Cell
  beacon : Beacon
  joins  : Nat
deriving DecidableEq, Repr

/-- The Tag Directory: the entries held, in rising order of short address, the grant queue of each cell, head first,
and the stranger list, least recently heard first. -/
structure Directory where
  entries   : List Entry
  grants    : Quad (List Grant)
  strangers : List Stranger
deriving DecidableEq, Repr

/-! ### Content Pool and Change Table -/

/-- The blocks the pool holds for one change, in block order (R56). -/
structure PoolEntry where
  serial : Serial
  blocks : List (List Byte)
deriving DecidableEq, Repr

/-- The Content Pool (R56). -/
structure Pool where
  free : Nat
  held : List PoolEntry
deriving DecidableEq, Repr

/-- A change record (Table 4-1). Campaign 0 is `none`, campaign id i + 1 is `some i`. -/
structure Change where
  serial       : Serial
  sequence     : Sequence
  addr         : Nat
  tagId        : TagId
  campaign     : Option CampaignIndex
  blockCount   : Nat
  checksum     : BitVec 16
  acked        : Nat
  state        : ChangeState
  late         : Bool
  staleCut     : Bool
  displaced    : Option Serial
  failures     : Nat
  calls        : Nat
  spent        : Nat
  outcome      : Option OutcomeCode
  finalBeacon  : Option Beacon
deriving DecidableEq, Repr

/-- An outcome record (R83). -/
structure OutcomeRecord where
  serial      : Serial
  tagId       : TagId
  campaign    : Option CampaignIndex
  code        : OutcomeCode
  late        : Bool
  staleCut    : Bool
  finalBeacon : Beacon
  calls       : Nat
  spent       : Nat
deriving DecidableEq, Repr

/-- The Change Table: its records in admission order, the serials of the retire queue, head first, the outcome list,
oldest first, and the two counters. -/
structure ChangeTable where
  records      : List Change
  retire       : List Serial
  outcomes     : List OutcomeRecord
  nextSerial   : Serial
  nextSequence : Sequence
deriving DecidableEq, Repr

/-! ### Campaign Table -/

/-- One count for each outcome code (R94). -/
structure Tallies where
  applied             : BitVec 32
  appliedLate         : BitVec 32
  appliedUnverified   : BitVec 32
  superseded          : BitVec 32
  cancelled           : BitVec 32
  withdrawn           : BitVec 32
  withdrawUnconfirmed : BitVec 32
  cancelTooLate       : BitVec 32
  failedUnreachable   : BitVec 32
  failedBudget        : BitVec 32
  failedCorrupt       : BitVec 32
  droppedLate         : BitVec 32
deriving DecidableEq, Repr

/-- All tallies at 0. -/
def Tallies.zero : Tallies := ⟨0, 0, 0, 0, 0, 0, 0, 0, 0, 0, 0, 0⟩

/-- The activation time, activation beacon and late policy of a campaign, present together (Table 5-1). -/
structure Activation where
  time   : BitVec 32
  beacon : Beacon
  policy : LatePolicy
deriving DecidableEq, Repr

/-- A campaign entry (Table 5-1). -/
structure Campaign where
  state      : CampaignState
  activation : Option Activation
  admitted   : BitVec 32
  live       : Nat
  tallies    : Tallies
  lateCount  : Nat
  staleCount : Nat
  doneBeacon : Option Beacon
deriving DecidableEq, Repr

/-- The FREE values of Table 5-1. -/
def Campaign.freeEntry : Campaign := ⟨.free, none, 0, 0, Tallies.zero, 0, 0, none⟩

/-! ### Call Planner -/

/-- A wake calendar entry (R120); its bucket is the due beacon modulo 128. -/
structure CalendarEntry where
  addr : Nat
  due  : Beacon
deriving DecidableEq, Repr

/-- A boost list entry (R133). -/
structure BoostEntry where
  addr      : Nat
  boostEnd  : Beacon
  confirmed : Bool
deriving DecidableEq, Repr

/-- The Call Planner: each cell's calendar and boost list, kept in rising order of short address (neither has an order
of its own), and each cell's last instant λ_c. -/
structure Planner where
  calendar : Quad (List CalendarEntry)
  last     : Quad Beacon
  boosts   : Quad (List BoostEntry)
deriving DecidableEq, Repr

/-! ### Cell Engines -/

/-- What a snapshot holds of the change it names, whatever the call is for (R73, Table 7-6): n, the checksum, a as it stood at
the instant, and the effective beacon, `none` for "immediate". -/
structure NamedChange where
  blockCount : Nat
  checksum   : BitVec 16
  acked      : Nat
  effective  : Option Beacon
deriving DecidableEq, Repr

/-- A slot snapshot (Table 7-6). `first` is the first block of a delivery call, and 0 for a call without blocks (log
entry 30). -/
structure Snapshot where
  cell       : Cell
  beacon     : Beacon
  slot       : Nat
  addr       : Nat
  tagId      : TagId
  serial     : Serial
  change     : Option NamedChange
  first      : Nat
  carried    : Nat
  blocks     : List (List Byte)
  wakeOrder  : Option WakeClass
  boostOrder : Option Beacon
  withdraw   : Bool
  verify     : Bool
  flash      : Bool
  debit      : Nat
deriving DecidableEq, Repr

/-- A slot of a window record (R141): its snapshot, its downlink as the engine sends it, the slot header and the block frames
(R144, R187), and whether its slot end has been taken. -/
structure Slot where
  snapshot : Snapshot
  downlink : List (List Byte)
  ended    : Bool
deriving DecidableEq, Repr

/-- A window record (R141): its beacon, the mode the cell took at the instant (R183), the beacon frame as sent (R143), the
grant taken into it, and its slots in order. -/
structure Window where
  beacon : Beacon
  mode   : Mode
  frame  : List Byte
  grant  : Option Grant
  slots  : List Slot
deriving DecidableEq, Repr

/-- The four Cell Engines: head-present status (R11) and window record (R141). -/
structure CellEngines where
  heads   : Quad Bool
  windows : Quad (Option Window)
deriving DecidableEq, Repr

/-! ### Host Line Interface -/

/-- A frame by its body: the three bytes of the body header and the payload (R160). -/
structure Frame where
  kind    : Byte
  num     : Byte
  status  : Byte
  payload : List Byte
deriving DecidableEq, Repr

/-- The Host Line Interface (R161 to R168). `rateDue` holds the rates of SET-LINE replies whose last byte has not been
sent (R166); `flowFree` says, while a HOLD or a GO is due, that the byte position between outbound frames is free for it, so
that it goes ahead of the next frame (R167); `lineOut` is the model's own: the bytes the last sending step put on the line (log entry 20). -/
structure HostLine where
  rx       : RxState
  partials : List Byte
  inbound  : List Frame
  outbound : List Frame
  flow     : Flow
  flowFree : Bool
  rate     : LineRate
  rateDue  : List LineRate
  lineOut  : List Byte
deriving DecidableEq, Repr

/-! ### Record Handler -/

/-- The request in progress: none (IDLE), a SAVE-SETTINGS with its claimed place and the settings it copied (R181), or an
accepted RESET (R184). -/
inductive Task where
  | idle
  | saving (num : Byte) (copied : Settings)
  | resetting (kind : ResetKind)
deriving DecidableEq, Repr

/-- The notice set (R173): the newly set flags of a waiting EVENT notice, whether OUTCOMES_READY waits, the entry as it
stood at DONE for each waiting CAMPAIGN_DONE (R104), and whether STRANGERS waits. -/
structure NoticeSet where
  event         : Option FlagSet
  outcomesReady : Bool
  campaignDone  : Quad (Option Campaign)
  strangers     : Bool
deriving DecidableEq, Repr

/-- The empty notice set. -/
def NoticeSet.empty : NoticeSet := ⟨none, false, ⟨none, none, none, none⟩, false⟩

/-- The Record Handler (R169 to R174). -/
structure RecordHandler where
  task    : Task
  flags   : FlagSet
  notices : NoticeSet
  latch   : Latch
  timer   : Nat
deriving DecidableEq, Repr

/-! ### The whole part -/

/-- The state of the part. `powered` says whether the part has its supply (R181); `freeIndex` and `pending` are the model's
own: the number of free values already read, and the queue of commands that wait, first in, first out. -/
structure State where
  powered   : Bool
  store     : SettingsStore
  air       : AirTimer
  dir       : Directory
  pool      : Pool
  table     : ChangeTable
  campaigns : Quad Campaign
  planner   : Planner
  cells     : CellEngines
  line      : HostLine
  handler   : RecordHandler
  freeIndex : Nat
  pending   : List Instr
deriving DecidableEq, Repr

/-- The reasons a step could stop with a fault. The spec gives every step an effect, so there is none: no step of this
model raises a fault (safe: nothing is cut short). -/
inductive Fault where
deriving DecidableEq, Repr

/-- The reasons a step could be refused. -/
inductive Refusal where
  /-- An arm of `exec` whose command has no meaning yet would answer this, naming the row; every row of this model has its
  meaning, so no step answers it (safe). -/
  | notModelled (mnemonic : String)
deriving DecidableEq, Repr

/-- The part right after power-on with a stored block never written: the defaults, SETTINGS_DEFAULTED set, beacon 0, mode
QUIET, every block in its power-on state (R180). The heads are absent, the model's choice (log entry 7). -/
def State.reset : State where
  powered := true
  store := ⟨Settings.defaults, true, true, .quiet, .unwritten⟩
  air := ⟨2047, ⟨2048, ⟨⟨true, 0, 0⟩, ⟨false, 0, 0⟩, ⟨false, 0, 0⟩, ⟨false, 0, 0⟩⟩, 10, 2⟩, 0, none, 0, false⟩
  dir := ⟨[], ⟨[], [], [], []⟩, []⟩
  pool := ⟨32768, []⟩
  table := ⟨[], [], [], 1, 0⟩
  campaigns := ⟨Campaign.freeEntry, Campaign.freeEntry, Campaign.freeEntry, Campaign.freeEntry⟩
  planner := ⟨⟨[], [], [], []⟩, ⟨16777215, 16777215, 16777215, 16777215⟩, ⟨[], [], [], []⟩⟩
  cells := ⟨⟨false, false, false, false⟩, ⟨none, none, none, none⟩⟩
  line := ⟨.hunt, [], [], [], .flowOpen, false, .r115200, [], []⟩
  handler := ⟨.idle, 0x008, NoticeSet.empty, .armed, 0⟩
  freeIndex := 0
  pending := []

end Sys2Proof.Machine
end

