-- ==== Sys2Proof/Machine/Beacons.lean ====
section
/-! DEFINITION. Beacon numbers and wakes: the serial comparisons of R4, the next wake of R19, and the order of admission
sequences of R65. -/

namespace Sys2Proof.Machine

/-- The signed serial difference of `a` and `b`, −8,388,608..8,388,607 (R4). -/
def beaconDiff (a b : Beacon) : Int := (a - b).toInt

/-- `a` is at or after `b` (Conventions, R4). -/
def atOrAfter (a b : Beacon) : Bool := decide ((a - b).toNat < 8388608)

/-- `a` is after `b` (Conventions). -/
def isAfter (a b : Beacon) : Bool := atOrAfter a b && decide (a ≠ b)

/-- `a` is before `b` (Conventions). -/
def isBefore (a b : Beacon) : Bool := isAfter b a

/-- The earlier of two beacons, compared serially (R132); of two that lie 8,388,608 beacons apart, neither of which is before the
other (R4), it is `b` (DESIGN CHOICE, log entry 35). -/
def earlier (a b : Beacon) : Beacon := if atOrAfter b a then a else b

/-- A class's interval in beacons (R18). -/
def interval (w : WakeClass) : Nat := 2 ^ w.val

/-- A tag's phase for a class (R18). -/
def phase (w : WakeClass) (id : TagId) : Nat := id.toNat % interval w

/-- Whether a tag of class `w` wakes at beacon `b` by its class (R18). -/
def wakesAt (w : WakeClass) (id : TagId) (b : Beacon) : Bool := decide (b.toNat % interval w = phase w id)

/-- How many beacons after `b` the next wake lies, 1..W (R19). -/
def wakeDistance (w : WakeClass) (id : TagId) (b : Beacon) : Nat :=
  (BitVec.ofNat 24 (phase w id) - b - 1).toNat % interval w + 1

/-- The next wake after `b` (R19). -/
def nextWake (w : WakeClass) (id : TagId) (b : Beacon) : Beacon := b + BitVec.ofNat 24 (wakeDistance w id b)

/-- The number of class wakes among the `d` beacons after `b` (R114, step 2). -/
def wakesWithin (w : WakeClass) (id : TagId) (b : Beacon) (d : Nat) : Nat :=
  let first := wakeDistance w id b
  if first ≤ d then (d - first) / interval w + 1 else 0

/-- How far a sequence lies behind the admission counter (R65). -/
def sequenceAge (counter a : Sequence) : Nat := (counter - a).toNat

/-- Whether the first of two (sequence, short address) pairs is ordered before the second (R65). -/
def sequenceBefore (counter : Sequence) (a b : Sequence × Nat) : Bool :=
  decide (sequenceAge counter b.1 < sequenceAge counter a.1)
    || (decide (a.1 = b.1) && decide (a.2 < b.2))

/-- `x` put into a list before the first element it is before. -/
def insertBy {α : Type} (before : α → α → Bool) (x : α) : List α → List α
  | [] => [x]
  | y :: ys => if before y x then y :: insertBy before x ys else x :: y :: ys

/-- A list put in order. -/
def sortBy {α : Type} (before : α → α → Bool) : List α → List α
  | [] => []
  | x :: xs => insertBy before x (sortBy before xs)

end Sys2Proof.Machine
end

