-- ==== Sys2Proof/Machine/Flags.lean ====
section
/-! DEFINITION. The event flags: setting one with its EVENT notice (R170), and clearing them (R171). -/

namespace Sys2Proof.Machine

/-- The twelve event flags (Table 9-4). -/
inductive Flag where
  | inboundOverrun | frameDropped | lineCheck | settingsDefaulted | storeFailed | cellDown | poolLow
  | outcomeBacklog | budgetShort | tagLost | lowBattery | staleCut
deriving DecidableEq, Repr

/-- A flag's number (Table 9-4). -/
def Flag.number : Flag → Nat
  | .inboundOverrun => 0 | .frameDropped => 1 | .lineCheck => 2 | .settingsDefaulted => 3 | .storeFailed => 4
  | .cellDown => 5 | .poolLow => 6 | .outcomeBacklog => 7 | .budgetShort => 8 | .tagLost => 9
  | .lowBattery => 10 | .staleCut => 11

/-- The set holding one flag. -/
def Flag.bit (f : Flag) : FlagSet := 1#12 <<< f.number

/-- Whether a set holds a flag. -/
def Flag.isIn (f : Flag) (fs : FlagSet) : Bool := fs.getLsbD f.number

/-- A flag's cause at the Record Handler (R170): a flag already set stays as it is; a flag going from clear to set joins the
EVENT notice when the enable mask holds it. -/
def RecordHandler.raise (h : RecordHandler) (mask : FlagSet) (f : Flag) : RecordHandler :=
  if f.isIn h.flags then h
  else { h with
    flags := h.flags ||| f.bit
    notices.event := if f.isIn mask then some (h.notices.event.getD 0 ||| f.bit) else h.notices.event }

/-- A flag's cause (R170), under the enable mask of the working settings. -/
def raiseFlag (f : Flag) (s : State) : State :=
  { s with handler := s.handler.raise s.store.working.enableMask f }

/-- CLEAR-EVENTS at the Record Handler (R171): the named flags become clear and leave the newly set flags of a waiting
EVENT notice; a notice left with none is removed. -/
def RecordHandler.clear (h : RecordHandler) (named : FlagSet) : RecordHandler :=
  { h with
    flags := h.flags &&& ~~~named
    notices.event := match h.notices.event with
      | none => none
      | some e => if e &&& ~~~named = 0 then none else some (e &&& ~~~named) }

end Sys2Proof.Machine
end

