-- ==== Sys2Proof/Machine/Operands.lean ====
section
/-! DEFINITION. The operand forms: little-endian fields, the check value of R54, the value codes of Table 11-1, the host
frame (R160), the air frames (R187, R188), and the settings items as 4-byte values (R186). -/

namespace Sys2Proof.Machine

/-! ### Fields of bytes (R185) -/

/-- The `n` bytes of `v`, least significant first (R185). -/
def le : Nat → Nat → List Byte
  | 0, _ => []
  | n + 1, v => BitVec.ofNat 8 v :: le n (v / 256)

/-- The number that bytes spell, least significant first (R185). -/
def leNat : List Byte → Nat
  | [] => 0
  | b :: bs => b.toNat + 256 * leNat bs

/-- The number in the `len` bytes at offset `off`. -/
def field (off len : Nat) (bs : List Byte) : Nat := leNat ((bs.drop off).take len)

/-- A flag or indication byte: 0 or 1. -/
def boolByte (b : Bool) : Byte := if b then 1 else 0

/-- An optional field of `n` bytes after its presence byte, sent as 0 while absent (R185). -/
def optField (n : Nat) : Option Nat → List Byte
  | none => 0 :: le n 0
  | some v => 1 :: le n v

/-- A set of cells in one byte, cell c at bit c (R185). -/
def cellSet (q : Quad Bool) : Byte :=
  BitVec.ofNat 8 (q.c0.toNat + 2 * q.c1.toNat + 4 * q.c2.toNat + 8 * q.c3.toNat)

/-- `bs` with the bytes from offset `off` on replaced by `new`, as many as `new` has. -/
def overwrite (off : Nat) (new bs : List Byte) : List Byte :=
  bs.take off ++ new ++ bs.drop (off + new.length)

/-! ### The check value (R54) -/

/-- One shift of the check register toward its most significant end (R54). -/
def crcShift (r : BitVec 16) : BitVec 16 :=
  if r.msb then (r <<< 1) ^^^ 0x1021#16 else r <<< 1

/-- One byte taken into the check register (R54). -/
def crcByte (r : BitVec 16) (b : Byte) : BitVec 16 :=
  Nat.repeat crcShift 8 (r ^^^ (b.setWidth 16 <<< 8))

/-- The check value of a run of bytes (R54). -/
def crc16 (bs : List Byte) : BitVec 16 := bs.foldl crcByte 0xFFFF#16

/-- The two bytes of the check value, least significant first (R185). -/
def crcBytes (bs : List Byte) : List Byte := le 2 (crc16 bs).toNat

/-! ### Value codes (Table 11-1) -/

def Mode.code : Mode → Byte
  | .quiet => 0 | .night => 1 | .day => 2

/-- The mode a code names, if any. -/
def Mode.ofCode (n : Nat) : Option Mode :=
  if n = 0 then some .quiet else if n = 1 then some .night else if n = 2 then some .day else none

def LatePolicy.code : LatePolicy → Byte
  | .apply => 0 | .drop => 1

def LatePolicy.ofCode (n : Nat) : Option LatePolicy :=
  if n = 0 then some .apply else if n = 1 then some .drop else none

def CampaignState.code : CampaignState → Byte
  | .free => 0 | .opened => 1 | .cut => 2 | .done => 3

def Condition.code : Condition → Byte
  | .nil => 0 | .partly => 1 | .complete => 2 | .bad => 3

def Condition.ofCode (n : Nat) : Option Condition :=
  if n = 0 then some .nil else if n = 1 then some .partly else if n = 2 then some .complete
  else if n = 3 then some .bad else none

def EntryState.code : EntryState → Byte
  | .unseen => 0 | .present => 1 | .lost => 2

def ChangeState.code : ChangeState → Byte
  | .queued => 0 | .sending => 1 | .staged => 2 | .withdrawing => 3 | .verifying => 4 | .finished => 5

def OutcomeCode.code : OutcomeCode → Byte
  | .applied => 0 | .appliedLate => 1 | .appliedUnverified => 2 | .superseded => 3 | .cancelled => 4
  | .withdrawn => 5 | .withdrawUnconfirmed => 6 | .cancelTooLate => 7 | .failedUnreachable => 8
  | .failedBudget => 9 | .failedCorrupt => 10 | .droppedLate => 11

def Latch.code : Latch → Byte
  | .armed => 0 | .spent => 1

def ResetKind.code : ResetKind → Byte
  | .cold => 1 | .warm => 2

def ResetKind.ofCode (n : Nat) : Option ResetKind :=
  if n = 1 then some .cold else if n = 2 then some .warm else none

/-- The marks byte: bit 0 LATE, bit 1 STALE_CUT. -/
def marksByte (late stale : Bool) : Byte := BitVec.ofNat 8 (late.toNat + 2 * stale.toNat)

/-- The rate in bit/s (R166). -/
def LineRate.value : LineRate → Nat
  | .r57600 => 57600 | .r115200 => 115200 | .r230400 => 230400 | .r460800 => 460800 | .r921600 => 921600

/-- The rate a number of bit/s names, if it is one of the five (R166). -/
def LineRate.ofValue (n : Nat) : Option LineRate :=
  if n = 57600 then some .r57600 else if n = 115200 then some .r115200
  else if n = 230400 then some .r230400 else if n = 460800 then some .r460800
  else if n = 921600 then some .r921600 else none

/-- The result codes (Table 9-3). -/
inductive ResultCode where
  | ok | unknownKind | badLength | badValue | noSuchTag | tagExists | directoryFull | tagBusy | conflict
  | tableFull | poolFull | imageMalformed | pageTooSmall | noSuchCampaign | campaignState | activationPast
  | activationFar | clockUnset | noSuchChange | already | tooLate | noSite | noCells | windowConflict
  | airLocked | directoryNotEmpty | storeFailed
deriving DecidableEq, Repr

/-- The status byte of a result code (Table 9-3). -/
def ResultCode.byte : ResultCode → Byte
  | .ok => 0x00 | .unknownKind => 0x01 | .badLength => 0x02 | .badValue => 0x03 | .noSuchTag => 0x04
  | .tagExists => 0x05 | .directoryFull => 0x06 | .tagBusy => 0x07 | .conflict => 0x08 | .tableFull => 0x09
  | .poolFull => 0x0A | .imageMalformed => 0x0B | .pageTooSmall => 0x0C | .noSuchCampaign => 0x0D
  | .campaignState => 0x0E | .activationPast => 0x0F | .activationFar => 0x10 | .clockUnset => 0x11
  | .noSuchChange => 0x12 | .already => 0x13 | .tooLate => 0x14 | .noSite => 0x15 | .noCells => 0x16
  | .windowConflict => 0x17 | .airLocked => 0x18 | .directoryNotEmpty => 0x19 | .storeFailed => 0x1A

/-! ### The host frame (R160) -/

/-- The body of a frame: the body header and the payload (Table 11-3). -/
def Frame.body (f : Frame) : List Byte := f.kind :: f.num :: f.status :: f.payload

/-- The two length bytes and the body, over which the check value is taken (R160). -/
def Frame.checked (f : Frame) : List Byte := le 2 f.body.length ++ f.body

/-- A frame's bytes on the line (Table 11-2). -/
def Frame.bytes (f : Frame) : List Byte := 0xC3 :: f.checked ++ crcBytes f.checked

/-- The frame a body spells; a body has at least its three-byte header (R160). -/
def Frame.ofBody : List Byte → Option Frame
  | kind :: num :: status :: payload => some ⟨kind, num, status, payload⟩
  | _ => none

/-- The request frame of a kind, number and payload, its status byte sent as 0 (R160). -/
def requestFrame (kind num : Byte) (payload : List Byte) : Frame := ⟨kind, num, 0, payload⟩

/-- The reply frame to a request (R169): its kind plus 0x80, its number, the result code and the reply's payload. -/
def replyFrame (kind num : Byte) (code : ResultCode) (payload : List Byte) : Frame :=
  ⟨kind + 0x80, num, code.byte, payload⟩

/-- The notice frame of a kind (R173): request number 0, status byte 0. -/
def noticeFrame (kind : Byte) (payload : List Byte) : Frame := ⟨kind, 0, 0, payload⟩

/-! ### Clamps -/

/-- A value brought to the nearest end of a range (R176). -/
def clamp (lo hi v : Nat) : Nat := max lo (min v hi)

/-- A wake class from its byte; a class above 7 is clamped to 7 (R24, R27). -/
def clampClass (n : Nat) : WakeClass := ⟨min n 7, by omega⟩

/-! ### Settings items as values (Table 10-1, R186) -/

/-- A cell item's 4-byte value: enable, channel group, offset (R186). -/
def CellSetting.value (c : CellSetting) : List Byte := boolByte c.enabled :: le 1 c.group ++ le 2 c.offset

/-- The value of item `n`, 1..20, in 4 bytes (R179, R186). -/
def Settings.itemValue (w : Settings) (n : Nat) : List Byte :=
  match n with
  | 1 => le 4 w.siteCode.toNat
  | 2 => le 4 w.period
  | 3 => w.cells.c0.value
  | 4 => w.cells.c1.value
  | 5 => w.cells.c2.value
  | 6 => w.cells.c3.value
  | 7 => le 4 w.capacityNight
  | 8 => le 4 w.capacityDay
  | 9 => le 4 w.callCost
  | 10 => le 4 w.blockCost
  | 11 => le 4 w.reportCost
  | 12 => le 4 w.boostWakeCost
  | 13 => le 4 w.defaultAllowance
  | 14 => le 4 w.missLimit
  | 15 => le 4 w.guardBeacons
  | 16 => le 4 w.span
  | 17 => le 4 w.refreshTime
  | 18 => le 4 w.outcomeTrigger
  | 19 => le 4 w.enableMask.toNat
  | 20 => le 4 w.lineRate.value
  | _ => []

/-- All twenty items in item-number order, 80 bytes (R179). -/
def Settings.itemBytes (w : Settings) : List Byte :=
  (List.range 20).flatMap fun i => w.itemValue (i + 1)

/-! ### Air frames (R187, R188) -/

/-- A tag's report (R150), as decoded; the boost end is present by its flag. -/
structure Report where
  tagId     : TagId
  shown     : Serial
  staged    : StagedPage
  nextBlock : Nat
  wakeClass : WakeClass
  boostEnd  : Option Beacon
  battery   : Fin 16
  flashDone : Bool
deriving DecidableEq, Repr

/-- A tag's join request (R151), as decoded. -/
structure Join where
  tagId    : TagId
  siteCode : BitVec 16
  shown    : Serial
  staged   : StagedPage
deriving DecidableEq, Repr

/-- A staged serial of 0, and a nonzero one with condition NONE, are taken as staged none (R153). -/
def settle (serial : Serial) (c : Condition) : StagedPage :=
  if serial = 0 ∨ c = .nil then ⟨0, .nil⟩ else ⟨serial, c⟩

/-- Whether the last two bytes of an air frame of `n` bytes are its check value (R187). -/
def airChecked (n : Nat) (bs : List Byte) : Bool :=
  decide (bs.length = n) && decide (bs.drop (n - 2) = crcBytes (bs.take (n - 2)))

/-- A report frame decodes when its type, length, check value and field ranges are right (R188); its staged page is
then settled (R153). -/
def decodeReport (bs : List Byte) : Option Report :=
  match Condition.ofCode (field 9 1 bs) with
  | none => none
  | some c =>
    if airChecked 19 bs = true ∧ bs.head? = some 0xB4 ∧ field 10 1 bs ≤ 32 then
      if hw : field 11 1 bs < 8 then
        if hb : field 15 1 bs < 16 then
          some {
            tagId := BitVec.ofNat 32 (field 1 4 bs)
            shown := BitVec.ofNat 16 (field 5 2 bs)
            staged := settle (BitVec.ofNat 16 (field 7 2 bs)) c
            nextBlock := field 10 1 bs
            wakeClass := ⟨field 11 1 bs, hw⟩
            boostEnd := if (field 16 1 bs).testBit 1 then some (BitVec.ofNat 24 (field 12 3 bs)) else none
            battery := ⟨field 15 1 bs, hb⟩
            flashDone := (field 16 1 bs).testBit 0 }
        else none
      else none
    else none

/-- A join frame decodes when its type, length, check value and staged condition are right (R188); its staged page is
settled in the same way. -/
def decodeJoin (bs : List Byte) : Option Join :=
  match Condition.ofCode (field 11 1 bs) with
  | none => none
  | some c =>
    if airChecked 14 bs = true ∧ bs.head? = some 0xB5 then
      some {
        tagId := BitVec.ofNat 32 (field 1 4 bs)
        siteCode := BitVec.ofNat 16 (field 5 2 bs)
        shown := BitVec.ofNat 16 (field 7 2 bs)
        staged := settle (BitVec.ofNat 16 (field 9 2 bs)) c }
    else none

/-- An air frame: its bytes followed by their check value (R187). -/
def withCheck (bs : List Byte) : List Byte := bs ++ crcBytes bs

/-- The report frame of Table 11-11. -/
def reportFrame (r : Report) : List Byte :=
  withCheck (0xB4 :: le 4 r.tagId.toNat ++ le 2 r.shown.toNat ++ le 2 r.staged.serial.toNat
    ++ [r.staged.condition.code] ++ le 1 r.nextBlock ++ le 1 r.wakeClass.val
    ++ le 3 ((r.boostEnd.map (·.toNat)).getD 0) ++ le 1 r.battery.val
    ++ [BitVec.ofNat 8 (r.flashDone.toNat + 2 * r.boostEnd.isSome.toNat)])

/-- The join frame of Table 11-11. -/
def joinFrame (j : Join) : List Byte :=
  withCheck (0xB5 :: le 4 j.tagId.toNat ++ le 2 j.siteCode.toNat ++ le 2 j.shown.toNat
    ++ le 2 j.staged.serial.toNat ++ [j.staged.condition.code])

/-- The grant as a beacon frame carries it (Table 11-9), with the entry's class at the instant (R39). -/
def grantBytes (g : Grant) (siteCode : BitVec 16) (w : WakeClass) : List Byte :=
  le 4 g.tagId.toNat ++ le 2 g.addr ++ le 2 siteCode.toNat ++ le 1 w.val

/-- The beacon frame of Table 11-9 (R143). -/
def beaconFrame (siteCode : BitVec 16) (b : Beacon) (c : Cell) (m : Mode) (called : List Nat)
    (grant : Option (List Byte)) : List Byte :=
  withCheck (0xB1 :: le 2 siteCode.toNat ++ le 3 b.toNat ++ le 1 c.val ++ [m.code] ++ le 1 called.length
    ++ [boolByte grant.isSome] ++ called.flatMap (le 2 ·) ++ grant.getD [])

/-- The order flags of a slot header (Table 11-10). -/
def orderFlags (p : Snapshot) : Byte :=
  let immediate := match p.change with
    | some ch => ch.effective.isNone
    | none => false
  BitVec.ofNat 8 (immediate.toNat + 2 * p.withdraw.toNat + 4 * p.verify.toNat + 8 * p.flash.toNat
    + 16 * p.wakeOrder.isSome.toNat + 32 * p.boostOrder.isSome.toNat)

/-- The slot header of Table 11-10, built from the snapshot alone (R144). -/
def slotHeader (p : Snapshot) : List Byte :=
  let n := (p.change.map (·.blockCount)).getD 0
  let ck := (p.change.map (·.checksum.toNat)).getD 0
  let eff := ((p.change.bind (·.effective)).map (·.toNat)).getD 0
  withCheck (0xB2 :: le 4 p.tagId.toNat ++ le 2 p.addr ++ le 2 p.serial.toNat ++ le 1 n ++ le 2 ck ++ le 3 eff
    ++ [orderFlags p] ++ le 1 p.first ++ le 1 p.carried ++ le 1 ((p.wakeOrder.map (·.val)).getD 0)
    ++ le 3 ((p.boostOrder.map (·.toNat)).getD 0))

/-- The block frame of block number `j` (Table 11-10). -/
def blockFrame (j : Nat) (block : List Byte) : List Byte := withCheck (0xB3 :: le 1 j ++ block)

/-- A slot's downlink: the header, then one block frame for each block carried, in block order (R144, R187). -/
def slotDownlink (p : Snapshot) : List (List Byte) :=
  slotHeader p :: p.blocks.mapIdx fun i blk => blockFrame (p.first + i) blk

end Sys2Proof.Machine
end

