-- ==== Sys2Proof/Machine/Ops.lean ====
section
/-! DEFINITION. The operations the blocks share: finding and changing directory entries and change records, filing tags in the
wake calendars, the Content Pool, campaign counting, notices, and the finishing of a record (R81) with its way through the
retire queue (R82). -/

namespace Sys2Proof.Machine

/-! ### Entries and records -/

/-- The directory entry at a short address. -/
def State.entryAt (s : State) (a : Nat) : Option Entry := s.dir.entries.find? fun e => decide (e.addr = a)

/-- The directory entry holding a tag id. -/
def State.entryOf (s : State) (id : TagId) : Option Entry := s.dir.entries.find? fun e => decide (e.tagId = id)

/-- The change record in the table holding a serial (R61); serial 0 is none (R64). -/
def State.recordOf (s : State) (k : Serial) : Option Change :=
  if k = 0 then none else s.table.records.find? fun r => decide (r.serial = k)

/-- The entry at a short address changed by `f`. -/
def updEntry (a : Nat) (f : Entry → Entry) (s : State) : State :=
  { s with dir.entries := s.dir.entries.map fun e => if e.addr = a then f e else e }

/-- The record of a serial changed by `f`. -/
def updRecord (k : Serial) (f : Change → Change) (s : State) : State :=
  { s with table.records := s.table.records.map fun r => if r.serial = k then f r else r }

/-- An entry's live change record (R62). -/
def State.liveRecord (s : State) (e : Entry) : Option Change := e.live.bind s.recordOf

/-- The activation beacon E of a campaign, while it has one (Table 5-1). -/
def State.activationBeacon (s : State) (i : CampaignIndex) : Option Beacon :=
  (s.campaigns.get i).activation.map (·.beacon)

/-- Whether a state of a live change is work (Table 4-2). -/
def ChangeState.isWork : ChangeState → Bool
  | .queued | .sending | .withdrawing | .verifying => true
  | .staged | .finished => false

/-- Whether a tag has work (R121). -/
def State.hasWork (s : State) (e : Entry) : Bool :=
  (match s.liveRecord e with
    | some r => r.state.isWork
    | none => false)
  || e.commanded.isSome || e.flash

/-! ### Link tiers (R32) -/

/-- The tier of a link level, 1..4 (Table 2-3). -/
def linkTier : Option Byte → Nat
  | none => 4
  | some l => if 160 ≤ l.toNat then 1 else if 110 ≤ l.toNat then 2 else if 70 ≤ l.toNat then 3 else 4

/-- The blocks per slot of a link level's tier (Table 2-3). -/
def tierBlocks (l : Option Byte) : Nat :=
  match linkTier l with
  | 1 => 8
  | 2 => 4
  | 3 => 2
  | _ => 1

/-! ### Wake calendars and boost lists -/

/-- A tag's wake calendar entry and the cell whose calendar holds it. -/
def State.calendarOf (s : State) (a : Nat) : Option (Cell × CalendarEntry) :=
  allFour.findSome? fun c => ((s.planner.calendar.get c).find? fun x => decide (x.addr = a)).map fun x => (c, x)

/-- A tag's boost list entry and the cell whose list holds it. -/
def State.boostOf (s : State) (a : Nat) : Option (Cell × BoostEntry) :=
  allFour.findSome? fun c => ((s.planner.boosts.get c).find? fun x => decide (x.addr = a)).map fun x => (c, x)

/-- A tag's calendar entry dropped, wherever it lies. -/
def dropCalendar (a : Nat) (s : State) : State :=
  { s with planner.calendar := s.planner.calendar.map fun l => l.filter fun x => decide (x.addr ≠ a) }

/-- A tag's boost list entry dropped, wherever it lies. -/
def dropBoost (a : Nat) (s : State) : State :=
  { s with planner.boosts := s.planner.boosts.map fun l => l.filter fun x => decide (x.addr ≠ a) }

/-- A calendar entry placed in cell c's calendar, any entry the tag held dropped first (R120). -/
def placeCalendar (c : Cell) (x : CalendarEntry) (s : State) : State :=
  let s := dropCalendar x.addr s
  { s with planner.calendar := s.planner.calendar.modify c (insertBy (fun p q => decide (p.addr < q.addr)) x) }

/-- A boost list entry placed on cell c's list, any entry the tag held dropped first (R133). -/
def placeBoost (c : Cell) (x : BoostEntry) (s : State) : State :=
  let s := dropBoost x.addr s
  { s with planner.boosts := s.planner.boosts.modify c (insertBy (fun p q => decide (p.addr < q.addr)) x) }

/-- The next wake after λ_h by the tag's class (R122, class case). -/
def State.classDue (s : State) (e : Entry) (h : Cell) : Beacon :=
  nextWake e.believed e.tagId (s.planner.last.get h)

/-- The due beacon of a filing at home cell h (R122): λ_h + 1 while a confirmed boost list entry there runs, and the class
case otherwise. R20 would file a boosted tag at wakes of its class alone; R122, R130 and the worked case of chapter 7 file it by
the boost case (DEDUCED, log entry 29). -/
def State.fileDue (s : State) (e : Entry) (h : Cell) : Beacon :=
  let next := s.planner.last.get h + 1
  match (s.planner.boosts.get h).find? fun x => decide (x.addr = e.addr) && x.confirmed with
  | some x => if atOrAfter x.boostEnd next then next else s.classDue e h
  | none => s.classDue e h

/-- A tag filed by R122. -/
def fileTag (a : Nat) (s : State) : State :=
  match s.entryAt a with
  | none => s
  | some e =>
    match e.home with
    | none => s
    | some h => placeCalendar h ⟨a, s.fileDue e h⟩ s

/-- The Call Planner's response to a work notice (Table 7-2). -/
def workNotice (a : Nat) (s : State) : State :=
  match s.entryAt a with
  | none => s
  | some e =>
    if e.state = .present then
      if s.hasWork e then
        if (s.calendarOf a).isSome then s else fileTag a s
      else dropCalendar a s
    else s

/-! ### Content Pool -/

/-- How many blocks the pool holds for a change. -/
def Pool.heldBy (p : Pool) (k : Serial) : Nat :=
  ((p.held.filter fun x => decide (x.serial = k)).map fun x => x.blocks.length).sum

/-- The blocks in use (R56). -/
def Pool.used (p : Pool) : Nat := (p.held.map fun x => x.blocks.length).sum

/-- A change's blocks released (R59). -/
def Pool.release (p : Pool) (k : Serial) : Pool :=
  ⟨p.free + p.heldBy k, p.held.filter fun x => decide (x.serial ≠ k)⟩

/-- Blocks taken from the free blocks and held for a change (R57). -/
def Pool.take (p : Pool) (k : Serial) (blocks : List (List Byte)) : Pool :=
  ⟨p.free - blocks.length, p.held ++ [⟨k, blocks⟩]⟩

/-- The blocks the pool holds for a change, in block order (R56). -/
def Pool.blocksOf (p : Pool) (k : Serial) : List (List Byte) :=
  match p.held.find? fun x => decide (x.serial = k) with
  | some x => x.blocks
  | none => []

/-! ### Notices (R173) -/

/-- The OUTCOMES_READY notice placed, and the latch made SPENT with the timer stopped (R174). -/
def placeOutcomesReady (s : State) : State :=
  { s with handler.notices.outcomesReady := true, handler.latch := .spent, handler.timer := 0 }

/-- The trigger test of the OUTCOMES_READY latch (R174). -/
def latchTrigger (s : State) : State :=
  if s.handler.latch = .armed ∧ s.store.working.outcomeTrigger ≤ s.table.outcomes.length then placeOutcomesReady s
  else s

/-- The STRANGERS notice placed; one already waiting stays the only one (R40). -/
def placeStrangers (s : State) : State := { s with handler.notices.strangers := true }

/-! ### Campaign counting -/

/-- A campaign entry changed by `f`; campaign 0 has no entry (R102). -/
def updCampaign (i : Option CampaignIndex) (f : Campaign → Campaign) (s : State) : State :=
  match i with
  | none => s
  | some i => { s with campaigns := s.campaigns.modify i f }

/-- The tally of one outcome code raised by 1, wrapping (R94). -/
def Tallies.bump (t : Tallies) : OutcomeCode → Tallies
  | .applied => { t with applied := t.applied + 1 }
  | .appliedLate => { t with appliedLate := t.appliedLate + 1 }
  | .appliedUnverified => { t with appliedUnverified := t.appliedUnverified + 1 }
  | .superseded => { t with superseded := t.superseded + 1 }
  | .cancelled => { t with cancelled := t.cancelled + 1 }
  | .withdrawn => { t with withdrawn := t.withdrawn + 1 }
  | .withdrawUnconfirmed => { t with withdrawUnconfirmed := t.withdrawUnconfirmed + 1 }
  | .cancelTooLate => { t with cancelTooLate := t.cancelTooLate + 1 }
  | .failedUnreachable => { t with failedUnreachable := t.failedUnreachable + 1 }
  | .failedBudget => { t with failedBudget := t.failedBudget + 1 }
  | .failedCorrupt => { t with failedCorrupt := t.failedCorrupt + 1 }
  | .droppedLate => { t with droppedLate := t.droppedLate + 1 }

/-- The tallies in the outcome code order of Table 11-1. -/
def Tallies.toList (t : Tallies) : List (BitVec 32) :=
  [t.applied, t.appliedLate, t.appliedUnverified, t.superseded, t.cancelled, t.withdrawn, t.withdrawUnconfirmed,
   t.cancelTooLate, t.failedUnreachable, t.failedBudget, t.failedCorrupt, t.droppedLate]

/-- The sum of the tallies modulo 2^32 (R103). -/
def Tallies.sum (t : Tallies) : BitVec 32 := t.toList.foldl (· + ·) 0

/-- Done detection (R103): a CUT campaign whose admitted count equals the sum of its tallies becomes DONE with done beacon B,
and its CAMPAIGN_DONE notice, holding the entry as it then stands, is placed (R104). -/
def doneCheck (i : CampaignIndex) (s : State) : State :=
  let c := s.campaigns.get i
  if c.state = .cut ∧ c.admitted = c.tallies.sum then
    let d := { c with state := .done, doneBeacon := some s.air.beacon }
    { s with
      campaigns := s.campaigns.set i d
      handler.notices.campaignDone := s.handler.notices.campaignDone.set i (some d) }
  else s

/-- A record of a campaign leaves the table with an outcome code: the tally rises (R94) and done detection is applied
(R103). -/
def tallyOutcome (i : Option CampaignIndex) (code : OutcomeCode) (s : State) : State :=
  match i with
  | none => s
  | some i => doneCheck i { s with campaigns := s.campaigns.modify i fun c => { c with tallies := c.tallies.bump code } }

/-! ### Finishing a record (R81, R82) -/

/-- The outcome record of a FINISHED record (R83). -/
def Change.outcomeRecord (r : Change) : Option OutcomeRecord :=
  match r.outcome, r.finalBeacon with
  | some code, some b => some ⟨r.serial, r.tagId, r.campaign, code, r.late, r.staleCut, b, r.calls, r.spent⟩
  | _, _ => none

/-- The record at the head of the retire queue leaves the queue and the table and enters the outcome list (R82): it is
tallied (R94), and the trigger of R174 is tested. -/
def passHead (s : State) : State :=
  match s.table.retire with
  | [] => s
  | k :: rest =>
    match (s.recordOf k).bind Change.outcomeRecord with
    | none => { s with table.retire := rest }
    | some o =>
      latchTrigger (tallyOutcome o.campaign o.code
        { s with
          table.retire := rest
          table.records := s.table.records.filter fun r => decide (r.serial ≠ k)
          table.outcomes := s.table.outcomes ++ [o] })

/-- Records pass from the retire queue into the outcome list while there is room (R82), at most `n` of them. -/
def passRecords : Nat → State → State
  | 0, s => s
  | n + 1, s => if s.table.retire = [] ∨ 1024 ≤ s.table.outcomes.length then s else passRecords n (passHead s)

/-- All that can pass does (R82). -/
def passAll (s : State) : State := passRecords s.table.retire.length s

/-- A FINISHED record joins the tail of the retire queue; one that does not pass at once sets OUTCOME_BACKLOG (R82). -/
def joinRetire (k : Serial) (s : State) : State :=
  let s := passAll { s with table.retire := s.table.retire ++ [k] }
  if k ∈ s.table.retire then raiseFlag .outcomeBacklog s else s

/-- The entry whose live change is the serial has none from now on (R81, step 3). -/
def clearLive (a : Nat) (k : Serial) (s : State) : State :=
  updEntry a (fun e => if e.live = some k then { e with live := none } else e) s

/-- A record reaches FINISHED with an outcome code (R81). `within` says that it does so within an admission, which puts in the
new live change itself, tells the Call Planner once, and keeps the boost list entry (R69, R135). Outside an admission the
boost list entry goes before the work notice is acted on, so that a filing then takes the class case (R122, log entry 24). -/
def finish (k : Serial) (code : OutcomeCode) (within : Bool) (s : State) : State :=
  match s.recordOf k with
  | none => s
  | some r =>
    let s := updRecord k (fun r => { r with
      state := .finished, outcome := some code, finalBeacon := some s.air.beacon }) s
    let s := { s with pool := s.pool.release k }
    let s := if within then s else workNotice r.addr (dropBoost r.addr (clearLive r.addr k s))
    let s := updCampaign r.campaign (fun c => { c with live := c.live - 1 }) s
    joinRetire k s

/-! ### Free choices -/

/-- The element at place `n` of a list, and the others in order. -/
def pickAt {α : Type} : Nat → List α → Option (α × List α)
  | _, [] => none
  | 0, x :: xs => some (x, xs)
  | n + 1, x :: xs => (pickAt n xs).map fun p => (p.1, x :: p.2)

/-- A list in an order the spec leaves open: each next element is chosen by a free value, the `k`th and on (log entries 5
and 6). A list of one element reads none. -/
def freeOrder {α : Type} : Nat → Nat → List α → List α
  | _, _, [] => []
  | _, _, [x] => [x]
  | 0, _, xs => xs
  | n + 1, k, xs =>
    match pickAt (Config.freeChoice k % xs.length) xs with
    | none => xs
    | some (x, rest) => x :: freeOrder n (k + 1) rest

end Sys2Proof.Machine
end

