-- ==== Sys2Proof/Machine/Requests.lean ====
section
/-! DEFINITION. The host line's queues and the taking of requests: the inbound queue with its flow control (R164, R167), the
outbound places (R168), and the Record Handler's taking of a request and placing of its reply (R169). -/

namespace Sys2Proof.Machine

/-- What a step answers. -/
abbrev Out := Host.Outcome State Fault Refusal

/-! ### The queues -/

/-- The flow-control state when the inbound count has risen to `n` (Table 9-1). -/
def Flow.onRise (n : Nat) : Flow → Flow
  | .flowOpen => if n = 12 then .holdDue else .flowOpen
  | .goDue => if n = 12 then .held else .goDue
  | f => f

/-- The flow-control state when the inbound count has fallen to `n` (Table 9-1). -/
def Flow.onFall (n : Nat) : Flow → Flow
  | .holdDue => if n = 4 then .flowOpen else .holdDue
  | .held => if n = 4 then .goDue else .held
  | f => f

/-- Whether a flow-control byte is due (Table 9-1). -/
def Flow.due : Flow → Bool
  | .holdDue | .goDue => true
  | .flowOpen | .held => false

/-- The flow-control state once the byte that is due has gone out (Table 9-1). -/
def Flow.sent : Flow → Flow
  | .holdDue => .held
  | .goDue => .flowOpen
  | f => f

/-- The flow-control state moved by the inbound count. A byte that comes due finds its position free at once when no frame is
being sent, that is, when the outbound queue is empty (R167, log entry 32). -/
def HostLine.withFlow (l : HostLine) (f : Flow) : HostLine :=
  if f = l.flow then l else { l with flow := f, flowFree := f.due && decide (l.outbound = []) }

/-- A complete frame offered to the inbound queue (R164). -/
def offerFrame (f : Frame) (s : State) : State :=
  if s.line.inbound.length < 16 then
    let joined : HostLine := { s.line with inbound := s.line.inbound ++ [f] }
    { s with line := joined.withFlow (s.line.flow.onRise (s.line.inbound.length + 1)) }
  else raiseFlag .inboundOverrun s

/-- The frame at the head of the inbound queue removed (R169). -/
def takeHead (s : State) : State :=
  let taken : HostLine := { s.line with inbound := s.line.inbound.tail }
  { s with line := taken.withFlow (s.line.flow.onFall s.line.inbound.tail.length) }

/-- The places of the outbound queue claimed for the reply of the request in progress (R168). -/
def Task.claimed : Task → Nat
  | .saving _ _ => 1
  | .idle | .resetting _ => 0

/-- The free outbound places (R168). -/
def State.freePlaces (s : State) : Nat := 8 - s.line.outbound.length - s.handler.task.claimed

/-- Whether the Record Handler may take a request: IDLE, and an outbound place is free (R169). -/
def State.canTake (s : State) : Bool := decide (s.handler.task = .idle) && decide (0 < s.freePlaces)

/-- A frame placed at the tail of the outbound queue (R168). -/
def placeFrame (f : Frame) (s : State) : State := { s with line.outbound := s.line.outbound ++ [f] }

/-! ### Taking a request -/

/-- What a block answers a request with: its result code and the reply's payload, if the reply is placed at once, and the
state it leaves. -/
abbrev Answer := Option (ResultCode × List Byte) × State

/-- The answer OK with a payload. -/
def okWith (data : List Byte) (s : State) : Answer := (some (.ok, data), s)

/-- A refusal: a result code with the body header alone, and nothing changed (R189). -/
def refuse (code : ResultCode) (s : State) : Answer := (some (code, []), s)

/-- The reply placed, if there is one (R169). -/
def answerWith (kind num : Byte) (a : Answer) : State :=
  match a.1 with
  | none => a.2
  | some (code, data) => placeFrame (replyFrame kind num code data) a.2

/-- The test of the body length: a payload of another length is refused BAD_LENGTH (R169, R186). -/
def ofLength (n : Nat) (payload : List Byte) (act : State → Answer) (s : State) : Answer :=
  if payload.length = n then act s else refuse .badLength s

/-- Whether two frames are the same request; the status byte is not examined (R160). -/
def Frame.sameRequest (f g : Frame) : Bool :=
  decide (f.kind = g.kind) && decide (f.num = g.num) && decide (f.payload = g.payload)

/-- The request at the head of the inbound queue taken and answered, if the Record Handler may take it; otherwise it waits
where it stands (R169). -/
def takeAndAnswer (kind num : Byte) (act : State → Answer) (s : State) : State :=
  if s.canTake then answerWith kind num (act (takeHead s)) else s

/-- A request row. Where the request's frame stands at the head of the inbound queue, the row is its taking (R169). Otherwise
the row stands for the request from its completion as a frame on: the frame joins the queue (R164), and it is taken at once
where it then stands at the head (log entry 1). Without supply nothing happens. -/
def request (kind num : Byte) (payload : List Byte) (act : State → Answer) (s : State) : State :=
  if s.powered then
    match s.line.inbound with
    | g :: _ =>
      if g.sameRequest (requestFrame kind num payload) then takeAndAnswer kind num act s
      else offerFrame (requestFrame kind num payload) s
    | [] => takeAndAnswer kind num act (offerFrame (requestFrame kind num payload) s)
  else s

/-- The request frame that carries a request row (R160, Table 9-2); none for an event row. -/
def requestOf : Instr → Option Frame
  | .status num payload => some (requestFrame 0x01 num payload)
  | .setClock num payload => some (requestFrame 0x02 num payload)
  | .setBeacon num payload => some (requestFrame 0x03 num payload)
  | .setMode num payload => some (requestFrame 0x04 num payload)
  | .configSet num payload => some (requestFrame 0x05 num payload)
  | .configGet num payload => some (requestFrame 0x06 num payload)
  | .saveSettings num payload => some (requestFrame 0x07 num payload)
  | .resetCold num payload => some (requestFrame 0x08 num payload)
  | .resetWarm num payload => some (requestFrame 0x08 num payload)
  | .setLine num payload => some (requestFrame 0x09 num payload)
  | .setNotices num payload => some (requestFrame 0x0A num payload)
  | .clearEvents num payload => some (requestFrame 0x0B num payload)
  | .enrol num payload => some (requestFrame 0x0C num payload)
  | .remove num payload => some (requestFrame 0x0D num payload)
  | .setWakeTag num payload => some (requestFrame 0x0E num payload)
  | .setWakeZone num payload => some (requestFrame 0x0E num payload)
  | .setAllowance num payload => some (requestFrame 0x0F num payload)
  | .locate num payload => some (requestFrame 0x10 num payload)
  | .queryTag num payload => some (requestFrame 0x11 num payload)
  | .listStrangers num payload => some (requestFrame 0x12 num payload)
  | .refreshBudgets num payload => some (requestFrame 0x13 num payload)
  | .openCampaign num payload => some (requestFrame 0x14 num payload)
  | .queryCampaign num payload => some (requestFrame 0x15 num payload)
  | .releaseCampaign num payload => some (requestFrame 0x16 num payload)
  | .postChange num payload => some (requestFrame 0x17 num payload)
  | .cancelChange num payload => some (requestFrame 0x18 num payload)
  | .queryChange num payload => some (requestFrame 0x19 num payload)
  | .fetchOutcomes num payload => some (requestFrame 0x1A num payload)
  | .unknownKind kind num payload => some (requestFrame kind num payload)
  | .powerOn _ | .settingsWriteEnd _ | .resetActs | .lineRateChange | .outcomesReadyTimeout
  | .hostByteReceived _ _ | .idleGap | .lineBreak | .hold | .go | .outboundFrameSent | .noticeMove
  | .headLost _ | .headReturned _ | .beaconStart | .refreshCrossing | .cellBeaconInstant _ _
  | .slotEnd _ _ _ | .joinSlotEnd _ _ | .powerLoss => none

/-- An event that the part takes while it has its supply. -/
def event (act : State → State) (s : State) : State := if s.powered then act s else s

end Sys2Proof.Machine
end

