-- ==== Sys2Proof/Machine/Settings.lean ====
section
/-! DEFINITION. The Settings Store: the window checks (R16), CONFIG-SET and CONFIG-GET (R177, R178), the stored settings block
and its loading (R179, R180), SAVE-SETTINGS and the end of its write (R181), and SET-MODE (R182). -/

namespace Sys2Proof.Machine

/-! ### Window checks -/

/-- The length of a call window in ticks (R14). -/
def windowLength (capacityNight : Nat) : Nat := 26 + 30 * capacityNight

/-- Whether the windows of two cells may stand beside each other (R16, condition 2). -/
def cellsDisjoint (k : Nat) (a b : CellSetting) : Bool :=
  !(a.enabled && b.enabled && decide (a.group = b.group))
    || decide (a.offset + k ≤ b.offset) || decide (b.offset + k ≤ a.offset)

/-- The three conditions of R16. -/
def windowsFit (period capacityNight : Nat) (cells : Quad CellSetting) : Bool :=
  let k := windowLength capacityNight
  cells.toList.all (fun c => !c.enabled || decide (c.offset + k ≤ period))
    && cellsDisjoint k cells.c0 cells.c1 && cellsDisjoint k cells.c0 cells.c2 && cellsDisjoint k cells.c0 cells.c3
    && cellsDisjoint k cells.c1 cells.c2 && cellsDisjoint k cells.c1 cells.c3 && cellsDisjoint k cells.c2 cells.c3
    && cells.toList.all (fun c => decide (c.offset + 1 ≤ period))

/-- The window checks of R16 on working settings. -/
def Settings.fits (w : Settings) : Bool := windowsFit w.period w.capacityNight w.cells

/-! ### Items and their values -/

/-- The cell setting a 4-byte value spells: enable, channel group, offset (R186). -/
def cellOfValue (v : List Byte) : CellSetting := ⟨field 0 1 v = 1, field 1 1 v, field 2 2 v⟩

/-- Whether a cell item's value lies in its ranges under the period `period` (R15, R186). -/
def cellInRange (period : Nat) (v : List Byte) : Bool :=
  decide (field 0 1 v ≤ 1) && decide (field 1 1 v ≤ 3) && decide (field 2 2 v + 1 ≤ period)

/-- Whether an item's value lies inside its refused range, if its range is refused (Table 10-1); `period` is L as it would
stand after the request. -/
def itemInRange (period n : Nat) (v : List Byte) : Bool :=
  match n with
  | 1 => decide (leNat v ≤ 65535)
  | 2 => decide (512 ≤ leNat v) && decide (leNat v ≤ 8192)
  | 3 | 4 | 5 | 6 => cellInRange period v
  | 13 => decide (leNat v ≤ 65535)
  | 17 => decide (leNat v ≤ 86399)
  | 20 => (LineRate.ofValue (leNat v)).isSome
  | _ => true

/-- An item taken into the settings, clamped where its range is clamped (Table 10-1). C_D is clamped to C_N afterwards, when
all items are in. -/
def Settings.withItem (w : Settings) (n : Nat) (v : List Byte) : Settings :=
  match n with
  | 1 => { w with siteCode := BitVec.ofNat 16 (leNat v) }
  | 2 => { w with period := leNat v }
  | 3 => { w with cells.c0 := cellOfValue v }
  | 4 => { w with cells.c1 := cellOfValue v }
  | 5 => { w with cells.c2 := cellOfValue v }
  | 6 => { w with cells.c3 := cellOfValue v }
  | 7 => { w with capacityNight := clamp 1 12 (leNat v) }
  | 8 => { w with capacityDay := leNat v }
  | 9 => { w with callCost := clamp 0 255 (leNat v) }
  | 10 => { w with blockCost := clamp 0 255 (leNat v) }
  | 11 => { w with reportCost := clamp 0 255 (leNat v) }
  | 12 => { w with boostWakeCost := clamp 0 255 (leNat v) }
  | 13 => { w with defaultAllowance := leNat v }
  | 14 => { w with missLimit := clamp 1 15 (leNat v) }
  | 15 => { w with guardBeacons := clamp 0 64 (leNat v) }
  | 16 => { w with span := clamp 8 128 (leNat v) }
  | 17 => { w with refreshTime := leNat v }
  | 18 => { w with outcomeTrigger := clamp 1 64 (leNat v) }
  | 19 => { w with enableMask := BitVec.ofNat 12 (leNat v) }
  | 20 => { w with lineRate := (LineRate.ofValue (leNat v)).getD w.lineRate }
  | _ => w

/-- Items taken together (R177); C_D ends at most at the C_N then held (R176). -/
def Settings.withItems (w : Settings) (items : List (Nat × List Byte)) : Settings :=
  let w' := items.foldl (fun w i => w.withItem i.1 i.2) w
  { w' with capacityDay := min w'.capacityDay w'.capacityNight }

/-- A record of items: item number (1 byte) and value (4 bytes) each (Table 11-4). -/
def parseItems : Nat → List Byte → List (Nat × List Byte)
  | 0, _ => []
  | n + 1, bs => (field 0 1 bs, (bs.drop 1).take 4) :: parseItems n (bs.drop 5)

/-! ### CONFIG-SET (R177) -/

/-- Whether the geometry items L, C_N or a cell's differ (R16). -/
def Settings.geometryDiffers (a b : Settings) : Bool :=
  decide (a.period ≠ b.period) || decide (a.capacityNight ≠ b.capacityNight) || decide (a.cells ≠ b.cells)

/-- Whether a campaign is OPEN or CUT (R2). -/
def State.campaignRunning (s : State) : Bool :=
  s.campaigns.toList.any fun c => decide (c.state = .opened) || decide (c.state = .cut)

/-- The five tests of CONFIG-SET in order (R177): the first that fails, or none. -/
def configRefusal (items : List (Nat × List Byte)) (w' : Settings) (s : State) : Option ResultCode :=
  let w := s.store.working
  if items = [] ∨ ¬ (items.all fun i => decide (1 ≤ i.1) && decide (i.1 ≤ 17)) ∨ ¬ (items.map (·.1)).Nodup then
    some .badValue
  else if ¬ (items.all fun i => itemInRange w'.period i.1 i.2) then some .badValue
  else if w'.siteCode ≠ w.siteCode ∧ s.dir.entries ≠ [] then some .directoryNotEmpty
  else if w'.period ≠ w.period ∧ s.campaignRunning then some .airLocked
  else if w.geometryDiffers w' ∧ ¬ w'.fits then some .windowConflict
  else none

/-- The working settings replaced; a changed item makes the unsaved indication yes (R176). -/
def putSettings (w' : Settings) (s : State) : State :=
  { s with
    store.working := w'
    store.unsaved := s.store.unsaved || decide (w' ≠ s.store.working) }

/-- CONFIG-SET on its items (R177): refused whole by the first failing test, or taken whole. Items that give the site code 0
also make the mode QUIET (R182). The reply carries each item as taken, in request order. -/
def configSetItems (items : List (Nat × List Byte)) (s : State) : Answer :=
  let w' := s.store.working.withItems items
  match configRefusal items w' s with
  | some code => refuse code s
  | none =>
    let s' := putSettings w' s
    let quiet := decide (w'.siteCode = 0) && items.any fun i => decide (i.1 = 1)
    let s' := if quiet then { s' with store.mode := .quiet } else s'
    okWith (le 1 items.length ++ items.flatMap fun i => le 1 i.1 ++ w'.itemValue i.1) s'

/-- CONFIG-SET (R177): the count in the first byte gives the required length (R186). -/
def actConfigSet (payload : List Byte) (s : State) : Answer :=
  match payload with
  | [] => refuse .badLength s
  | count :: rest =>
    if rest.length = 5 * count.toNat then configSetItems (parseItems count.toNat rest) s else refuse .badLength s

/-- CONFIG_SET (R177). -/
def execConfigSet (num : Byte) (payload : List Byte) (s : State) : Out :=
  .next (request 0x05 num payload (actConfigSet payload) s)

/-! ### CONFIG-GET (R178) -/

/-- CONFIG_GET (R178): the twenty items, the unsaved indication, and whether the last start-up used the defaults. -/
def execConfigGet (num : Byte) (payload : List Byte) (s : State) : Out :=
  .next (request 0x06 num payload (ofLength 0 payload fun s =>
    okWith (s.store.working.itemBytes ++ [boolByte s.store.unsaved, boolByte s.store.defaultsUsed]) s) s)

/-! ### The stored settings block -/

/-- The bytes of a stored settings block that the check value covers: signature 0x4A55, layout version 1, the items (R179). DESIGN
CHOICE: the signature's low byte comes first, which the spec leaves open in storage (log entry 33). -/
def Settings.storedPart (w : Settings) : List Byte := le 2 0x4A55 ++ le 1 1 ++ w.itemBytes

/-- The stored settings block of 85 bytes (R179). DESIGN CHOICE: the check value's low byte comes first (log entry 33). -/
def Settings.storedBytes (w : Settings) : List Byte := w.storedPart ++ crcBytes w.storedPart

/-- The twenty items of a stored block, numbered. -/
def storedItems (bs : List Byte) : List (Nat × List Byte) :=
  (List.range 20).map fun i => (i + 1, (bs.drop (3 + 4 * i)).take 4)

/-- The settings a stored block gives, clamped items clamped as they are loaded (R180). -/
def settingsOfBytes (bs : List Byte) : Settings := Settings.defaults.withItems (storedItems bs)

/-- Whether a stored block's bytes are valid (R180). DESIGN CHOICE: the signature and the check value are read low byte first (log
entry 33), and the geometry tested is the one loaded, whose K is that of C_N as clamped (R16, R17, log entry 34). -/
def storedValid (bs : List Byte) : Bool :=
  decide (bs.length = 85) && decide (field 0 2 bs = 0x4A55) && decide (field 2 1 bs = 1)
    && decide (bs.drop 83 = crcBytes (bs.take 83))
    && (storedItems bs).all (fun i => itemInRange (settingsOfBytes bs).period i.1 i.2)
    && (settingsOfBytes bs).fits

/-- The working settings a valid stored block gives; none for a block that is not valid (R180). -/
def StoredBlock.load : StoredBlock → Option Settings
  | .unwritten => none
  | .damaged => none
  | .written bs => if storedValid bs then some (settingsOfBytes bs) else none

/-! ### SAVE-SETTINGS (R181) -/

/-- SAVE_SETTINGS (R181): the working settings are copied and the write starts; the Record Handler is BUSY, the claimed place
is kept, and no reply is placed yet. -/
def execSaveSettings (num : Byte) (payload : List Byte) (s : State) : Out :=
  .next (request 0x07 num payload (ofLength 0 payload fun s =>
    (none, { s with handler.task := .saving num s.store.working })) s)

/-- The end of a settings write (R181). -/
def settingsWriteEnd (completed : Bool) (s : State) : State :=
  match s.handler.task with
  | .saving num copied =>
    let s := { s with handler.task := .idle }
    if completed then
      placeFrame (replyFrame 0x07 num .ok [])
        { s with store.stored := .written copied.storedBytes, store.unsaved := false }
    else
      placeFrame (replyFrame 0x07 num .storeFailed [])
        (raiseFlag .storeFailed { s with store.stored := .damaged })
  | _ => s

/-- SETTINGS_WRITE_END (R181); without a write in progress nothing happens (log entry 4). -/
def execSettingsWriteEnd (completed : Bool) (s : State) : Out := .next (event (settingsWriteEnd completed) s)

/-! ### SET-MODE (R182) -/

/-- Whether a cell is enabled in the working settings. -/
def Settings.anyEnabled (w : Settings) : Bool := w.cells.toList.any (·.enabled)

/-- SET-MODE on its mode byte (R182). -/
def actSetMode (payload : List Byte) (s : State) : Answer :=
  match Mode.ofCode (leNat payload) with
  | none => refuse .badValue s
  | some m =>
    if m ≠ .quiet ∧ s.store.working.siteCode = 0 then refuse .noSite s
    else if m ≠ .quiet ∧ ¬ s.store.working.anyEnabled then refuse .noCells s
    else okWith [m.code] { s with store.mode := m }

/-- SET_MODE (R182). -/
def execSetMode (num : Byte) (payload : List Byte) (s : State) : Out :=
  .next (request 0x04 num payload (ofLength 1 payload (actSetMode payload)) s)

end Sys2Proof.Machine
end

