-- ==== Sys2Proof/Machine/HostLine.lean ====
section
/-! DEFINITION. The Host Line Interface: the receiver (R161 to R164), the sending of flow-control bytes and frames (R167, R168),
and the line rate (R166). The line break is with the resets. -/

namespace Sys2Proof.Machine

/-! ### The receiver -/

/-- The partial frame discarded and the receiver in HUNT (R161). -/
def huntAgain (s : State) : State := { s with line.rx := .hunt, line.partials := [] }

/-- A frame discarded with FRAME_DROPPED set (R162, R163). -/
def dropFrame (s : State) : State := raiseFlag .frameDropped (huntAgain s)

/-- The check value tested when the two check bytes have been taken (R164). -/
def completeFrame (p : List Byte) (s : State) : State :=
  let checked := p.take (2 + leNat (p.take 2))
  let s := huntAgain s
  if p.drop checked.length = crcBytes checked then
    match Frame.ofBody (checked.drop 2) with
    | some f => offerFrame f s
    | none => s
  else raiseFlag .lineCheck s

/-- A good byte taken inside a frame (R161, R162); `p` is the partial frame with the byte. -/
def takeByte (p : List Byte) (s : State) : State :=
  let n := leNat (p.take 2)
  match s.line.rx with
  | .hunt => s
  | .length =>
    if p.length < 2 then { s with line.partials := p }
    else if n < 3 ∨ 1100 < n then dropFrame s
    else { s with line.rx := .body, line.partials := p }
  | .body => { s with line.rx := if p.length < 2 + n then .body else .check, line.partials := p }
  | .check => if p.length < 4 + n then { s with line.partials := p } else completeFrame p s

/-- A byte received on the host line (R161, R163). -/
def receiveByte (b : Byte) (faulty : Bool) (s : State) : State :=
  if s.line.rx = .hunt then
    if b = 0xC3 ∧ faulty = false then { s with line.rx := .length, line.partials := [] } else s
  else if faulty then dropFrame s
  else takeByte (s.line.partials ++ [b]) s

/-- HOST_BYTE_RECEIVED (R161). -/
def execHostByteReceived (b : Byte) (faulty : Bool) (s : State) : Out := .next (event (receiveByte b faulty) s)

/-- IDLE_GAP (R163): in HUNT there is no partial frame to discard. -/
def execIdleGap (s : State) : Out :=
  .next (event (fun s => if s.line.rx = .hunt then s else dropFrame s) s)

/-! ### Sending -/

/-- Whether a frame is the OK reply to a SET-LINE. -/
def isSetLineReply (f : Frame) : Bool := decide (f.kind = 0x89) && decide (f.status = 0)

/-- Whether a frame is the OK reply to a RESET. -/
def isResetReply (f : Frame) : Bool := decide (f.kind = 0x88) && decide (f.status = 0)

/-- How many SET-LINE replies wait in the outbound queue. -/
def State.setLineReplies (s : State) : Nat := s.line.outbound.countP isSetLineReply

/-- Whether a rate change is due: the reply to its SET-LINE has been sent (R166). -/
def State.rateChangeDue (s : State) : Bool := decide (s.setLineReplies < s.line.rateDue.length)

/-- Whether an accepted RESET is due to act: its reply has been sent (R184). -/
def State.resetDue (s : State) : Bool :=
  match s.handler.task with
  | .resetting _ => !s.line.outbound.any isResetReply
  | .idle | .saving _ _ => false

/-- Whether the line may send. A rate change and a reset come at the very moment their reply's last byte has been sent, so nothing
is sent between that byte and them: every frame and flow-control byte after it is at the new rate (R166, R184). -/
def State.lineFree (s : State) : Bool := !s.rateChangeDue && !s.resetDue

/-- Whether the flow-control byte that is due can be sent: its byte position is free, and the line may send (R166, R167). -/
def State.flowReady (s : State) : Bool := s.line.flowFree && s.lineFree

/-- A flow-control byte that is due sent in the free byte position (R167). -/
def sendFlow (b : Byte) (s : State) : State :=
  { s with line.flow := s.line.flow.sent, line.flowFree := false, line.lineOut := [b] }

/-- HOLD (R167, Table 9-1); no HOLD is sent unless one is due and can be sent (log entry 4). -/
def execHold (s : State) : Out :=
  .next (event (fun s => if s.line.flow = .holdDue ∧ s.flowReady = true then sendFlow 0x91 s else s) s)

/-- GO (R167, Table 9-1); no GO is sent unless one is due and can be sent (log entry 4). -/
def execGo (s : State) : Out :=
  .next (event (fun s => if s.line.flow = .goDue ∧ s.flowReady = true then sendFlow 0x92 s else s) s)

/-- The last byte of the frame at the head of the outbound queue has been sent, and its place is free (R168). A flow-control
byte then due has its position free. No frame is being sent while one that is due holds the free position, which goes ahead of
the next frame (R167), nor before a rate change or a reset that is due (R166, R184; log entry 4). -/
def frameSent (s : State) : State :=
  match s.line.outbound with
  | [] => s
  | f :: rest =>
    if (s.line.flow.due ∧ s.line.flowFree = true) ∨ s.lineFree = false then s
    else { s with line.outbound := rest, line.flowFree := s.line.flow.due, line.lineOut := f.bytes }

/-- OUTBOUND_FRAME_SENT (R168). -/
def execOutboundFrameSent (s : State) : Out := .next (event frameSent s)

/-- What is left of a queue after its first frame for which `p` holds, with that frame. -/
def afterFirst (p : Frame → Bool) : List Frame → Option (Frame × List Frame)
  | [] => none
  | f :: rest => if p f then some (f, rest) else afterFirst p rest

/-- Every frame up to and with the first for which `p` holds has been sent (log entry 10), and with them a flow-control byte that
goes ahead of one of them (R167); a byte due while that first frame was itself being sent finds its position free now. The
line took each rate whose SET-LINE reply went out ahead of that frame (R166). -/
def sendThrough (p : Frame → Bool) (s : State) : State :=
  match afterFirst p s.line.outbound with
  | none => s
  | some (f, rest) =>
    let waits := s.line.flow.due && !s.line.flowFree && s.line.outbound.head?.any p
    let taken := s.line.rateDue.length - (f :: rest).countP isSetLineReply
    { s with
      line.outbound := rest
      line.flow := if waits then s.line.flow else s.line.flow.sent
      line.flowFree := waits
      line.rate := (s.line.rateDue.take taken).getLastD s.line.rate
      line.rateDue := s.line.rateDue.drop taken
      line.lineOut := f.bytes }

/-! ### The line rate (R166) -/

/-- SET-LINE on its rate (R166): the line rate item takes the named rate, which the line itself takes when the reply has been
sent. -/
def actSetLine (payload : List Byte) (s : State) : Answer :=
  match LineRate.ofValue (leNat payload) with
  | none => refuse .badValue s
  | some r =>
    let s := putSettings { s.store.working with lineRate := r } s
    okWith (le 4 r.value) { s with line.rateDue := s.line.rateDue ++ [r] }

/-- SET_LINE (R166). -/
def execSetLine (num : Byte) (payload : List Byte) (s : State) : Out :=
  .next (request 0x09 num payload (ofLength 4 payload (actSetLine payload)) s)

/-- The line takes the rate of the oldest SET-LINE whose change is due; its reply has been sent at that moment (R166). -/
def changeRate (s : State) : State :=
  match s.line.rateDue with
  | [] => s
  | r :: rest =>
    let s := if rest.length < s.setLineReplies then sendThrough isSetLineReply s else s
    { s with line.rate := r, line.rateDue := rest }

/-- LINE_RATE_CHANGE (R166); without a change due nothing happens (log entry 4). -/
def execLineRateChange (s : State) : Out := .next (event changeRate s)

end Sys2Proof.Machine
end

