-- ==== Sys2Proof/Machine/Records.lean ====
section
/-! DEFINITION. The Record Handler's own requests and events: STATUS (R175), SET-NOTICES (R172), CLEAR-EVENTS (R171), the notices
(R173), the time-out of the OUTCOMES_READY latch (R174), and unknown kinds (R169). -/

namespace Sys2Proof.Machine

/-! ### STATUS -/

/-- The STATUS reply payload (Table 11-8). The line rate is the rate in force, which the line rate item of the settings leaves
behind while a SET-LINE reply is unsent (log entry 31). -/
def statusPayload (s : State) : List Byte :=
  le 3 s.air.beacon.toNat
    ++ [boolByte s.air.preset.isSome] ++ le 3 ((s.air.preset.map (·.toNat)).getD 0)
    ++ le 4 (s.air.clock.toNat / 1024) ++ [boolByte s.air.clockSet]
    ++ [s.store.mode.code]
    ++ [cellSet (s.store.working.cells.map (·.enabled))]
    ++ [cellSet s.cells.heads]
    ++ le 2 s.dir.entries.length ++ le 1 s.dir.strangers.length
    ++ le 2 s.table.records.length ++ le 2 s.table.retire.length ++ le 2 s.table.outcomes.length
    ++ le 2 s.pool.free
    ++ s.campaigns.toList.map (·.state.code)
    ++ le 2 s.handler.flags.toNat ++ le 2 s.store.working.enableMask.toNat
    ++ le 1 s.store.working.outcomeTrigger ++ [s.handler.latch.code]
    ++ le 4 s.line.rate.value ++ le 1 s.line.inbound.length

/-- STATUS (R175). -/
def execStatus (num : Byte) (payload : List Byte) (s : State) : Out :=
  .next (request 0x01 num payload (ofLength 0 payload fun s => okWith (statusPayload s) s) s)

/-! ### Event flags and notices -/

/-- SET-NOTICES on its mask and trigger (R172): bits that name no flag are 0, T_o is clamped to 1..64, and the new T_o is applied
at once to the latch (R174). -/
def actSetNotices (payload : List Byte) (s : State) : Answer :=
  let mask := BitVec.ofNat 12 (field 0 2 payload)
  let trigger := clamp 1 64 (field 2 1 payload)
  let s := putSettings { s.store.working with enableMask := mask, outcomeTrigger := trigger } s
  okWith (le 2 mask.toNat ++ le 1 trigger) (latchTrigger s)

/-- SET_NOTICES (R172). -/
def execSetNotices (num : Byte) (payload : List Byte) (s : State) : Out :=
  .next (request 0x0A num payload (ofLength 3 payload (actSetNotices payload)) s)

/-- CLEAR-EVENTS on its mask (R171). -/
def actClearEvents (payload : List Byte) (s : State) : Answer :=
  let s := { s with handler := s.handler.clear (BitVec.ofNat 12 (leNat payload)) }
  okWith (le 2 s.handler.flags.toNat) s

/-- CLEAR_EVENTS (R171). -/
def execClearEvents (num : Byte) (payload : List Byte) (s : State) : Out :=
  .next (request 0x0B num payload (ofLength 2 payload (actClearEvents payload)) s)

/-- The campaign summary of campaign `i` (Table 11-17). -/
def campaignSummary (i : CampaignIndex) (c : Campaign) : List Byte :=
  le 1 (i.val + 1)
    ++ le 4 ((c.activation.map (·.time.toNat)).getD 0) ++ le 3 ((c.activation.map (·.beacon.toNat)).getD 0)
    ++ [((c.activation.map (·.policy.code)).getD 0)]
    ++ le 4 c.admitted.toNat ++ c.tallies.toList.flatMap (fun t => le 4 t.toNat)
    ++ le 2 c.lateCount ++ le 2 c.staleCount ++ le 3 ((c.doneBeacon.map (·.toNat)).getD 0)

/-- The first waiting CAMPAIGN_DONE notice, lower campaign id first (R173). -/
def NoticeSet.firstDone (n : NoticeSet) : Option (CampaignIndex × Campaign) :=
  allFour.findSome? fun i => (n.campaignDone.get i).map fun c => (i, c)

/-- The notice that moves next, as a frame, and the notice set without it (R173, Table 11-20). -/
def nextNotice (s : State) : Option (Frame × NoticeSet) :=
  let n := s.handler.notices
  match n.event with
  | some e => some (noticeFrame 0xE0 (le 2 e.toNat ++ le 2 s.handler.flags.toNat), { n with event := none })
  | none =>
    match n.firstDone with
    | some (i, c) =>
      some (noticeFrame 0xE2 (campaignSummary i c), { n with campaignDone := n.campaignDone.set i none })
    | none =>
      if n.outcomesReady then
        some (noticeFrame 0xE1 (le 2 s.table.outcomes.length ++ le 2 s.table.retire.length),
          { n with outcomesReady := false })
      else if n.strangers then
        some (noticeFrame 0xE3 (le 1 s.dir.strangers.length), { n with strangers := false })
      else none

/-- One notice moved into the outbound queue, while at least two places are free (R168, R173). -/
def moveNotice (s : State) : State :=
  if 2 ≤ s.freePlaces then
    match nextNotice s with
    | none => s
    | some (f, n) => placeFrame f { s with handler.notices := n }
  else s

/-- NOTICE_MOVE (R173). -/
def execNoticeMove (s : State) : Out := .next (event moveNotice s)

/-- The time-out of the wait timer (R174): the latch ARMED, the outcome list not empty and below T_o. -/
def outcomesTimeout (s : State) : State :=
  if s.handler.latch = .armed ∧ s.table.outcomes ≠ [] ∧ s.table.outcomes.length < s.store.working.outcomeTrigger then
    placeOutcomesReady s
  else s

/-- OUTCOMES_READY_TIMEOUT (R174); without a running timer nothing happens (log entry 4). -/
def execOutcomesReadyTimeout (s : State) : Out := .next (event outcomesTimeout s)

/-- UNKNOWN_KIND (R169): answered with the body header alone. A kind of the catalogue is no such row (log entry 4). -/
def execUnknownKind (kind num : Byte) (payload : List Byte) (s : State) : Out :=
  .next (if knownKind kind then s else request kind num payload (refuse .unknownKind) s)

end Sys2Proof.Machine
end

