-- ==== Sys2Proof/Machine/Directory.lean ====
section
/-! DEFINITION. The Tag Directory's requests: ENROL (R24, R25), REMOVE (R26), SET-WAKE (R27, R28), LOCATE (R29), SET-ALLOWANCE
(R30), QUERY-TAG (R31) and LIST-STRANGERS (R41). -/

namespace Sys2Proof.Machine

/-! ### Enrolment and removal -/

/-- The lowest free position at or above `a`, among the next `n` (R25). -/
def firstFree (es : List Entry) : Nat → Nat → Option Nat
  | 0, _ => none
  | n + 1, a => if es.any fun e => decide (e.addr = a) then firstFree es n (a + 1) else some a

/-- A new UNSEEN entry (R25). -/
def newEntry (a : Nat) (id : TagId) (zone : Byte) (page : Fin 4) (w : WakeClass) (allowance : Nat) : Entry where
  addr := a
  tagId := id
  zone := zone
  pageClass := page
  state := .unseen
  home := none
  believed := w
  commanded := none
  boostEnd := none
  flash := false
  shown := none
  staged := none
  link := none
  battery := none
  allowance := allowance
  effective := allowance
  remaining := allowance
  misses := 0
  live := none

/-- A tag id that no tag may have (Table 0-2). -/
def invalidId (id : TagId) : Bool := decide (id = 0) || decide (id = 0xFFFFFFFF)

/-- An entry placed at its position, in rising order of short address. -/
def placeEntry (e : Entry) (s : State) : State :=
  { s with dir.entries := insertBy (fun p q => decide (p.addr < q.addr)) e s.dir.entries }

/-- A tag's stranger record removed (R25). -/
def dropStranger (id : TagId) (s : State) : State :=
  { s with dir.strangers := s.dir.strangers.filter fun x => decide (x.tagId ≠ id) }

/-- A tag's grant removed from every grant queue, those behind it moving up (R38). -/
def dropGrants (id : TagId) (s : State) : State :=
  { s with dir.grants := s.dir.grants.map fun l => l.filter fun g => decide (g.tagId ≠ id) }

/-- ENROL on its payload (R24, R25). -/
def actEnrol (payload : List Byte) (s : State) : Answer :=
  let id : TagId := BitVec.ofNat 32 (field 0 4 payload)
  let page := field 5 1 payload
  let given := field 7 2 payload
  let allowance := if given = 0xFFFF then s.store.working.defaultAllowance else given
  if hp : page < 4 then
    if invalidId id then refuse .badValue s
    else if (s.entryOf id).isSome then refuse .tagExists s
    else
      match firstFree s.dir.entries 16384 0 with
      | none => refuse .directoryFull s
      | some a =>
        okWith (le 2 a) (dropStranger id (placeEntry
          (newEntry a id (BitVec.ofNat 8 (field 4 1 payload)) ⟨page, hp⟩ (clampClass (field 6 1 payload)) allowance) s))
  else refuse .badValue s

/-- ENROL (R24, R25). -/
def execEnrol (num : Byte) (payload : List Byte) (s : State) : Out :=
  .next (request 0x0C num payload (ofLength 9 payload (actEnrol payload)) s)

/-- An entry deleted, with its calendar entry, its boost list entry and its grants (R26). -/
def deleteEntry (e : Entry) (s : State) : State :=
  let s := dropGrants e.tagId (dropBoost e.addr (dropCalendar e.addr s))
  { s with dir.entries := s.dir.entries.filter fun x => decide (x.addr ≠ e.addr) }

/-- REMOVE on its tag id (R26). -/
def actRemove (payload : List Byte) (s : State) : Answer :=
  match s.entryOf (BitVec.ofNat 32 (leNat payload)) with
  | none => refuse .noSuchTag s
  | some e =>
    match s.liveRecord e with
    | none => okWith [] (deleteEntry e s)
    | some r =>
      if r.state = .queued then okWith [] (deleteEntry e (finish r.serial .cancelled false s))
      else refuse .tagBusy s

/-- REMOVE (R26). -/
def execRemove (num : Byte) (payload : List Byte) (s : State) : Out :=
  .next (request 0x0D num payload (ofLength 4 payload (actRemove payload)) s)

/-! ### Orders -/

/-- The wake-class order of R27 on an entry: the class ordered, or none when it is the believed one. -/
def Entry.orderClass (w : WakeClass) (e : Entry) : Entry :=
  { e with commanded := if w = e.believed then none else some w }

/-- An entry changed by an order, the Call Planner told of it (R27, R29, R123). -/
def orderEntry (a : Nat) (f : Entry → Entry) (s : State) : State := workNotice a (updEntry a f s)

/-- SET-WAKE in its tag form (R27): the Call Planner is told whatever the class was (log entry 26). -/
def actSetWakeTag (payload : List Byte) (s : State) : Answer :=
  match s.entryOf (BitVec.ofNat 32 (field 1 4 payload)) with
  | none => refuse .noSuchTag s
  | some e => okWith [0, 0] (orderEntry e.addr (Entry.orderClass (clampClass (field 5 1 payload))) s)

/-- SET_WAKE_TAG (R27); a payload that names no form is refused BAD_VALUE (R28). A zone-form request is no such row
(log entry 21). -/
def execSetWakeTag (num : Byte) (payload : List Byte) (s : State) : Out :=
  .next (if namesWakeForm 1 payload then s
    else request 0x0E num payload (ofLength 6 payload fun s =>
      if payload.head? = some 0 then actSetWakeTag payload s else refuse .badValue s) s)

/-- Whether the wake-class order changes an entry's commanded class (R28). -/
def Entry.orderChanges (w : WakeClass) (e : Entry) : Bool := decide ((e.orderClass w).commanded ≠ e.commanded)

/-- SET-WAKE in its zone form (R28): the order on every entry of the zone, and a notice for each entry whose commanded class it
changes; the reply counts these. -/
def actSetWakeZone (payload : List Byte) (s : State) : Answer :=
  let w := clampClass (field 5 1 payload)
  let changed := s.dir.entries.filter fun e => decide (e.zone.toNat = field 1 1 payload) && e.orderChanges w
  okWith (le 2 changed.length) (changed.foldl (fun s e => orderEntry e.addr (Entry.orderClass w) s) s)

/-- SET_WAKE_ZONE (R28); a payload that names no form is refused BAD_VALUE. A tag-form request is no such row
(log entry 21). -/
def execSetWakeZone (num : Byte) (payload : List Byte) (s : State) : Out :=
  .next (if namesWakeForm 0 payload then s
    else request 0x0E num payload (ofLength 6 payload fun s =>
      if payload.head? = some 1 then actSetWakeZone payload s else refuse .badValue s) s)

/-- LOCATE on its tag id (R29): an order already pending changes nothing; one that comes to be pending is work gained (log
entry 26). -/
def actLocate (payload : List Byte) (s : State) : Answer :=
  match s.entryOf (BitVec.ofNat 32 (leNat payload)) with
  | none => refuse .noSuchTag s
  | some e => okWith [] (if e.flash then s else orderEntry e.addr (fun e => { e with flash := true }) s)

/-- LOCATE (R29). -/
def execLocate (num : Byte) (payload : List Byte) (s : State) : Out :=
  .next (request 0x10 num payload (ofLength 4 payload (actLocate payload)) s)

/-! ### Allowance -/

/-- An entry under a new allowance (R30): A takes it, and A_eff and R are lowered with it where they exceed it. -/
def Entry.withAllowance (a : Nat) (e : Entry) : Entry :=
  if a < e.effective then { e with allowance := a, effective := a, remaining := min e.remaining a }
  else { e with allowance := a }

/-- SET-ALLOWANCE on its payload (R30). -/
def actSetAllowance (payload : List Byte) (s : State) : Answer :=
  match s.entryOf (BitVec.ofNat 32 (field 0 4 payload)) with
  | none => refuse .noSuchTag s
  | some e =>
    let e' := e.withAllowance (field 4 2 payload)
    okWith (le 2 e'.allowance ++ le 2 e'.effective ++ le 2 e'.remaining)
      (updEntry e.addr (Entry.withAllowance (field 4 2 payload)) s)

/-- SET_ALLOWANCE (R30). -/
def execSetAllowance (num : Byte) (payload : List Byte) (s : State) : Out :=
  .next (request 0x0F num payload (ofLength 6 payload (actSetAllowance payload)) s)

/-! ### Queries -/

/-- The QUERY-TAG reply payload of an entry (Table 11-16). -/
def tagPayload (s : State) (e : Entry) : List Byte :=
  le 4 e.tagId.toNat ++ le 2 e.addr ++ [e.zone] ++ le 1 e.pageClass.val ++ [e.state.code]
    ++ optField 1 (e.home.map (·.val)) ++ le 1 e.believed.val ++ optField 1 (e.commanded.map (·.val))
    ++ optField 3 (e.boostEnd.map (·.toNat)) ++ [boolByte e.flash]
    ++ optField 2 (e.shown.map (·.toNat))
    ++ optField 2 (e.staged.map (·.serial.toNat)) ++ [((e.staged.map (·.condition.code)).getD 0)]
    ++ optField 1 (e.link.map (·.toNat)) ++ optField 1 (e.battery.map (·.val))
    ++ le 2 e.allowance ++ le 2 e.effective ++ le 2 e.remaining ++ le 1 e.misses
    ++ optField 2 (e.live.map (·.toNat)) ++ le 1 (linkTier e.link)
    ++ (match s.calendarOf e.addr with
      | none => [0, 0] ++ le 3 0
      | some (c, x) => [1] ++ le 1 c.val ++ le 3 x.due.toNat)
    ++ [boolByte (s.boostOf e.addr).isSome]

/-- QUERY_TAG (R31). -/
def execQueryTag (num : Byte) (payload : List Byte) (s : State) : Out :=
  .next (request 0x11 num payload (ofLength 4 payload fun s =>
    match s.entryOf (BitVec.ofNat 32 (leNat payload)) with
    | none => refuse .noSuchTag s
    | some e => okWith (tagPayload s e) s) s)

/-- A stranger record in a LIST-STRANGERS reply (Table 11-15). -/
def strangerBytes (x : Stranger) : List Byte :=
  le 4 x.tagId.toNat ++ le 1 x.cell.val ++ le 3 x.beacon.toNat ++ le 1 x.joins

/-- LIST_STRANGERS (R41): every record, least recently heard first, and the list emptied. -/
def execListStrangers (num : Byte) (payload : List Byte) (s : State) : Out :=
  .next (request 0x12 num payload (ofLength 0 payload fun s =>
    okWith (le 1 s.dir.strangers.length ++ s.dir.strangers.flatMap strangerBytes)
      { s with dir.strangers := [] }) s)

end Sys2Proof.Machine
end

