-- ==== Sys2Proof/Machine/ImageChecker.lean ====
section
/-! DEFINITION. The Image Checker: the field chain and its validation (R44 to R49), the derived unit price (R50, R51), and the
final image's blocks and checksum (R53, R54). It keeps nothing between requests (R55). -/

namespace Sys2Proof.Machine

/-- The sub-reasons of IMAGE_MALFORMED (Table 3-2, codes of Table 11-1). -/
inductive SubReason where
  | badHeader | badOffset | overrun | unknownType | fieldLength | duplicate | missingPrice | oldNotHigher
  | range | tooManyFields | unitPricePosted
deriving DecidableEq, Repr

/-- A sub-reason's code (Table 11-1). -/
def SubReason.code : SubReason → Byte
  | .badHeader => 1 | .badOffset => 2 | .overrun => 3 | .unknownType => 4 | .fieldLength => 5 | .duplicate => 6
  | .missingPrice => 7 | .oldNotHigher => 8 | .range => 9 | .tooManyFields => 10 | .unitPricePosted => 11

/-- A fault of an image: its sub-reason and the offset where it lies (R49). -/
structure ImageFault where
  reason : SubReason
  offset : Nat
deriving DecidableEq, Repr

/-- A field the walk has visited: its offset and its type (R45). -/
structure VisitedField where
  offset : Nat
  type   : Nat
deriving DecidableEq, Repr

/-- How often a type may appear in one image (Table 3-1). -/
def typeLimit (type : Nat) : Nat := if type = 0x05 then 4 else 1

/-- Whether a data length is the one Table 3-1 gives for the type. -/
def lengthFits (type len : Nat) : Bool :=
  match type with
  | 0x01 | 0x02 => decide (len = 6)
  | 0x03 => decide (len = 7)
  | 0x05 => decide (1 ≤ len) && decide (len ≤ 64)
  | 0x06 => decide (1 ≤ len) && decide (len ≤ 20)
  | 0x07 | 0x08 => decide (len = 1)
  | _ => false

/-- Whether the data of a field at offset `f` lies in its ranges (R47, test 8). -/
def dataInRange (img : List Byte) (type f : Nat) : Bool :=
  match type with
  | 0x01 | 0x02 => decide (field (f + 6) 4 img ≤ 9999999) && decide (field (f + 10) 1 img ≤ 3)
  | 0x03 =>
    decide (1 ≤ field (f + 6) 4 img) && decide (field (f + 6) 4 img ≤ 999999)
      && decide (1 ≤ field (f + 10) 1 img) && decide (field (f + 10) 1 img ≤ 4)
      && decide (1 ≤ field (f + 11) 2 img) && decide (field (f + 11) 2 img ≤ 1000)
  | 0x07 => decide (field (f + 6) 1 img ≤ 15)
  | 0x08 => decide (field (f + 6) 1 img ≤ 7)
  | _ => true

/-- The nine tests of R47 on the field at offset `f`, in order: the first that fails, or none. `seen` are the fields
visited before. -/
def fieldFault (img : List Byte) (seen : List VisitedField) (f : Nat) : Option SubReason :=
  let type := field f 1 img
  let len := field (f + 2) 2 img
  let next := field (f + 4) 2 img
  if img.length < f + 6 then some .overrun
  else if 16 ≤ seen.length then some .tooManyFields
  else if type = 0x04 then some .unitPricePosted
  else if type = 0 ∨ 8 < type then some .unknownType
  else if field (f + 1) 1 img ≠ 0 then some .badHeader
  else if typeLimit type ≤ seen.countP fun v => decide (v.type = type) then some .duplicate
  else if ¬ lengthFits type len then some .fieldLength
  else if img.length < f + 6 + len then some .overrun
  else if ¬ dataInRange img type f then some .range
  else if next ≠ 0 ∧ next < f + 6 + len then some .badOffset
  else none

/-- The walk of the field chain from offset `f` (R45, R47): the fields visited in order, or the first fault. A seventeenth
field is itself a fault, so seventeen visits are enough. -/
def walkFields (img : List Byte) : Nat → List VisitedField → Nat → Except ImageFault (List VisitedField)
  | 0, seen, _ => .ok seen
  | n + 1, seen, f =>
    match fieldFault img seen f with
    | some r => .error ⟨r, f⟩
    | none =>
      let seen := seen ++ [⟨f, field f 1 img⟩]
      let next := field (f + 4) 2 img
      if next = 0 then .ok seen else walkFields img n seen next

/-- The header tests of R44. -/
def headerFaulty (img : List Byte) : Bool :=
  decide (img.length < 10) || decide (1024 < img.length) || decide (field 0 1 img ≠ 1)
    || decide (field 1 1 img ≠ 0) || decide (field 2 2 img ≠ 4)

/-- The first visited field of a type. -/
def findField (type : Nat) (fs : List VisitedField) : Option Nat :=
  (fs.find? fun v => decide (v.type = type)).map (·.offset)

/-- Whether an OLD_PRICE at offset `o` is above the PRICE at offset `p` and comparable with it (R48, test 2). -/
def oldHigher (img : List Byte) (o p : Nat) : Bool :=
  decide (field (p + 6) 4 img < field (o + 6) 4 img) && decide (field (o + 10) 1 img = field (p + 10) 1 img)
    && decide (field (o + 11) 1 img = field (p + 11) 1 img)

/-- The tests on the image as a whole (R48), after a walk that visited `fs`. -/
def wholeFault (img : List Byte) (fs : List VisitedField) : Option ImageFault :=
  match findField 0x01 fs with
  | none => some ⟨.missingPrice, 0⟩
  | some p =>
    match (findField 0x02 fs).filter fun o => !oldHigher img o p with
    | some o => some ⟨.oldNotHigher, o⟩
    | none =>
      match findField 0x03 fs with
      | some u => if 16 ≤ fs.length then some ⟨.tooManyFields, u⟩ else none
      | none => none

/-- A posted image's validation (R44, R47, R48): the fields of a valid image, or its first fault. -/
def checkImage (img : List Byte) : Except ImageFault (List VisitedField) :=
  if headerFaulty img then .error ⟨.badHeader, 0⟩
  else
    match walkFields img 17 [] 4 with
    | .error e => .error e
    | .ok fs =>
      match wholeFault img fs with
      | some e => .error e
      | none => .ok fs

/-- The unit price amount from the price amount, pack quantity and basis, before the limit (R50). -/
def unitPriceExact (p q bq : Nat) : Nat := (2 * p * bq + q) / (2 * q)

/-- A derived unit price: amount, unit, basis and whether it is clamped (R50). -/
structure UnitPrice where
  amount  : Nat
  unit    : Nat
  basis   : Nat
  clamped : Bool
deriving DecidableEq, Repr

/-- The unit price of an image with a PRICE at offset `p` and a UNIT_BASIS at offset `u` (R50). -/
def unitPriceOf (img : List Byte) (p u : Nat) : UnitPrice :=
  let exact := unitPriceExact (field (p + 6) 4 img) (field (u + 6) 4 img) (field (u + 11) 2 img)
  { amount := min exact 9999999
    unit := field (u + 10) 1 img
    basis := field (u + 11) 2 img
    clamped := decide (9999999 < exact) }

/-- The UNIT_PRICE field the part appends (R51, Table 11-14). -/
def unitPriceField (x : UnitPrice) : List Byte :=
  [0x04, 0] ++ le 2 8 ++ le 2 0 ++ le 4 x.amount ++ le 1 x.unit ++ le 2 x.basis ++ [boolByte x.clamped]

/-- A final image: its bytes and its derived unit price, if it has one (R51, R55). -/
structure FinalImage where
  bytes     : List Byte
  unitPrice : Option UnitPrice
deriving DecidableEq, Repr

/-- The final image of a valid image that visited `fs` (R51): with a UNIT_BASIS, the derived field is appended and the last
field of the walk names it. -/
def finalOf (img : List Byte) (fs : List VisitedField) : FinalImage :=
  match findField 0x01 fs, findField 0x03 fs, fs.getLast? with
  | some p, some u, some last =>
    let x := unitPriceOf img p u
    ⟨overwrite (last.offset + 4) (le 2 img.length) img ++ unitPriceField x, some x⟩
  | _, _, _ => ⟨img, none⟩

/-- The Image Checker's result on a posted image (R55), before the page capacity test. -/
def imageResult (img : List Byte) : Except ImageFault FinalImage :=
  match checkImage img with
  | .error e => .error e
  | .ok fs => .ok (finalOf img fs)

/-- The page capacity of a page class in bytes (R52). -/
def pageCapacity (c : Fin 4) : Nat := 128 * 2 ^ c.val

/-- The number of blocks of a final image of `n` bytes (R53). -/
def blockCountOf (n : Nat) : Nat := (n + 31) / 32

/-- Bytes filled out with zero bytes to length `n` (R53). -/
def padTo (n : Nat) (bs : List Byte) : List Byte := bs ++ List.replicate (n - bs.length) 0

/-- The first `n` blocks of 32 bytes (R53). -/
def cutBlocks : Nat → List Byte → List (List Byte)
  | 0, _ => []
  | n + 1, bs => bs.take 32 :: cutBlocks n (bs.drop 32)

/-- A final image's blocks, the last filled out with zero bytes (R53). -/
def blocksOfImage (img : List Byte) : List (List Byte) :=
  let n := blockCountOf img.length
  cutBlocks n (padTo (32 * n) img)

/-- The image checksum: the check value of all blocks in order (R54). -/
def imageChecksum (blocks : List (List Byte)) : BitVec 16 := crc16 blocks.flatten

end Sys2Proof.Machine
end

