-- ==== Sys2Proof/Machine/ChangeTable.lean ====
section
/-! DEFINITION. The Change Table: admission (R64 to R72), cancellation (R80), the progress a report brings (R74 to R79), and the
requests QUERY-CHANGE (R85) and FETCH-OUTCOMES (R84). -/

namespace Sys2Proof.Machine

/-! ### Admission -/

/-- Whether a candidate serial is passed over for an entry (R64). -/
def serialTaken (s : State) (e : Entry) (k : Serial) : Bool :=
  decide (k = 0) || s.table.records.any (fun r => decide (r.serial = k))
    || decide (e.shown = some k) || decide (e.staged.map (·.serial) = some k)

/-- The first candidate from `k` on that is not passed over; the search ends within 4,100 candidates (R64). -/
def findSerial (s : State) (e : Entry) : Nat → Serial → Serial
  | 0, k => k
  | n + 1, k => if serialTaken s e k then findSerial s e n (k + 1) else k

/-- The live-change test of admission (R67): a refusal, or the live change that the admission supersedes, if any. A live
change VERIFYING in the request's campaign cannot be met after test 2 (log entry 16). -/
def liveChangeTest (live : Option Change) (campaign : Option CampaignIndex) : Except ResultCode (Option Change) :=
  match live with
  | none => .ok none
  | some r =>
    if r.campaign ≠ campaign then .error .conflict
    else
      match r.state with
      | .queued | .sending | .staged => .ok (some r)
      | .withdrawing | .verifying | .finished => .error .tagBusy

/-- The displaced version a new record is given by what it supersedes (R71). -/
def displacedBy : Option Change → Option Serial
  | none => none
  | some r => if r.state = .staged then some r.serial else r.displaced

/-- The table room test (R68). -/
def tableHasRoom (s : State) (superseded : Option Change) : Bool :=
  decide (s.table.records.length < 4096)
    || (superseded.isSome && decide (s.table.retire = []) && decide (s.table.outcomes.length < 1024))

/-- The pool room test (R57). -/
def poolHasRoom (s : State) (superseded : Option Change) (n : Nat) : Bool :=
  decide (n ≤ s.pool.free + ((superseded.map fun r => s.pool.heldBy r.serial).getD 0))

/-- A new record as admission sets it (Table 4-1). -/
def newChange (s : State) (e : Entry) (campaign : Option CampaignIndex) (blocks : List (List Byte))
    (superseded : Option Change) : Change where
  serial := findSerial s e 4100 s.table.nextSerial
  sequence := s.table.nextSequence
  addr := e.addr
  tagId := e.tagId
  campaign := campaign
  blockCount := blocks.length
  checksum := imageChecksum blocks
  acked := 0
  state := .queued
  late := false
  staleCut := false
  displaced := displacedBy superseded
  failures := 0
  calls := 0
  spent := 0
  outcome := none
  finalBeacon := none

/-- POOL_LOW set by an admission that took the free count from `before`, 1,024 or more, to below 1,024 (R60). -/
def poolLowTest (before : Nat) (s : State) : State :=
  if s.pool.free < 1024 ∧ 1024 ≤ before then raiseFlag .poolLow s else s

/-- The effects of an admission in their order (R69, steps 1 to 6). -/
def takeChange (e : Entry) (new : Change) (blocks : List (List Byte)) (superseded : Option Change) (s : State) : State :=
  let before := s.pool.free
  let s := { s with table.nextSerial := new.serial + 1, table.nextSequence := s.table.nextSequence + 1 }
  let s := match superseded with
    | some r => finish r.serial .superseded true s
    | none => s
  let s := { s with
    table.records := s.table.records ++ [new]
    pool := s.pool.take new.serial blocks }
  let s := poolLowTest before s
  let s := updEntry e.addr (fun e => { e with live := some new.serial }) s
  let s := updCampaign new.campaign (fun c => { c with admitted := c.admitted + 1, live := c.live + 1 }) s
  workNotice e.addr s

/-! ### The reply of POST-CHANGE (Table 11-6) -/

/-- The projected completion beacon from `b0` (R72, R129). -/
def projectedCompletion (b0 : Beacon) (blocks perSlot : Nat) (w : WakeClass) : Beacon :=
  b0 + BitVec.ofInt 24 (((((blocks + perSlot - 1) / perSlot : Nat) : Int) - 1) * (interval w : Int))

/-- The projection for a PRESENT entry (R72): the projected completion beacon and AT_RISK. -/
def projection (s : State) (e : Entry) (n : Nat) (campaign : Option CampaignIndex) : Option (Beacon × Bool) :=
  match e.state, e.home with
  | .present, some h =>
    let done := projectedCompletion (s.classDue e h) n (tierBlocks e.link) e.believed
    let atRisk := match campaign.bind s.activationBeacon with
      | some act => decide (beaconDiff (act - BitVec.ofNat 24 s.store.working.guardBeacons) done < 0)
      | none => false
    some (done, atRisk)
  | _, _ => none

/-- The fields of a POST-CHANGE reply; a field that does not apply is left at its value here and sent as 0. -/
structure PostReply where
  serial     : Serial := 0
  blockCount : Nat := 0
  superseded : Serial := 0
  unitPrice  : Option UnitPrice := none
  projection : Option (Beacon × Bool) := none
  subReason  : Byte := 0
  offset     : Nat := 0
  finalSize  : Nat := 0
  poolFree   : Nat := 0
deriving DecidableEq, Repr

/-- The 23 bytes of a POST-CHANGE reply payload (Table 11-6). -/
def PostReply.bytes (p : PostReply) : List Byte :=
  le 2 p.serial.toNat ++ le 1 p.blockCount ++ le 2 p.superseded.toNat
    ++ optField 4 (p.unitPrice.map (·.amount)) ++ [boolByte ((p.unitPrice.map (·.clamped)).getD false)]
    ++ optField 3 (p.projection.map (·.1.toNat)) ++ [boolByte ((p.projection.map (·.2)).getD false)]
    ++ [p.subReason] ++ le 2 p.offset ++ le 2 p.finalSize ++ le 2 p.poolFree

/-- A POST-CHANGE reply with its 23-byte payload (R189). -/
def postAnswer (code : ResultCode) (p : PostReply) (s : State) : Answer := (some (code, p.bytes), s)

/-- The campaign a number 0..4 names: none for 0, the entry's index for 1..4 (R66). -/
def campaignOfNumber (n : Nat) : Option (Option CampaignIndex) :=
  if n = 0 then some none
  else if h : n ≤ 4 then some (some ⟨n - 1, by omega⟩)
  else none

/-- Tests 5 to 7 of admission (R66) and the admission itself, for a final image that fits the page. -/
def admitFinal (e : Entry) (campaign : Option CampaignIndex) (img : FinalImage) (s : State) : Answer :=
  let live := s.liveRecord e
  let refusal : PostReply := { unitPrice := img.unitPrice }
  match liveChangeTest live campaign with
  | .error code => postAnswer code refusal s
  | .ok superseded =>
    let blocks := blocksOfImage img.bytes
    if ¬ tableHasRoom s superseded then postAnswer .tableFull refusal s
    else if ¬ poolHasRoom s superseded blocks.length then
      postAnswer .poolFull { refusal with poolFree := s.pool.free } s
    else
      let new := newChange s e campaign blocks superseded
      postAnswer .ok
        { refusal with
          serial := new.serial
          blockCount := blocks.length
          superseded := (superseded.map (·.serial)).getD 0
          projection := projection s e blocks.length campaign }
        (takeChange e new blocks superseded s)

/-- Tests 1 to 4 of admission (R66). -/
def postChange (id : TagId) (campaignNumber : Nat) (img : List Byte) (s : State) : Answer :=
  match s.entryOf id with
  | none => postAnswer .noSuchTag {} s
  | some e =>
    match campaignOfNumber campaignNumber with
    | none => postAnswer .noSuchCampaign {} s
    | some campaign =>
      if campaign.any fun i => decide ((s.campaigns.get i).state ≠ .opened) then postAnswer .campaignState {} s
      else
        match imageResult img with
        | .error f => postAnswer .imageMalformed { subReason := f.reason.code, offset := f.offset } s
        | .ok final =>
          if pageCapacity e.pageClass < final.bytes.length then
            postAnswer .pageTooSmall { unitPrice := final.unitPrice, finalSize := final.bytes.length } s
          else admitFinal e campaign final s

/-- POST-CHANGE on its payload (Table 11-5); the image size it states gives the required length (R186). -/
def actPostChange (payload : List Byte) (s : State) : Answer :=
  if 8 ≤ payload.length ∧ payload.length = 8 + field 6 2 payload then
    postChange (BitVec.ofNat 32 (field 0 4 payload)) (field 4 1 payload) (payload.drop 8) s
  else refuse .badLength s

/-- POST_CHANGE (R66). -/
def execPostChange (num : Byte) (payload : List Byte) (s : State) : Out :=
  .next (request 0x17 num payload (actPostChange payload) s)

/-! ### Cancellation -/

/-- CANCEL-CHANGE on its serial (Table 4-4). -/
def actCancelChange (payload : List Byte) (s : State) : Answer :=
  let k : Serial := BitVec.ofNat 16 (leNat payload)
  match s.recordOf k with
  | none => refuse .noSuchChange s
  | some r =>
    match r.state with
    | .queued | .sending => okWith [ChangeState.finished.code] (finish k .cancelled false s)
    | .staged =>
      okWith [ChangeState.withdrawing.code]
        (workNotice r.addr (updRecord k (fun r => { r with state := .withdrawing }) s))
    | .withdrawing => refuse .already s
    | .verifying => refuse .tooLate s
    | .finished => refuse .noSuchChange s

/-- CANCEL_CHANGE (R80). -/
def execCancelChange (num : Byte) (payload : List Byte) (s : State) : Out :=
  .next (request 0x18 num payload (ofLength 2 payload (actCancelChange payload)) s)

/-! ### Reports (R74 to R79) -/

/-- A record's state moved by `f`, the Call Planner told when it moved between work and no work (R63). -/
def moveRecord (k : Serial) (f : Change → Change) (s : State) : State :=
  match s.recordOf k with
  | none => s
  | some r =>
    let s := updRecord k f s
    if (f r).state.isWork = r.state.isWork then s else workNotice r.addr s

/-- R76: a report shows the record's serial staged BAD. -/
def badReport (r : Change) (s : State) : State :=
  let s := updRecord r.serial (fun r => { r with displaced := none, acked := 0, failures := r.failures + 1 }) s
  if 2 ≤ r.failures + 1 then finish r.serial .failedCorrupt false s
  else if r.state = .verifying then moveRecord r.serial (fun r => { r with state := .queued, late := true }) s
  else moveRecord r.serial (fun r => { r with state := .sending }) s

/-- Whether a record's campaign is still OPEN (R75, case 3). -/
def State.campaignOpen (s : State) (r : Change) : Bool :=
  r.campaign.any fun i => decide ((s.campaigns.get i).state = .opened)

/-- R75: a report for a record in SENDING or QUEUED. -/
def reportDelivery (r : Change) (p : Report) (s : State) : State :=
  if p.shown = r.serial then finish r.serial (if r.late then .appliedLate else .applied) false s
  else if p.staged.serial = r.serial then
    match p.staged.condition with
    | .bad => badReport r s
    | .complete =>
      let st := if s.campaignOpen r then ChangeState.staged else .sending
      moveRecord r.serial (fun r => { r with acked := r.blockCount, displaced := none, state := st }) s
    | .partly | .nil =>
      moveRecord r.serial (fun r => { r with
        acked := min p.nextBlock r.blockCount, displaced := none, state := .sending }) s
  else moveRecord r.serial (fun r => { r with acked := 0, state := .sending }) s

/-- R77: a report for a record in STAGED. -/
def reportStaged (r : Change) (p : Report) (s : State) : State :=
  if p.staged.serial = r.serial ∧ p.staged.condition = .complete then s
  else if p.staged.serial = r.serial ∧ p.staged.condition = .bad then badReport r s
  else moveRecord r.serial (fun r => { r with acked := 0, state := .queued }) s

/-- R78: a report for a record in VERIFYING. -/
def reportVerifying (r : Change) (p : Report) (s : State) : State :=
  if p.shown = r.serial then finish r.serial .applied false s
  else if p.staged.serial = r.serial ∧ p.staged.condition = .complete then s
  else if p.staged.serial = r.serial ∧ p.staged.condition = .bad then badReport r s
  else moveRecord r.serial (fun r => { r with acked := 0, state := .queued, late := true }) s

/-- R79: a report for a record in WITHDRAWING. -/
def reportWithdrawing (r : Change) (p : Report) (s : State) : State :=
  if p.staged.serial = r.serial then s else finish r.serial .withdrawn false s

/-- The Change Table's turn on a decoded report (R74): it acts when the snapshot's serial is nonzero and names the entry's live
change; a staged version equal to the serial clears the displaced version (R71). -/
def changeReport (a : Nat) (snapSerial : Serial) (p : Report) (s : State) : State :=
  match s.entryAt a with
  | none => s
  | some e =>
    if snapSerial ≠ 0 ∧ e.live = some snapSerial then
      match s.recordOf snapSerial with
      | none => s
      | some r =>
        let s := if p.staged.serial = snapSerial then
          updRecord snapSerial (fun r => { r with displaced := none }) s else s
        match r.state with
        | .sending | .queued => reportDelivery r p s
        | .staged => reportStaged r p s
        | .verifying => reportVerifying r p s
        | .withdrawing => reportWithdrawing r p s
        | .finished => s
    else s

/-! ### Queries and outcomes -/

/-- A campaign's number, 0..4. -/
def campaignNumber (i : Option CampaignIndex) : Nat := (i.map fun i => i.val + 1).getD 0

/-- A record's place in the retire queue, the head being 0 (R85). -/
def retirePlace (s : State) (r : Change) : Option Nat :=
  if r.state = .finished then s.table.retire.findIdx? fun k => decide (k = r.serial) else none

/-- The QUERY-CHANGE reply payload (Table 11-19). -/
def changePayload (s : State) (r : Change) : List Byte :=
  le 2 r.serial.toNat ++ le 4 r.sequence.toNat ++ le 2 r.addr ++ le 4 r.tagId.toNat
    ++ le 1 (campaignNumber r.campaign) ++ le 1 r.blockCount ++ le 2 r.checksum.toNat ++ le 1 r.acked
    ++ [r.state.code, marksByte r.late r.staleCut] ++ optField 2 (r.displaced.map (·.toNat))
    ++ le 1 r.failures ++ le 1 r.calls ++ le 2 r.spent
    ++ optField 1 (r.outcome.map (·.code.toNat)) ++ optField 3 (r.finalBeacon.map (·.toNat))
    ++ optField 2 (retirePlace s r)

/-- QUERY_CHANGE (R85). -/
def execQueryChange (num : Byte) (payload : List Byte) (s : State) : Out :=
  .next (request 0x19 num payload (ofLength 2 payload fun s =>
    match s.recordOf (BitVec.ofNat 16 (leNat payload)) with
    | none => refuse .noSuchChange s
    | some r => okWith (changePayload s r) s) s)

/-- An outcome record's 15 bytes (Table 11-7). -/
def OutcomeRecord.bytes (o : OutcomeRecord) : List Byte :=
  le 2 o.serial.toNat ++ le 4 o.tagId.toNat ++ le 1 (campaignNumber o.campaign)
    ++ [o.code.code, marksByte o.late o.staleCut] ++ le 3 o.finalBeacon.toNat ++ le 1 o.calls ++ le 2 o.spent

/-- The latch after a FETCH-OUTCOMES (R174): ARMED again when the count left is below T_o, and the timer starts afresh when the
latch is ARMED. -/
def fetchLatch (s : State) : State :=
  if s.table.outcomes.length < s.store.working.outcomeTrigger then
    { s with handler.latch := .armed, handler.timer := 0 }
  else if s.handler.latch = .armed then { s with handler.timer := 0 }
  else s

/-- FETCH-OUTCOMES (R84): up to 16 of the oldest outcome records leave the list, and records move in behind them. -/
def actFetchOutcomes (s : State) : Answer :=
  let out := s.table.outcomes.take 16
  let s := passAll { s with table.outcomes := s.table.outcomes.drop 16 }
  okWith (le 1 out.length ++ out.flatMap OutcomeRecord.bytes) (fetchLatch s)

/-- FETCH_OUTCOMES (R84). -/
def execFetchOutcomes (num : Byte) (payload : List Byte) (s : State) : Out :=
  .next (request 0x1A num payload (ofLength 0 payload actFetchOutcomes) s)

end Sys2Proof.Machine
end

