-- ==== Sys2Proof/Machine/Campaigns.lean ====
section
/-! DEFINITION. The Campaign Table: OPEN-CAMPAIGN and its activation beacon (R89 to R91), RELEASE-CAMPAIGN (R105),
QUERY-CAMPAIGN (R106), and the cut (R95 to R97). -/

namespace Sys2Proof.Machine

/-- The ticks elapsed in the current beacon (R1). -/
def AirTimer.elapsed (t : AirTimer) : Nat := t.geometry.period - 1 - t.counter

/-- The start tick t_B of the current beacon, a signed tick count (R9). -/
def AirTimer.startTick (t : AirTimer) : Int := (t.clock.toNat : Int) - (t.elapsed : Int)

/-- The campaign index a campaign id 1..4 names. -/
def campaignIndex (id : Nat) : Option CampaignIndex := if h : 1 ≤ id ∧ id ≤ 4 then some ⟨id - 1, by omega⟩ else none

/-! ### Opening a campaign -/

/-- The beacon distance d to an activation time of `tau` ticks (R90), for a tau after t_B: `tB` is the start tick of the current
beacon, `lf` the period in force, `l` the period of every later beacon. -/
def beaconDistance (tB : Int) (lf l : Nat) (tau : Int) : Nat :=
  let t1 := tB + lf
  if tau ≤ t1 then 1 else 1 + ((tau - t1).toNat + l - 1) / l

/-- The lead in ticks: the start of beacon E less tau (R90). -/
def leadTicks (tB : Int) (lf l : Nat) (tau : Int) (d : Nat) : Nat :=
  (tB + lf + ((d - 1) * l : Nat) - tau).toNat

/-- The entry of a campaign just opened (R91). -/
def openedEntry (time : BitVec 32) (e : Beacon) (policy : LatePolicy) : Campaign :=
  { Campaign.freeEntry with state := .opened, activation := some ⟨time, e, policy⟩ }

/-- OPEN-CAMPAIGN on its payload (R89 to R91). -/
def actOpenCampaign (payload : List Byte) (s : State) : Answer :=
  let time : BitVec 32 := BitVec.ofNat 32 (field 1 4 payload)
  match campaignIndex (field 0 1 payload) with
  | none => refuse .noSuchCampaign s
  | some i =>
    match LatePolicy.ofCode (field 5 1 payload) with
    | none => refuse .badValue s
    | some policy =>
      if (s.campaigns.get i).state ≠ .free then refuse .campaignState s
      else if s.air.clockSet = false then refuse .clockUnset s
      else
        let tB := s.air.startTick
        let tau : Int := (time.toNat * 1024 : Nat)
        let lf := s.air.geometry.period
        let l := s.store.working.period
        if tau ≤ tB then refuse .activationPast s
        else
          let d := beaconDistance tB lf l tau
          if 4194304 < d then refuse .activationFar s
          else
            let e := s.air.beacon + BitVec.ofNat 24 d
            okWith (le 3 e.toNat ++ le 3 d ++ le 2 (leadTicks tB lf l tau d))
              { s with campaigns := s.campaigns.set i (openedEntry time e policy) }

/-- OPEN_CAMPAIGN (R89). -/
def execOpenCampaign (num : Byte) (payload : List Byte) (s : State) : Out :=
  .next (request 0x14 num payload (ofLength 6 payload (actOpenCampaign payload)) s)

/-! ### Release and query -/

/-- RELEASE-CAMPAIGN on its id (R105). -/
def actReleaseCampaign (payload : List Byte) (s : State) : Answer :=
  match campaignIndex (leNat payload) with
  | none => refuse .noSuchCampaign s
  | some i =>
    let c := s.campaigns.get i
    if c.state = .done then
      okWith (campaignSummary i c) { s with
        campaigns := s.campaigns.set i Campaign.freeEntry
        handler.notices.campaignDone := s.handler.notices.campaignDone.set i none }
    else refuse .campaignState s

/-- RELEASE_CAMPAIGN (R105). -/
def execReleaseCampaign (num : Byte) (payload : List Byte) (s : State) : Out :=
  .next (request 0x16 num payload (ofLength 1 payload (actReleaseCampaign payload)) s)

/-- How many of a campaign's records in the table are in a state (R106). -/
def State.countRecords (s : State) (i : CampaignIndex) (st : ChangeState) : Nat :=
  s.table.records.countP fun r => decide (r.campaign = some i) && decide (r.state = st)

/-- The figures of an OPEN or CUT campaign in a QUERY-CAMPAIGN reply (Table 11-18). -/
def campaignFigures (s : State) (i : CampaignIndex) (c : Campaign) : List Byte :=
  if c.state = .opened ∨ c.state = .cut then
    [1] ++ le 3 (((c.activation.map (·.beacon)).getD 0) - s.air.beacon).toNat
      ++ [ChangeState.queued, .sending, .staged, .withdrawing, .verifying].flatMap (fun st =>
        le 2 (s.countRecords i st))
      ++ le 2 (s.countRecords i .finished)
  else List.replicate 16 0

/-- The QUERY-CAMPAIGN reply payload (Table 11-18). -/
def campaignPayload (s : State) (i : CampaignIndex) : List Byte :=
  let c := s.campaigns.get i
  le 1 (i.val + 1) ++ [c.state.code]
    ++ [boolByte c.activation.isSome] ++ le 4 ((c.activation.map (·.time.toNat)).getD 0)
    ++ le 3 ((c.activation.map (·.beacon.toNat)).getD 0) ++ [((c.activation.map (·.policy.code)).getD 0)]
    ++ le 4 c.admitted.toNat ++ le 2 c.live ++ c.tallies.toList.flatMap (fun t => le 4 t.toNat)
    ++ le 2 c.lateCount ++ le 2 c.staleCount ++ optField 3 (c.doneBeacon.map (·.toNat))
    ++ campaignFigures s i c

/-- QUERY_CAMPAIGN (R106). -/
def execQueryCampaign (num : Byte) (payload : List Byte) (s : State) : Out :=
  .next (request 0x15 num payload (ofLength 1 payload fun s =>
    match campaignIndex (leNat payload) with
    | none => refuse .noSuchCampaign s
    | some i => okWith (campaignPayload s i) s) s)

/-! ### The cut (R95 to R97) -/

/-- A QUEUED or SENDING record at the cut (R95, R96): a displaced version still set marks it STALE_CUT; then under APPLY it is
marked LATE, and under DROP it finishes DROPPED_LATE. -/
def cutDelivery (i : CampaignIndex) (policy : LatePolicy) (r : Change) (s : State) : State :=
  let s := if r.displaced.isSome then
      raiseFlag .staleCut (updCampaign (some i) (fun c => { c with staleCount := c.staleCount + 1 })
        (updRecord r.serial (fun r => { r with staleCut := true }) s))
    else s
  match policy with
  | .apply =>
    updCampaign (some i) (fun c => { c with lateCount := c.lateCount + 1 })
      (updRecord r.serial (fun r => { r with late := true }) s)
  | .drop => finish r.serial .droppedLate false s

/-- One record of a campaign at its cut (Table 5-5). -/
def cutRecord (i : CampaignIndex) (policy : LatePolicy) (k : Serial) (s : State) : State :=
  match s.recordOf k with
  | none => s
  | some r =>
    match r.state with
    | .queued | .sending => cutDelivery i policy r s
    | .staged => moveRecord k (fun r => { r with state := .verifying }) s
    | .withdrawing => finish k .cancelTooLate false s
    | .verifying | .finished => s

/-- The serials of a campaign's records in the order of their admission sequences, earliest first (R65, R97). -/
def campaignSerials (i : CampaignIndex) (s : State) : List Serial :=
  (sortBy (fun a b => sequenceBefore s.table.nextSequence (a.sequence, a.addr) (b.sequence, b.addr))
    (s.table.records.filter fun r => decide (r.campaign = some i))).map (·.serial)

/-- The cut of a campaign (R95 to R97): its records in admission order, then CUT, then done detection (R103). -/
def cutCampaign (i : CampaignIndex) (s : State) : State :=
  match (s.campaigns.get i).activation with
  | none => s
  | some a =>
    let s := (campaignSerials i s).foldl (fun s k => cutRecord i a.policy k s) s
    doneCheck i (updCampaign (some i) (fun c => { c with state := .cut }) s)

/-- The OPEN campaigns whose E is the current beacon (R95). -/
def dueCuts (s : State) : List CampaignIndex :=
  allFour.filter fun i =>
    decide ((s.campaigns.get i).state = .opened) && decide (s.activationBeacon i = some s.air.beacon)

/-- The cuts of a beacon start. Which of two campaigns with one E is cut first the spec leaves open (R97): a free value says
(log entry 6). -/
def takeCuts (s : State) : State :=
  let due := dueCuts s
  let s' := (freeOrder 4 s.freeIndex due).foldl (fun s i => cutCampaign i s) s
  if due.length ≤ 1 then s' else { s' with freeIndex := s.freeIndex + due.length }

end Sys2Proof.Machine
end

