-- ==== Sys2Proof/Machine/Budget.lean ====
section
/-! DEFINITION. The Budget Unit: thresholds and blocks per slot (R109 to R111), debits (R112, R115), the boost cost (R114), and the
refresh (R116 to R119). -/

namespace Sys2Proof.Machine

/-! ### Calls -/

/-- Whether a tag's call is a delivery call: its live change is QUEUED or SENDING with blocks left (R109). -/
def State.deliveryCall (s : State) (e : Entry) : Bool :=
  match s.liveRecord e with
  | some r => (decide (r.state = .queued) || decide (r.state = .sending)) && decide (r.acked < r.blockCount)
  | none => false

/-- The threshold of a call: the delivery call minimum, or call cost + report cost (R109). -/
def Settings.threshold (w : Settings) (delivery : Bool) : Nat :=
  if delivery then w.callCost + w.blockCost + w.reportCost else w.callCost + w.reportCost

/-- The most blocks a slot carries in a mode (Table 6-3). -/
def modeCap : Mode → Nat
  | .night => 8
  | .day => 2
  | .quiet => 0

/-- The blocks k of a delivery call (R111): the smallest of tier, blocks left, mode cap and charge; a block cost of 0 drops the
charge limit. -/
def slotBlocks (w : Settings) (m : Mode) (e : Entry) (left boostCost : Nat) : Nat :=
  let k := min (min (tierBlocks e.link) left) (modeCap m)
  if w.blockCost = 0 then k
  else min k ((e.remaining - w.callCost - w.reportCost - boostCost) / w.blockCost)

/-- A call's planned cost with `k` blocks (R112). -/
def plannedCost (w : Settings) (k : Nat) : Nat := w.callCost + k * w.blockCost + w.reportCost

/-- The boost cost of a boost confirmed at beacon `bc` with boost end `u` (R114). -/
def boostCost (bc u : Beacon) (w : WakeClass) (id : TagId) (perWake : Nat) : Nat :=
  let d := (beaconDiff u bc).toNat
  (d - wakesWithin w id bc d) * perWake

/-- A cost debited from a tag's remaining charge, which stops at 0, and added to the charge spent of its live change, if it has
one, which stops at 65,535 (R112, R115). -/
def debit (a cost : Nat) (s : State) : State :=
  let live := (s.entryAt a).bind s.liveRecord
  let s := updEntry a (fun e => { e with remaining := e.remaining - cost }) s
  match live with
  | none => s
  | some r => updRecord r.serial (fun r => { r with spent := min (r.spent + cost) 65535 }) s

/-! ### Refresh -/

/-- The effective allowance at a refresh (Table 6-4). -/
def scaledAllowance (allowance : Nat) (battery : Option (Fin 16)) : Nat :=
  match battery with
  | none => allowance
  | some b => if 4 ≤ b.val then allowance else if 1 ≤ b.val then allowance / 2 else 0

/-- An entry's account renewed (R116). -/
def Entry.renewed (e : Entry) : Entry :=
  { e with
    effective := scaledAllowance e.allowance e.battery
    remaining := scaledAllowance e.allowance e.battery }

/-- The outcome a refresh that leaves A_eff at 0 gives a live change, if it ends it (Table 6-5). -/
def refreshOutcome : ChangeState → Option OutcomeCode
  | .queued | .sending => some .failedBudget
  | .verifying => some .appliedUnverified
  | .withdrawing => some .withdrawUnconfirmed
  | .staged | .finished => none

/-- The live change of an entry and the outcome the refresh gives it, if it ends it (R117). -/
def refreshEnds (s : State) (e : Entry) : Option (Serial × OutcomeCode) :=
  if e.effective = 0 then
    (s.liveRecord e).bind fun r => (refreshOutcome r.state).map fun code => (r.serial, code)
  else none

/-- A refresh (R116, R117): every account renewed, then the live work of the entries left with A_eff 0 ended in rising order of
short address. -/
def refresh (s : State) : State :=
  let s := { s with dir.entries := s.dir.entries.map Entry.renewed }
  (s.dir.entries.filterMap (refreshEnds s)).foldl (fun s x => finish x.1 x.2 false s) s

/-- The three counts of a REFRESH-BUDGETS reply: entries refreshed, those left with A_eff 0 (log entry 28), live changes finished
(R119). -/
def refreshCounts (s : State) : Nat × Nat × Nat :=
  let s := { s with dir.entries := s.dir.entries.map Entry.renewed }
  (s.dir.entries.length, s.dir.entries.countP fun e => decide (e.effective = 0),
    (s.dir.entries.filterMap (refreshEnds s)).length)

/-- REFRESH_BUDGETS (R119). -/
def execRefreshBudgets (num : Byte) (payload : List Byte) (s : State) : Out :=
  .next (request 0x13 num payload (ofLength 0 payload fun s =>
    let n := refreshCounts s
    okWith (le 2 n.1 ++ le 2 n.2.1 ++ le 2 n.2.2) (refresh s)) s)

end Sys2Proof.Machine
end

