-- ==== Sys2Proof/Machine/Planner.lean ====
section
/-! DEFINITION. The Call Planner at a cell beacon instant (R126 to R132, R136) and the cell engine's beacon frame (R39, R143). -/

namespace Sys2Proof.Machine

/-! ### Urgency (R127 to R129) -/

/-- A tag's urgency group, 1..5 (R127). -/
def urgencyGroup (live : Option Change) : Nat :=
  match live with
  | none => 5
  | some r =>
    match r.state with
    | .withdrawing => 1
    | .queued | .sending => if r.late ∨ r.campaign = none then 2 else 3
    | .verifying => 4
    | .staged | .finished => 5

/-- The slack of an on-time delivery (R129). -/
def slack (s : State) (b : Beacon) (e : Entry) (r : Change) : Int :=
  let done := projectedCompletion b (r.blockCount - r.acked) (tierBlocks e.link) e.believed
  let act := (r.campaign.bind s.activationBeacon).getD 0
  beaconDiff (act - BitVec.ofNat 24 s.store.working.guardBeacons) done

/-- A tag's key within its group, lowest first (Table 7-3): the distance to E, the age of the admission sequence, the slack. -/
def urgencyKey (s : State) (b : Beacon) (e : Entry) : Int :=
  match s.liveRecord e with
  | none => 0
  | some r =>
    match urgencyGroup (some r) with
    | 1 => beaconDiff ((r.campaign.bind s.activationBeacon).getD 0) b
    | 2 => -(sequenceAge s.table.nextSequence r.sequence : Int)
    | 3 => slack s b e r
    | _ => 0

/-- A due tag with what orders it. -/
structure DueTag where
  group : Nat
  key   : Int
  addr  : Nat
deriving DecidableEq, Repr

/-- The order of the due list (R127, R128). -/
def DueTag.before (x y : DueTag) : Bool :=
  decide (x.group < y.group) || (decide (x.group = y.group) && (decide (x.key < y.key)
    || (decide (x.key = y.key) && decide (x.addr < y.addr))))

/-- The ordered due list of the tags at some short addresses (R128). -/
def dueList (s : State) (b : Beacon) (addrs : List Nat) : List DueTag :=
  sortBy DueTag.before (addrs.filterMap fun a => (s.entryAt a).map fun e =>
    ⟨urgencyGroup (s.liveRecord e), urgencyKey s b e, a⟩)

/-! ### Boost orders (R132) -/

/-- The boost order of a call of cell c at beacon b, if all six conditions hold (R132); `k` is the block count without it. -/
def boostOrder (s : State) (c : Cell) (b : Beacon) (e : Entry) (k : Nat) : Option Beacon :=
  let w := s.store.working
  match s.liveRecord e with
  | none => none
  | some r =>
    match r.campaign.bind s.activationBeacon with
    | none => none
    | some act =>
      let u := earlier act (b + BitVec.ofNat 24 w.span)
      let notBoosted := match e.boostEnd with
        | none => true
        | some x => isBefore x b
      if urgencyGroup (some r) = 3 ∧ slack s b e r < 0 ∧ notBoosted = true ∧ s.boostOf e.addr = none
          ∧ (s.planner.boosts.get c).length < 16 ∧ isAfter u b = true
          ∧ plannedCost w k + boostCost b u e.believed e.tagId w.boostWakeCost + w.threshold true ≤ e.remaining
      then some u else none

/-! ### The snapshot (R136) -/

/-- What the snapshot takes of the live change, whatever the call is for (R73, Table 7-6). -/
def namedChange (s : State) (r : Change) : NamedChange where
  blockCount := r.blockCount
  checksum := r.checksum
  acked := r.acked
  effective := r.campaign.bind s.activationBeacon

/-- The snapshot of a called tag (R131, R136). -/
def makeSnapshot (s : State) (c : Cell) (b : Beacon) (m : Mode) (slot : Nat) (e : Entry) : Snapshot :=
  let w := s.store.working
  let live := s.liveRecord e
  let delivery := s.deliveryCall e
  let left := (live.map fun r => r.blockCount - r.acked).getD 0
  let first := if delivery then (live.map (·.acked)).getD 0 else 0
  let plain := if delivery then slotBlocks w m e left 0 else 0
  let boost := boostOrder s c b e plain
  let cost := (boost.map fun u => boostCost b u e.believed e.tagId w.boostWakeCost).getD 0
  let k := if delivery then slotBlocks w m e left cost else 0
  { cell := c
    beacon := b
    slot := slot
    addr := e.addr
    tagId := e.tagId
    serial := (live.map (·.serial)).getD 0
    change := live.map (namedChange s)
    first := first
    carried := k
    blocks := ((s.pool.blocksOf ((live.map (·.serial)).getD 0)).drop first).take k
    wakeOrder := e.commanded
    boostOrder := boost
    withdraw := live.any fun r => decide (r.state = .withdrawing)
    verify := live.any fun r => decide (r.state = .verifying)
    flash := e.flash
    debit := plannedCost w k }

/-- The effects of a call on the part at the instant (R73, R112, R131): the debit, the named record's calls made and its move
from QUEUED to SENDING, and the provisional boost list entry. -/
def commitCall (p : Snapshot) (s : State) : State :=
  let s := debit p.addr p.debit s
  let s := updRecord p.serial (fun r => { r with
    calls := min (r.calls + 1) 255
    state := if r.state = .queued then .sending else r.state }) s
  match p.boostOrder with
  | some u => placeBoost p.cell ⟨p.addr, u, false⟩ s
  | none => s

/-! ### Choosing the called tags (R130) -/

/-- One tag of the walk over the ordered due list: beyond the capacity it is filed again; short of charge it is skipped,
BUDGET_SHORT set, and filed again; otherwise it is called and takes the next slot. -/
def walkTag (c : Cell) (b : Beacon) (m : Mode) (cap : Nat) (acc : List Snapshot × State) (a : Nat) :
    List Snapshot × State :=
  let s := acc.2
  match s.entryAt a with
  | none => acc
  | some e =>
    if cap ≤ acc.1.length then (acc.1, fileTag a s)
    else if e.remaining < s.store.working.threshold (s.deliveryCall e) then
      (acc.1, fileTag a (raiseFlag .budgetShort s))
    else
      let p := makeSnapshot s c b m acc.1.length e
      (acc.1 ++ [p], commitCall p s)

/-! ### The beacon instant (R126) -/

/-- The geometry of the working settings (R3). -/
def Settings.geometry (w : Settings) : Geometry := ⟨w.period, w.cells, w.capacityNight, w.capacityDay⟩

/-- Whether cell c transmits at an instant under geometry `g` (Table 1-3). -/
def State.transmits (s : State) (g : Geometry) (c : Cell) : Bool :=
  (g.cells.get c).enabled && s.cells.heads.get c && decide (s.store.mode ≠ .quiet)

/-- The call capacity of cell c at an instant (Table 1-3). -/
def State.capacity (s : State) (g : Geometry) (c : Cell) : Nat :=
  if s.transmits g c then
    match s.store.mode with
    | .night => g.capacityNight
    | .day => g.capacityDay
    | .quiet => 0
  else 0

/-- Steps 1 and 2 of R126: λ_c becomes b, and the boost list entries of cell c whose end is before b leave (R135). -/
def beginInstant (c : Cell) (b : Beacon) (s : State) : State :=
  { s with
    planner.last := s.planner.last.set c b
    planner.boosts := s.planner.boosts.modify c fun l => l.filter fun x => !isBefore x.boostEnd b }

/-- Whether a calendar entry sits in the bucket of beacon b (R120). -/
def inBucket (b : Beacon) (x : CalendarEntry) : Bool := decide (x.due.toNat % 128 = b.toNat % 128)

/-- Step 3 of R126: every entry in the bucket of b is taken out of cell c's calendar. -/
def takeDue (c : Cell) (b : Beacon) (s : State) : List Nat × State :=
  (((s.planner.calendar.get c).filter (inBucket b)).map (·.addr),
    { s with planner.calendar := s.planner.calendar.modify c fun l => l.filter fun x => !inBucket b x })

/-- The grant at the head of cell c's queue leaves it for the beacon frame (R39). -/
def takeGrant (c : Cell) (s : State) : Option Grant × State :=
  match s.dir.grants.get c with
  | [] => (none, s)
  | g :: rest => (some g, { s with dir.grants := s.dir.grants.set c rest })

/-- The window record opened, the beacon frame built with the grant it takes, and each slot's downlink built from its snapshot
alone (R141, R143, R144). -/
def openWindow (c : Cell) (b : Beacon) (called : List Snapshot) (s : State) : State :=
  let (g, s) := takeGrant c s
  let site := s.store.working.siteCode
  let grant := g.map fun g => grantBytes g site (((s.entryAt g.addr).map (·.believed)).getD 0)
  let frame := beaconFrame site b c s.store.mode (called.map (·.addr)) grant
  let w : Window := ⟨b, s.store.mode, frame, g, called.map fun p => ⟨p, slotDownlink p, false⟩⟩
  { s with cells.windows := s.cells.windows.set c (some w) }

/-- A cell's beacon instant for beacon b under geometry `g` (R126). -/
def instant (c : Cell) (b : Beacon) (g : Geometry) (s : State) : State :=
  let (due, s) := takeDue c b (beginInstant c b s)
  let cap := s.capacity g c
  let r := if cap = 0 then ([], due.foldl (fun s a => fileTag a s) s)
    else ((dueList s b due).map (·.addr)).foldl (walkTag c b s.store.mode cap) ([], s)
  if s.transmits g c then openWindow c b r.1 r.2 else r.2

/-- Whether an instant of cell c for beacon b may be taken: the last one taken is of another beacon, and no window of the cell
is open (R120, R141, log entry 4). -/
def State.instantOpen (s : State) (c : Cell) (b : Beacon) : Bool :=
  decide (s.planner.last.get c ≠ b) && (s.cells.windows.get c).isNone

/-- The beacon and geometry of an instant: those in force after the beacon start; before it, those of the next beacon, for a
cell whose offset will be 0, with no preset pending (R99, R124, log entry 17). -/
def instantPlace (s : State) (c : Cell) : InstantOrder → Option (Beacon × Geometry)
  | .afterStart => some (s.air.beacon, s.air.geometry)
  | .beforeStart =>
    if (s.store.working.cells.get c).offset = 0 ∧ s.air.preset = none then
      some (s.air.beacon + 1, s.store.working.geometry)
    else none

/-- CELL_BEACON_INSTANT (R126). -/
def execCellBeaconInstant (c : Cell) (order : InstantOrder) (s : State) : Out :=
  .next (event (fun s =>
    match instantPlace s c order with
    | none => s
    | some (b, g) => if s.instantOpen c b then instant c b g s else s) s)

end Sys2Proof.Machine
end

