-- ==== Sys2Proof/Machine/AirTimer.lean ====
section
/-! DEFINITION. The Air Timer: SET-CLOCK (R8), SET-BEACON (R5), the beacon start with the preset (R2, R6) and the cuts due at it
(R95), and the refresh crossing (R10). -/

namespace Sys2Proof.Machine

/-! ### The site clock -/

/-- The site clock at a count of site seconds, its fraction 0 (R8). -/
def clockOfSeconds (seconds : Nat) : Clock := BitVec.ofNat 42 (1024 * seconds)

/-- The site seconds (R7). -/
def AirTimer.seconds (t : AirTimer) : Nat := t.clock.toNat / 1024

/-- SET-CLOCK on its site seconds (R8). -/
def actSetClock (payload : List Byte) (s : State) : Answer :=
  okWith [] { s with air.clock := clockOfSeconds (leNat payload), air.clockSet := true }

/-- SET_CLOCK (R8). -/
def execSetClock (num : Byte) (payload : List Byte) (s : State) : Out :=
  .next (request 0x02 num payload (ofLength 4 payload (actSetClock payload)) s)

/-! ### The beacon preset -/

/-- The three conditions of R5: no record, every campaign FREE, and no boost end after B. -/
def State.presetFree (s : State) : Bool :=
  decide (s.table.records = []) && s.campaigns.toList.all (fun c => decide (c.state = .free))
    && s.dir.entries.all fun e => !e.boostEnd.any fun u => isAfter u s.air.beacon

/-- SET-BEACON on its beacon number (R5). -/
def actSetBeacon (payload : List Byte) (s : State) : Answer :=
  if s.presetFree then okWith [] { s with air.preset := some (BitVec.ofNat 24 (leNat payload)) }
  else refuse .airLocked s

/-- SET_BEACON (R5). -/
def execSetBeacon (num : Byte) (payload : List Byte) (s : State) : Out :=
  .next (request 0x03 num payload (ofLength 3 payload (actSetBeacon payload)) s)

/-- A calendar entry filed again at its tag's next wake after `before` by its believed class (R124). -/
def refiled (s : State) (before : Beacon) (x : CalendarEntry) : CalendarEntry :=
  match s.entryAt x.addr with
  | none => x
  | some e => { x with due := nextWake e.believed e.tagId before }

/-- A beacon preset applied (R6, R124): B takes the preset value, each λ_c the beacon before it, every calendar entry is filed
again, and the boost lists and the directory's boost ends are emptied. -/
def applyPreset (p : Beacon) (s : State) : State :=
  { s with
    air.beacon := p
    air.preset := none
    planner := {
      calendar := s.planner.calendar.map fun l => l.map (refiled s (p - 1))
      last := ⟨p - 1, p - 1, p - 1, p - 1⟩
      boosts := ⟨[], [], [], []⟩ }
    dir.entries := s.dir.entries.map fun e => { e with boostEnd := none } }

/-- The next beacon number: the pending preset while the conditions of R5 still hold, and B + 1 otherwise (R2, R6). -/
def nextBeacon (s : State) : State :=
  match s.air.preset with
  | none => { s with air.beacon := s.air.beacon + 1 }
  | some p =>
    if s.presetFree then applyPreset p s
    else { s with air.beacon := s.air.beacon + 1, air.preset := none }

/-- The geometry in force reloaded from the working settings, and the tick counter with it (R1 to R3). -/
def reloadGeometry (s : State) : State :=
  { s with
    air.geometry := s.store.working.geometry
    air.counter := s.store.working.period - 1 }

/-- A beacon start (R2): the reload, the next beacon number, then the cuts of the campaigns whose E it is (R95). -/
def beaconStart (s : State) : State := takeCuts (nextBeacon (reloadGeometry s))

/-- BEACON_START (R2). The command is the underflow; the counter is not tested (log entry 3). -/
def execBeaconStart (s : State) : Out := .next (event beaconStart s)

/-! ### The refresh crossing -/

/-- A refresh crossing (R10): the refresh event taken by the Budget Unit (R116); none occurs while the clock is UNSET. -/
def refreshCrossing (s : State) : State := if s.air.clockSet then refresh s else s

/-- REFRESH_CROSSING (R10). The command is the crossing; the site seconds are not tested (log entry 3). -/
def execRefreshCrossing (s : State) : Out := .next (event refreshCrossing s)

/-! ### The tick -/

/-- Whether a step of the site clock to the reading held now is a crossing through R_t (R10). -/
def AirTimer.crosses (t : AirTimer) (refreshTime : Nat) : Bool :=
  t.clockSet && decide (t.clock.toNat % 1024 = 0) && decide (t.seconds % 86400 = refreshTime)

end Sys2Proof.Machine
end

