-- ==== Sys2Proof/Machine/Slots.lean ====
section
/-! DEFINITION. Slot ends (R153 to R158), the loss of a head (R11, R12), joins (R33 to R37, R152) and strangers (R40). -/

namespace Sys2Proof.Machine

/-! ### The Directory's turn on a report (R154, R155) -/

/-- Whether a new battery level is a fall to 3 or below (R154). -/
def batteryFell (before : Option (Fin 16)) (now : Fin 16) : Bool :=
  decide (now.val ≤ 3) && (match before with
    | none => true
    | some b => decide (3 < b.val))

/-- The facts and order confirmations a report brings to an entry (R154, R155); `c` and `b` are the calling cell and the
window's beacon. R155 has U become absent at a reported boost end before `b`, and take one at or after it; one exactly 8,388,608
beacons from `b` is neither (R4), and is taken as absent (DESIGN CHOICE, log entry 35). -/
def Entry.afterReport (c : Cell) (b : Beacon) (p : Report) (level : Byte) (e : Entry) : Entry :=
  { e with
    link := if e.home = some c then some level else e.link
    battery := some p.battery
    misses := 0
    shown := some p.shown
    staged := some p.staged
    believed := p.wakeClass
    commanded := if e.commanded = some p.wakeClass then none else e.commanded
    boostEnd := p.boostEnd.filter fun u => atOrAfter u b
    flash := if p.flashDone then false else e.flash }

/-- The Directory's turn on a decoded report, with LOW_BATTERY (R154, R155). -/
def directoryReport (p : Snapshot) (rep : Report) (level : Byte) (s : State) : State :=
  let fell := match s.entryAt p.addr with
    | some e => batteryFell e.battery rep.battery
    | none => false
  let s := updEntry p.addr (Entry.afterReport p.cell p.beacon rep level) s
  if fell then raiseFlag .lowBattery s else s

/-! ### The Budget Unit's and the Call Planner's turns (R115, R134, R138) -/

/-- Whether a report confirms the boost its slot ordered (R155). -/
def confirmsBoost (p : Snapshot) (rep : Report) : Bool := p.boostOrder.isSome && decide (rep.boostEnd = p.boostOrder)

/-- The Budget Unit's turn on a decoded report (R115). -/
def budgetReport (p : Snapshot) (rep : Report) (s : State) : State :=
  match p.boostOrder, s.entryAt p.addr with
  | some u, some e =>
    if confirmsBoost p rep then
      debit p.addr (boostCost p.beacon u e.believed e.tagId s.store.working.boostWakeCost) s
    else s
  | _, _ => s

/-- A tag's boost list entry made CONFIRMED with a boost end (Table 7-5). -/
def confirmBoost (a : Nat) (u : Beacon) (s : State) : State :=
  { s with planner.boosts := s.planner.boosts.map fun l => l.map fun x =>
      if x.addr = a then { x with boostEnd := u, confirmed := true } else x }

/-- The tag's boost list entry resolved at a slot end (Table 7-5); `rep` is the decoded report, if any. A reported boost end that is
neither at or after the window's beacon nor before it (R4) shows no boost (DESIGN CHOICE, log entry 35). -/
def resolveBoost (p : Snapshot) (rep : Option Report) (s : State) : State :=
  match s.boostOf p.addr with
  | none => s
  | some (_, x) =>
    match p.boostOrder with
    | some u =>
      if x.confirmed then s
      else if rep.any fun r => confirmsBoost p r then confirmBoost p.addr u s
      else dropBoost p.addr s
    | none =>
      match rep with
      | none => s
      | some r =>
        if x.confirmed ∧ ¬ (r.boostEnd.any fun u => atOrAfter u p.beacon) then dropBoost p.addr s else s

/-- The tag filed afresh at a slot end, or its entry dropped, by the entry as it now stands (R138). -/
def slotFiling (a : Nat) (s : State) : State :=
  match s.entryAt a with
  | none => s
  | some e =>
    if e.state = .present then
      if s.hasWork e then fileTag a s else dropCalendar a s
    else s

/-! ### Missed reports and LOST (R42, R157, R158) -/

/-- The outcome the LOST transition gives a live change, if it ends it (Table 8-2). -/
def lostOutcome : ChangeState → Option OutcomeCode
  | .queued | .sending => some .failedUnreachable
  | .verifying => some .appliedUnverified
  | .withdrawing => some .withdrawUnconfirmed
  | .staged | .finished => none

/-- The LOST transition: the effects of R42, then the live change by its state (R158). -/
def becomeLost (e : Entry) (s : State) : State :=
  let s := raiseFlag .tagLost (updEntry e.addr (fun e => { e with state := .lost }) s)
  let s := dropGrants e.tagId (dropBoost e.addr (dropCalendar e.addr s))
  match s.liveRecord e with
  | none => s
  | some r =>
    match lostOutcome r.state with
    | none => s
    | some code => finish r.serial code false s

/-- A miss counted (R42): a count that reaches M_lost stops there and makes a PRESENT entry LOST (log entry 15). -/
def countMiss (a : Nat) (s : State) : State :=
  match s.entryAt a with
  | none => s
  | some e =>
    let limit := s.store.working.missLimit
    let s := updEntry a (fun e => { e with misses := min (e.misses + 1) limit }) s
    if limit ≤ e.misses + 1 ∧ e.state = .present then becomeLost e s else s

/-! ### The slot end (R153) -/

/-- The decoded report of a slot, if its tag id is the snapshot's (R153, R188). -/
def slotReport (p : Snapshot) (received : Option (List Byte)) : Option Report :=
  (received.bind decodeReport).filter fun r => decide (r.tagId = p.tagId)

/-- A slot end for a snapshot (R153): nothing when its tag id is no longer held at its short address; otherwise the owners
take the report, or the miss, in turn (R154 to R157). -/
def endSlot (p : Snapshot) (received : Option (List Byte)) (level : Byte) (s : State) : State :=
  match s.entryAt p.addr with
  | none => s
  | some e =>
    if e.tagId = p.tagId then
      match slotReport p received with
      | some rep =>
        let s := directoryReport p rep level s
        let s := changeReport p.addr p.serial rep s
        let s := budgetReport p rep s
        slotFiling p.addr (resolveBoost p (some rep) s)
      | none => slotFiling p.addr (resolveBoost p none (countMiss p.addr s))
    else s

/-- The slots of a window before the first whose slot end has not been taken, that slot's snapshot, and those after it. -/
def nextSlot : List Slot → Option (Snapshot × List Slot)
  | [] => none
  | x :: xs =>
    if x.ended then (nextSlot xs).map fun p => (p.1, x :: p.2)
    else some (x.snapshot, { x with ended := true } :: xs)

/-- The slot end of the next slot of cell c's window (R142, R153). -/
def slotEnd (c : Cell) (received : Option (List Byte)) (level : Byte) (s : State) : State :=
  match s.cells.windows.get c with
  | none => s
  | some w =>
    match nextSlot w.slots with
    | none => s
    | some (p, slots) =>
      endSlot p received level { s with cells.windows := s.cells.windows.set c (some { w with slots := slots }) }

/-- SLOT_END (R153); without a slot left in an open window nothing happens (log entry 4). -/
def execSlotEnd (c : Cell) (received : Option (List Byte)) (level : Byte) (s : State) : Out :=
  .next (event (slotEnd c received level) s)

/-! ### Heads (R11, R12) -/

/-- The snapshots of a window whose slot end has not been taken, in slot order. -/
def Window.remaining (w : Window) : List Snapshot := (w.slots.filter fun x => !x.ended).map (·.snapshot)

/-- A call window abandoned (R12): each slot not yet ended ends at this moment without a report, in slot order, and the
window record is discarded without a join slot. -/
def abandonWindow (c : Cell) (s : State) : State :=
  match s.cells.windows.get c with
  | none => s
  | some w =>
    w.remaining.foldl (fun s p => endSlot p none 0 s) { s with cells.windows := s.cells.windows.set c none }

/-- A head lost (R11, R12). -/
def headLost (c : Cell) (s : State) : State :=
  if s.cells.heads.get c then
    abandonWindow c (raiseFlag .cellDown { s with cells.heads := s.cells.heads.set c false })
  else s

/-- HEAD_LOST (R11); a head already absent is no change of the port's report (log entry 4). -/
def execHeadLost (c : Cell) (s : State) : Out := .next (event (headLost c) s)

/-- HEAD_RETURNED (R11). -/
def execHeadReturned (c : Cell) (s : State) : Out :=
  .next (event (fun s => { s with cells.heads := s.cells.heads.set c true }) s)

/-! ### Joins (R33 to R37) -/

/-- A stranger's join recorded (R40). -/
def recordStranger (c : Cell) (b : Beacon) (id : TagId) (s : State) : State :=
  match s.dir.strangers.find? fun x => decide (x.tagId = id) with
  | some x =>
    { s with dir.strangers :=
        (s.dir.strangers.filter fun x => decide (x.tagId ≠ id)) ++ [⟨id, c, b, min (x.joins + 1) 255⟩] }
  | none =>
    let kept := if s.dir.strangers.length < 16 then s.dir.strangers else s.dir.strangers.tail
    placeStrangers { s with dir.strangers := kept ++ [⟨id, c, b, 1⟩] }

/-- Whether a join is a stranger's: the tag is not enrolled, or holds another site's code (R33, test 2). -/
def isStranger (j : Join) (s : State) : Bool :=
  (s.entryOf j.tagId).isNone || (decide (j.siteCode ≠ 0) && decide (j.siteCode ≠ s.store.working.siteCode))

/-- A hand-off's boost list entry (R37): moved to cell c's list where it has room, dropped otherwise. -/
def moveBoost (c : Cell) (a : Nat) (s : State) : State :=
  match s.boostOf a with
  | none => s
  | some (h, x) =>
    if h = c then s
    else if (s.planner.boosts.get c).length < 16 then placeBoost c x s
    else dropBoost a s

/-- The state handling of an accepted join by the entry's state (R35, R36, R37). -/
def joinState (c : Cell) (e : Entry) (s : State) : State :=
  match e.state with
  | .unseen | .lost =>
    updEntry e.addr (fun e => { e with
      state := .present, home := some c, link := if e.state = .lost ∧ e.home = some c then e.link else none }) s
  | .present =>
    if e.home = some c then s
    else moveBoost c e.addr (dropCalendar e.addr
      (updEntry e.addr (fun e => { e with home := some c, link := none }) s))

/-- Steps 1 to 3 of R34 on an entry. -/
def Entry.afterJoin (j : Join) (e : Entry) : Entry :=
  { e with
    shown := some j.shown
    staged := some j.staged
    misses := 0
    believed := e.commanded.getD e.believed
    commanded := none }

/-- Step 4 of R34: a grant at the tail of cell c's queue, any grant of the tag on another queue removed first. -/
def queueGrant (c : Cell) (e : Entry) (s : State) : State :=
  let s := dropGrants e.tagId s
  { s with dir.grants := s.dir.grants.modify c fun l => l ++ [⟨e.tagId, e.addr⟩] }

/-- Step 5 of R34: a tag with work filed at its next wake after λ_c by its class, a tag without work not filed. -/
def joinFiling (c : Cell) (a : Nat) (s : State) : State :=
  match s.entryAt a with
  | none => s
  | some e => if s.hasWork e then placeCalendar c ⟨a, s.classDue e c⟩ s else dropCalendar a s

/-- An accepted join (R34 to R37). -/
def acceptJoin (c : Cell) (j : Join) (e : Entry) (s : State) : State :=
  joinFiling c e.addr (queueGrant c e (updEntry e.addr (Entry.afterJoin j) (joinState c e s)))

/-- The screening of a join (R33). -/
def screenJoin (c : Cell) (b : Beacon) (j : Join) (s : State) : State :=
  if invalidId j.tagId then s
  else if isStranger j s then recordStranger c b j.tagId s
  else if (s.dir.grants.get c).any fun g => decide (g.tagId = j.tagId) then s
  else if 4 ≤ (s.dir.grants.get c).length then s
  else
    match s.entryOf j.tagId with
    | none => s
    | some e => acceptJoin c j e s

/-- The join a join slot hands on, if it heard one (R152, R188). -/
def heardJoin : JoinHeard → Option Join
  | .nothing => none
  | .collided => none
  | .heard bytes => decodeJoin bytes

/-- The join slot end of cell c's window (R152): the join handed on, then the window record discarded (R141). -/
def joinSlotEnd (c : Cell) (heard : JoinHeard) (s : State) : State :=
  match s.cells.windows.get c with
  | none => s
  | some w =>
    if w.remaining = [] then
      let s := match heardJoin heard with
        | none => s
        | some j => screenJoin c w.beacon j s
      { s with cells.windows := s.cells.windows.set c none }
    else s

/-- JOIN_SLOT_END (R152); a window whose slots have not all ended is not at its join slot (log entry 4). -/
def execJoinSlotEnd (c : Cell) (heard : JoinHeard) (s : State) : Out := .next (event (joinSlotEnd c heard) s)

end Sys2Proof.Machine
end

