-- ==== Sys2Proof/Machine/Resets.lean ====
section
/-! DEFINITION. Power (R180, R181), the two kinds of RESET and the moment they act (R184), and the line break (R165), at which an
accepted RESET also acts. -/

namespace Sys2Proof.Machine

/-! ### Start-up (R180) -/

/-- The settings a start-up loads (R180). -/
def StoredBlock.settings (b : StoredBlock) : Settings := b.load.getD Settings.defaults

/-- Whether a start-up uses the defaults (R180). -/
def StoredBlock.defaulted (b : StoredBlock) : Bool := b.load.isNone

/-- The part as power-on and RESET COLD leave it, from its stored block and the heads its ports report (R180): every block in the
power-on state its own chapter gives. The free values read and the commands that wait are the model's own and stay. -/
def startUp (stored : StoredBlock) (heads : Quad Bool) (freeIndex : Nat) (pending : List Instr) : State where
  powered := true
  store := ⟨stored.settings, stored.defaulted, stored.defaulted, .quiet, stored⟩
  air := ⟨stored.settings.period - 1, stored.settings.geometry, 0, none, 0, false⟩
  dir := ⟨[], ⟨[], [], [], []⟩, []⟩
  pool := ⟨32768, []⟩
  table := ⟨[], [], [], 1, 0⟩
  campaigns := ⟨Campaign.freeEntry, Campaign.freeEntry, Campaign.freeEntry, Campaign.freeEntry⟩
  planner := ⟨⟨[], [], [], []⟩, ⟨16777215, 16777215, 16777215, 16777215⟩, ⟨[], [], [], []⟩⟩
  cells := ⟨heads, ⟨none, none, none, none⟩⟩
  line := ⟨.hunt, [], [], [], .flowOpen, false, stored.settings.lineRate, [], []⟩
  handler := ⟨.idle, if stored.defaulted then Flag.settingsDefaulted.bit else 0, NoticeSet.empty, .armed, 0⟩
  freeIndex := freeIndex
  pending := pending

/-- The stored block as a loss of power leaves it: a write in progress leaves it failing its check value (R181). -/
def blockAfterLoss (s : State) : StoredBlock :=
  match s.handler.task with
  | .saving _ _ => .damaged
  | .idle | .resetting _ => s.store.stored

/-- What the four cell ports report, cell c at bit c. -/
def headsOf (heads : BitVec 4) : Quad Bool :=
  ⟨heads.getLsbD 0, heads.getLsbD 1, heads.getLsbD 2, heads.getLsbD 3⟩

/-- POWER_ON (R180); power had been lost before it (log entry 9). -/
def execPowerOn (heads : BitVec 4) (s : State) : Out :=
  .next (startUp (if s.powered then blockAfterLoss s else s.store.stored) (headsOf heads) s.freeIndex s.pending)

/-- A loss of power: what only the supply held is lost (log entry 9), and a write in progress leaves the stored block failing
its check value (R181). -/
def powerLoss (s : State) : State := { s with powered := false, store.stored := blockAfterLoss s }

/-- POWER_LOSS (R181). -/
def execPowerLoss (s : State) : Out := .next (event powerLoss s)

/-! ### The RESET request (R184) -/

/-- RESET on its kind (R184): the reply is placed, and the Record Handler stays BUSY until the reset acts. -/
def actReset (payload : List Byte) (s : State) : Answer :=
  match ResetKind.ofCode (leNat payload) with
  | none => refuse .badValue s
  | some k => okWith [k.code] { s with handler.task := .resetting k }

/-- RESET_COLD (R184). A request that names WARM is no such row (log entry 21). -/
def execResetCold (num : Byte) (payload : List Byte) (s : State) : Out :=
  .next (if namesReset 2 payload then s
    else request 0x08 num payload (ofLength 1 payload (actReset payload)) s)

/-- RESET_WARM (R184). A request that names COLD is no such row (log entry 21). -/
def execResetWarm (num : Byte) (payload : List Byte) (s : State) : Out :=
  .next (if namesReset 1 payload then s
    else request 0x08 num payload (ofLength 1 payload (actReset payload)) s)

/-! ### The moment a reset acts (R184) -/

/-- RESET COLD acting: the part starts as at power-on, the heads standing as the ports report them (R11, R184, log
entry 14). What has gone out on the line stays told. -/
def actCold (s : State) : State :=
  { startUp s.store.stored s.cells.heads s.freeIndex s.pending with line.lineOut := s.line.lineOut }

/-- Whether an entry is filed when RESET WARM rebuilds the calendars (R125). -/
def Entry.filedAtWarm (e : Entry) : Bool := decide (e.state = .present) && (e.commanded.isSome || e.flash)

/-- RESET WARM at every block but the Call Planner's rebuilding: the Change Table, the pool and the boost lists emptied, the
campaigns FREE, the live changes absent, the two notices removed, the latch ARMED (R21, R56, R86, R87, R133, R173, R174). -/
def clearWork (s : State) : State :=
  { s with
    dir.entries := s.dir.entries.map fun e => { e with live := none }
    pool := ⟨32768, []⟩
    table := { s.table with records := [], retire := [], outcomes := [] }
    campaigns := ⟨Campaign.freeEntry, Campaign.freeEntry, Campaign.freeEntry, Campaign.freeEntry⟩
    planner := { s.planner with calendar := ⟨[], [], [], []⟩, boosts := ⟨[], [], [], []⟩ }
    handler := { s.handler with
      task := .idle
      notices := { s.handler.notices with campaignDone := ⟨none, none, none, none⟩, outcomesReady := false }
      latch := .armed
      timer := 0 } }

/-- RESET WARM acting (R184): the work cleared, then the calendars rebuilt in rising order of short address (R125). -/
def actWarm (s : State) : State :=
  ((s.dir.entries.filter Entry.filedAtWarm).map (·.addr)).foldl (fun s a => fileTag a s) (clearWork s)

/-- A reset acting by its kind (R184). -/
def actKind : ResetKind → State → State
  | .cold => actCold
  | .warm => actWarm

/-- The moment an accepted RESET acts (R184): its reply and the frames ahead of it have been sent (log entry 10). -/
def resetActs (s : State) : State :=
  match s.handler.task with
  | .resetting k => actKind k (sendThrough isResetReply s)
  | _ => s

/-- RESET_ACTS (R184); without an accepted RESET nothing happens (log entry 4). -/
def execResetActs (s : State) : Out := .next (event resetActs s)

/-! ### The line break (R165) -/

/-- The line break at the Host Line Interface (R165): both queues emptied, the receiver in HUNT, the flow-control state
FLOW_OPEN; a line rate whose reply is lost is taken (R166). -/
def breakLine (s : State) : State :=
  { s with line := { s.line with
      rx := .hunt
      partials := []
      inbound := []
      outbound := []
      flow := .flowOpen
      flowFree := false
      rate := s.line.rateDue.getLastD s.line.rate
      rateDue := [] } }

/-- A line break (R165): a frame it begins in is first discarded with FRAME_DROPPED (R163, log entry 11), and an accepted
RESET whose reply is lost acts (R184). -/
def lineBreak (s : State) : State :=
  let s := breakLine (if s.line.rx = .hunt then s else dropFrame s)
  match s.handler.task with
  | .resetting k => actKind k s
  | _ => s

/-- LINE_BREAK (R165). -/
def execLineBreak (s : State) : Out := .next (event lineBreak s)

end Sys2Proof.Machine
end

