-- ==== Sys2Proof/Machine/Tick.lean ====
section
/-! DEFINITION. What the part does by itself while no command waits: the events that are due at the present tick are put into the
queue, and when none is due one tick passes (log entries 2 and 5). -/

namespace Sys2Proof.Machine

/-! ### Events due at the present tick -/

/-- A list with only those elements for which `keep` holds behind the first for which `p` does. -/
def keepBehind (p keep : Instr → Bool) : List Instr → List Instr
  | [] => []
  | i :: rest => i :: if p i then rest.filter keep else keepBehind p keep rest

/-- What of an order of due events is left to be taken (log entry 5). Behind a reset that acts, the next step finds afresh what is
then due, but for a crossing, which its own tick alone brings (R184). Behind a request, which may restart or stop the wait
timer, it finds afresh whether a time-out is due (R174, fetch first). -/
def settled (order : List Instr) : List Instr :=
  keepBehind (fun i => decide (i = .resetActs)) (fun i => decide (i = .refreshCrossing))
    (keepBehind (fun i => (requestOf i).isSome) (fun i => decide (i ≠ .outcomesReadyTimeout)) order)

/-- Events put at the tail of the queue, in an order the spec leaves open where there are two or more (log entry 5). -/
def enqueue (events : List Instr) (s : State) : State :=
  let s' := { s with pending := s.pending ++ settled (freeOrder events.length s.freeIndex events) }
  if events.length ≤ 1 then s' else { s' with freeIndex := s.freeIndex + events.length }

/-- The taking of the request at the head of the inbound queue, while the Record Handler may take it (R169). -/
def requestDue (s : State) : List Instr :=
  match s.line.inbound with
  | [] => []
  | f :: _ => if s.canTake then [commandOf f.kind f.num f.payload] else []

/-- A notice moves as soon as the outbound queue has two free places (R168, R173). -/
def noticeDue (s : State) : List Instr := if 2 ≤ s.freePlaces ∧ (nextNotice s).isSome then [.noticeMove] else []

/-- An accepted RESET acts when its reply has been sent (R184). -/
def resetDue (s : State) : List Instr := if s.resetDue then [.resetActs] else []

/-- The line rate changes when the reply to its SET-LINE has been sent (R166). -/
def rateChangeDue (s : State) : List Instr := if s.rateChangeDue then [.lineRateChange] else []

/-- A flow-control byte that is due goes out when its byte position is free (R167), behind a rate change or a reset that is
due (R166, R184). -/
def flowDue (s : State) : List Instr :=
  if s.flowReady then
    match s.line.flow with
    | .holdDue => [.hold]
    | .goDue => [.go]
    | .flowOpen | .held => []
  else []

/-- The wait timer has reached 4,096 ticks (R174). -/
def timeoutDue (s : State) : List Instr :=
  if 4096 ≤ s.handler.timer ∧ s.handler.latch = .armed ∧ s.table.outcomes ≠ []
      ∧ s.table.outcomes.length < s.store.working.outcomeTrigger then [.outcomesReadyTimeout] else []

/-- Cell c's instant of the current beacon, O_c ticks after the beacon start (R13). -/
def instantDue (s : State) (c : Cell) : List Instr :=
  if s.air.elapsed = (s.air.geometry.cells.get c).offset ∧ s.instantOpen c s.air.beacon = true then
    [.cellBeaconInstant c .afterStart] else []

/-- The ticks elapsed in its beacon at which a window's next slot end, or its join slot end, falls (R14, R142). -/
def Window.nextEnd (w : Window) (offset : Nat) : Nat :=
  if w.remaining = [] then offset + 26 + 30 * w.slots.length
  else offset + 16 + 30 * (w.slots.countP (·.ended) + 1)

/-- Whether the next end of cell c's window is past: its tick has come, or its beacon is over. -/
def Window.endPast (s : State) (c : Cell) (w : Window) : Bool :=
  if w.beacon = s.air.beacon then
    decide (w.nextEnd (s.air.geometry.cells.get c).offset ≤ s.air.elapsed)
  else decide (w.beacon ≠ s.air.beacon + 1)

/-- A slot end without a report, or a join slot end without a join, of cell c's window (R142); a frame heard on the air comes
with the command that carries it. -/
def windowEvent (c : Cell) (w : Window) : Instr :=
  if w.remaining = [] then .joinSlotEnd c .nothing else .slotEnd c none 0

/-- The next end of cell c's window, when it is past (R142). -/
def windowDue (s : State) (c : Cell) : List Instr :=
  match s.cells.windows.get c with
  | none => []
  | some w => if w.endPast s c then [windowEvent c w] else []

/-- The events due at the present tick. -/
def dueNow (s : State) : List Instr :=
  requestDue s ++ noticeDue s ++ resetDue s ++ rateChangeDue s ++ flowDue s ++ timeoutDue s
    ++ allFour.flatMap (windowDue s) ++ allFour.flatMap (instantDue s)

/-! ### A tick -/

/-- The wait timer at a tick (R174). -/
def timerTick (s : State) : Nat :=
  if s.handler.latch = .armed ∧ s.table.outcomes ≠ [] then s.handler.timer + 1 else s.handler.timer

/-- The refresh crossing of a tick that brings one (R10). -/
def crossingDue (s : State) : List Instr :=
  if s.air.crosses s.store.working.refreshTime then [.refreshCrossing] else []

/-- A window that ends with the beacon itself: its join slot end falls at the underflow (R14, R142). -/
def endsWithBeacon (s : State) (c : Cell) : List Instr :=
  match s.cells.windows.get c with
  | none => []
  | some w => if w.beacon = s.air.beacon then [windowEvent c w] else []

/-- The instants of the next beacon that fall at its start: those of the cells whose offset will be 0 (R13, R99). -/
def startInstants (s : State) : List Instr :=
  (allFour.filter fun c => decide ((s.store.working.cells.get c).offset = 0)).map fun c => .cellBeaconInstant c .beforeStart

/-- Whether an event is a cell's beacon instant. -/
def isInstant : Instr → Bool
  | .cellBeaconInstant _ _ => true
  | _ => false

/-- An event as it is taken behind the beacon start. -/
def behindStart : Instr → Instr
  | .cellBeaconInstant c _ => .cellBeaconInstant c .afterStart
  | i => i

/-- The events of an underflow in their order (log entry 5): the instants behind the beacon start are of the beacon it starts, and
those ahead of it are taken before it (R99). While a preset is pending none is, and they come directly behind it (R124). -/
def startOrder (preset : Bool) (order : List Instr) : List Instr :=
  let ahead := order.takeWhile fun i => decide (i ≠ .beaconStart)
  let behind := (order.dropWhile fun i => decide (i ≠ .beaconStart)).tail.map behindStart
  if preset then
    (ahead.filter fun i => !isInstant i) ++ .beaconStart :: (ahead.filter isInstant).map behindStart ++ behind
  else ahead ++ .beaconStart :: behind

/-- An underflow of the tick counter (R1): the windows that end with the beacon, then, in an order the spec leaves open, the beacon
start, the instants at it, a refresh crossing and a time-out (R98, R99, R118, R174, log entry 5). -/
def underflow (s : State) : State :=
  let events := .beaconStart :: startInstants s ++ crossingDue s ++ timeoutDue s
  { s with
    pending := s.pending ++ allFour.flatMap (endsWithBeacon s)
      ++ startOrder s.air.preset.isSome (freeOrder events.length s.freeIndex events)
    freeIndex := if events.length ≤ 1 then s.freeIndex else s.freeIndex + events.length }

/-- One tick (R1, R7, R174). -/
def tick (s : State) : State :=
  let s' := { s with
    air := { s.air with clock := s.air.clock + 1, counter := s.air.counter - 1 }
    handler.timer := timerTick s }
  if s.air.counter = 0 then underflow s'
  else if crossingDue s' = [] then s'
  else enqueue (crossingDue s' ++ dueNow s') s'

/-- The part with no command waiting: its due events join the queue, and when none is due a tick passes. Without supply
nothing happens. -/
def idle (s : State) : State :=
  if s.powered then
    if dueNow s = [] then tick s else enqueue (dueNow s) s
  else s

end Sys2Proof.Machine
end

