-- ==== Sys2Proof/Machine/Dispatch.lean ====
section
/-! DEFINITION. Each command's meaning, one arm for each row of the table. -/

namespace Sys2Proof.Machine

def exec (i : Instr) (s : State) : Host.Outcome State Fault Refusal :=
  match i with
  | .powerOn heads => Sys2Proof.Machine.execPowerOn heads s
  | .status num payload => Sys2Proof.Machine.execStatus num payload s
  | .setClock num payload => Sys2Proof.Machine.execSetClock num payload s
  | .setBeacon num payload => Sys2Proof.Machine.execSetBeacon num payload s
  | .setMode num payload => Sys2Proof.Machine.execSetMode num payload s
  | .configSet num payload => Sys2Proof.Machine.execConfigSet num payload s
  | .configGet num payload => Sys2Proof.Machine.execConfigGet num payload s
  | .saveSettings num payload => Sys2Proof.Machine.execSaveSettings num payload s
  | .settingsWriteEnd completed => Sys2Proof.Machine.execSettingsWriteEnd completed s
  | .resetCold num payload => Sys2Proof.Machine.execResetCold num payload s
  | .resetWarm num payload => Sys2Proof.Machine.execResetWarm num payload s
  | .resetActs => Sys2Proof.Machine.execResetActs s
  | .setLine num payload => Sys2Proof.Machine.execSetLine num payload s
  | .lineRateChange => Sys2Proof.Machine.execLineRateChange s
  | .setNotices num payload => Sys2Proof.Machine.execSetNotices num payload s
  | .clearEvents num payload => Sys2Proof.Machine.execClearEvents num payload s
  | .enrol num payload => Sys2Proof.Machine.execEnrol num payload s
  | .remove num payload => Sys2Proof.Machine.execRemove num payload s
  | .setWakeTag num payload => Sys2Proof.Machine.execSetWakeTag num payload s
  | .setWakeZone num payload => Sys2Proof.Machine.execSetWakeZone num payload s
  | .setAllowance num payload => Sys2Proof.Machine.execSetAllowance num payload s
  | .locate num payload => Sys2Proof.Machine.execLocate num payload s
  | .queryTag num payload => Sys2Proof.Machine.execQueryTag num payload s
  | .listStrangers num payload => Sys2Proof.Machine.execListStrangers num payload s
  | .refreshBudgets num payload => Sys2Proof.Machine.execRefreshBudgets num payload s
  | .openCampaign num payload => Sys2Proof.Machine.execOpenCampaign num payload s
  | .queryCampaign num payload => Sys2Proof.Machine.execQueryCampaign num payload s
  | .releaseCampaign num payload => Sys2Proof.Machine.execReleaseCampaign num payload s
  | .postChange num payload => Sys2Proof.Machine.execPostChange num payload s
  | .cancelChange num payload => Sys2Proof.Machine.execCancelChange num payload s
  | .queryChange num payload => Sys2Proof.Machine.execQueryChange num payload s
  | .fetchOutcomes num payload => Sys2Proof.Machine.execFetchOutcomes num payload s
  | .outcomesReadyTimeout => Sys2Proof.Machine.execOutcomesReadyTimeout s
  | .hostByteReceived byte faulty => Sys2Proof.Machine.execHostByteReceived byte faulty s
  | .idleGap => Sys2Proof.Machine.execIdleGap s
  | .lineBreak => Sys2Proof.Machine.execLineBreak s
  | .hold => Sys2Proof.Machine.execHold s
  | .go => Sys2Proof.Machine.execGo s
  | .outboundFrameSent => Sys2Proof.Machine.execOutboundFrameSent s
  | .noticeMove => Sys2Proof.Machine.execNoticeMove s
  | .headLost c => Sys2Proof.Machine.execHeadLost c s
  | .headReturned c => Sys2Proof.Machine.execHeadReturned c s
  | .beaconStart => Sys2Proof.Machine.execBeaconStart s
  | .refreshCrossing => Sys2Proof.Machine.execRefreshCrossing s
  | .cellBeaconInstant c order => Sys2Proof.Machine.execCellBeaconInstant c order s
  | .slotEnd c received level => Sys2Proof.Machine.execSlotEnd c received level s
  | .joinSlotEnd c heard => Sys2Proof.Machine.execJoinSlotEnd c heard s
  | .unknownKind kind num payload => Sys2Proof.Machine.execUnknownKind kind num payload s
  | .powerLoss => Sys2Proof.Machine.execPowerLoss s

end Sys2Proof.Machine
end

