-- ==== Sys2Proof/Machine/TagConduct.lean ====
section
/-! DEFINITION. The conduct of a shelf tag (R100, R145 to R151). A tag is no part of the MH820 and none of its state is in State
(log entry 19); these functions say what the part relies on, and its commands SLOT_END and JOIN_SLOT_END carry what a tag sends. -/

namespace Sys2Proof.Machine

/-- What a granted tag holds of its grant (R145). -/
structure TagGrant where
  addr      : Nat
  home      : Cell
  wakeClass : WakeClass
deriving DecidableEq, Repr

/-- A tag's staged page (R145); serial 0 is none, and `effective` is `none` for an immediate page (R100). -/
structure TagPage where
  serial    : Serial
  condition : Condition
  effective : Option Beacon
  next      : Nat
  blocks    : List (List Byte)
deriving DecidableEq, Repr

/-- No staged page. -/
def TagPage.empty : TagPage := ⟨0, .nil, none, 0, []⟩

/-- A tag's own state (R145); `unheeded` counts the consecutive class wakes at which it heeded no frame (R146). -/
structure Tag where
  tagId    : TagId
  siteCode : BitVec 16
  grant    : Option TagGrant
  boostEnd : Option Beacon
  count    : Beacon
  shown    : Serial
  page     : TagPage
  battery  : Fin 16
  unheeded : Nat
deriving DecidableEq, Repr

/-- A beacon frame as a tag hears it (R143); a grant carries a tag id, a short address, a site code and a wake class. -/
structure HeardBeacon where
  siteCode : BitVec 16
  beacon   : Beacon
  cell     : Cell
  mode     : Mode
  called   : List Nat
  grant    : Option (TagId × Nat × BitVec 16 × WakeClass)
deriving DecidableEq, Repr

/-! ### Restart, wakes and hearing (R145, R146) -/

/-- A tag that loses its grant and searches (R146, R147). -/
def Tag.ungranted (t : Tag) : Tag := { t with grant := none, unheeded := 0 }

/-- A restart (R145); `kept` says whether the staged page survived. -/
def Tag.restart (kept : Bool) (t : Tag) : Tag :=
  { t.ungranted with boostEnd := none, page := if kept then t.page else TagPage.empty }

/-- The page shown in place of the shown page (R100). -/
def Tag.flip (t : Tag) : Tag := { t with shown := t.page.serial, page := TagPage.empty }

/-- Whether the tag flips its page by its own timing at beacon `b` (R100). -/
def Tag.flipsAt (t : Tag) (b : Beacon) : Bool :=
  decide (t.page.condition = .complete) && decide (t.page.effective = some b)

/-- Whether a granted tag wakes at its home cell's instant of beacon `b` (R146). -/
def Tag.wakes (t : Tag) (b : Beacon) : Bool :=
  match t.grant with
  | none => false
  | some g => wakesAt g.wakeClass t.tagId b || t.boostEnd.any (fun u => atOrAfter u b) || t.flipsAt b

/-- Whether a granted tag heeds a frame (R146). -/
def Tag.heeds (t : Tag) (g : TagGrant) (f : HeardBeacon) : Bool :=
  decide (f.cell = g.home) && decide (f.siteCode = t.siteCode)

/-- A class wake without a heeded frame; the fourth in a row loses the grant (R146). -/
def Tag.missFrame (b : Beacon) (g : TagGrant) (t : Tag) : Tag :=
  if wakesAt g.wakeClass t.tagId b then
    if t.unheeded + 1 = 4 then t.ungranted else { t with unheeded := t.unheeded + 1 }
  else t

/-- A granted tag at its home cell's instant of beacon `b` (R100, R146): its page flips by its own timing, a boost that has ended
is dropped, and a heeded frame tells it its slot, if it is called. -/
def Tag.atInstant (b : Beacon) (heard : Option HeardBeacon) (t : Tag) : Option Nat × Tag :=
  let t := if t.flipsAt b then t.flip else t
  let t := { t with boostEnd := t.boostEnd.filter fun u => atOrAfter u b }
  match t.grant with
  | none => (none, t)
  | some g =>
    match heard.filter (t.heeds g) with
    | none => (none, t.missFrame b g)
    | some f =>
      (f.called.findIdx? fun a => decide (a = g.addr),
        { t with count := f.beacon, unheeded := if wakesAt g.wakeClass t.tagId b then 0 else t.unheeded })

/-! ### A slot (R147 to R150) -/

/-- The slot header's serial taken by the tag it names (R147). -/
def Tag.takeHeader (p : Snapshot) (t : Tag) : Tag :=
  if p.serial = 0 then { t with page := TagPage.empty }
  else if p.serial = t.shown then t
  else if p.serial = t.page.serial ∧ ¬ (t.page.condition = .bad ∧ p.first = 0) then t
  else { t with page := ⟨p.serial, .partly, p.change.bind (·.effective), 0, []⟩ }

/-- A page whose next expected block has reached the header's n (R148). -/
def TagPage.checked (n : Nat) (checksum : BitVec 16) (p : TagPage) : TagPage :=
  if p.next = n then
    if imageChecksum p.blocks = checksum then { p with condition := .complete }
    else { p with condition := .bad, next := 0, blocks := [] }
  else p

/-- Block `j` of a slot taken, `none` when it was not received whole (R148). -/
def TagPage.takeBlock (n : Nat) (checksum : BitVec 16) (j : Nat) (block : Option (List Byte)) (p : TagPage) : TagPage :=
  match block with
  | none => p
  | some b =>
    if p.condition = .partly ∧ j = p.next then
      TagPage.checked n checksum { p with next := p.next + 1, blocks := p.blocks ++ [b] }
    else p

/-- The blocks of a slot in the order sent (R148); none is taken under a serial that starts no page (R147). -/
def Tag.takeBlocks (p : Snapshot) (heard : List (Option (List Byte))) (t : Tag) : Tag :=
  match p.change with
  | none => t
  | some ch =>
    let page := (heard.zipIdx p.first).foldl (fun pg x => pg.takeBlock ch.blockCount ch.checksum x.2 x.1) t.page
    if p.serial = t.page.serial ∧ p.serial ≠ t.shown then { t with page := page } else t

/-- Whether the header lets the tag flip its page (R100): an immediate page, or one whose effective beacon lies before the
window's. -/
def Tag.flipsOn (p : Snapshot) (t : Tag) : Bool :=
  decide (t.page.condition = .complete) && decide (p.serial = t.page.serial)
    && (match t.page.effective with
      | none => true
      | some e => isAfter p.beacon e)

/-- The wake order (R149, step 3). -/
def Tag.takeWakeOrder (p : Snapshot) (t : Tag) : Tag :=
  { t with grant := t.grant.map fun g => { g with wakeClass := p.wakeOrder.getD g.wakeClass } }

/-- The boost order (R149, step 4): declined at a battery level of 0..3. -/
def Tag.takeBoostOrder (p : Snapshot) (t : Tag) : Tag :=
  match p.boostOrder with
  | none => t
  | some u => if isAfter u p.beacon ∧ 4 ≤ t.battery.val then { t with boostEnd := some u } else t

/-- What the tag does after the blocks, in its order (R149); the flash shows in the report alone. -/
def Tag.afterBlocks (p : Snapshot) (t : Tag) : Tag :=
  let t := if t.flipsOn p then t.flip else t
  let t := if p.withdraw then { t with page := TagPage.empty } else t
  (t.takeWakeOrder p).takeBoostOrder p

/-- The report of a slot (R150). -/
def Tag.report (p : Snapshot) (t : Tag) : Report where
  tagId := t.tagId
  shown := t.shown
  staged := ⟨t.page.serial, t.page.condition⟩
  nextBlock := t.page.next
  wakeClass := (t.grant.map (·.wakeClass)).getD 0
  boostEnd := t.boostEnd.filter fun u => atOrAfter u p.beacon
  battery := t.battery
  flashDone := p.flash

/-- A called tag in its slot (R147 to R150): another tag's header gives no report and loses the grant. `heard` holds each block
of the slot as received. -/
def Tag.slot (p : Snapshot) (heard : List (Option (List Byte))) (t : Tag) : Option Report × Tag :=
  if p.tagId = t.tagId then
    let t := ((t.takeHeader p).takeBlocks p heard).afterBlocks p
    (some (t.report p), t)
  else (none, t.ungranted)

/-! ### Searching (R151) -/

/-- Whether a searching tag heeds a frame (R151). -/
def Tag.searchHeeds (t : Tag) (f : HeardBeacon) : Bool :=
  decide (t.siteCode = 0) || decide (f.siteCode = t.siteCode)

/-- The join a searching tag sends (R151). -/
def Tag.join (t : Tag) : Join := ⟨t.tagId, t.siteCode, t.shown, ⟨t.page.serial, t.page.condition⟩⟩

/-- A searching tag hears a frame: a grant with its tag id makes it granted (R151). -/
def Tag.search (f : HeardBeacon) (t : Tag) : Tag :=
  if t.searchHeeds f then
    match f.grant with
    | none => t
    | some (id, addr, site, w) =>
      if id = t.tagId then
        { t with
          grant := some ⟨addr, f.cell, w⟩
          siteCode := site
          boostEnd := none
          count := f.beacon
          unheeded := 0 }
      else t
  else t

end Sys2Proof.Machine
end

