-- ==== Sys2Proof/Safety.lean ====
section
/-! DEFINITION. The terms that statements about the part use: when a request can be taken at once, what a step leaves alone, a
run of several commands, what is due at a tick, the layouts of payloads and frames, the Image Checker's tests, the order of
calls and the filing of tags, and the invariants that every step keeps. No step of the part raises a fault, so a run is safe
while the invariants hold. -/

namespace Sys2Proof.Machine

/-! ### Requests -/

/-- The part has its supply, no frame waits before a new request, the Record Handler is IDLE and an outbound place is free: a
request is taken at once (R169). -/
structure Ready (s : State) : Prop where
  powered : s.powered = true
  inbound : s.line.inbound = []
  task    : s.handler.task = .idle
  place   : s.line.outbound.length < 8

/-- The payload length that Table 11-4 gives a kind of the catalogue; for CONFIG-SET and POST-CHANGE the length that the count
or the size in the payload implies (R186). -/
def lengthRight (kind : Byte) (payload : List Byte) : Prop :=
  match kind.toNat with
  | 0x01 | 0x06 | 0x07 | 0x12 | 0x13 | 0x1A => payload.length = 0
  | 0x04 | 0x08 | 0x15 | 0x16 => payload.length = 1
  | 0x0B | 0x18 | 0x19 => payload.length = 2
  | 0x03 | 0x0A => payload.length = 3
  | 0x02 | 0x09 | 0x0D | 0x10 | 0x11 => payload.length = 4
  | 0x0E | 0x0F | 0x14 => payload.length = 6
  | 0x0C => payload.length = 9
  | 0x05 => ∃ count items, payload = count :: items ∧ items.length = 5 * count.toNat
  | 0x17 => 8 ≤ payload.length ∧ payload.length = 8 + field 6 2 payload
  | _ => False

/-- Commands run one after another, each on the state the one before it left. -/
def runCommands : List Instr → State → Out
  | [], s => .next s
  | c :: rest, s =>
    match exec c s with
    | .next t => runCommands rest t
    | .fault f => .fault f
    | .refused r => .refused r

/-! ### The host line's queues -/

/-- Whether a flow-control byte is due (Table 9-1). -/
def HostLine.owesByte (l : HostLine) : Prop := l.flow = .holdDue ∨ l.flow = .goDue

/-- The host line with a frame joined to the inbound queue: the count rising to 12 makes a HOLD due, or takes back a GO that is
due (R167, Table 9-1). A HOLD that comes due while no frame is being sent finds its byte position free (log entry 32). -/
def HostLine.withJoined (l : HostLine) (f : Frame) : HostLine :=
  let line := { l with inbound := l.inbound ++ [f] }
  if l.inbound.length = 11 then
    match l.flow with
    | .flowOpen => { line with flow := .holdDue, flowFree := decide (l.outbound = []) }
    | .goDue => { line with flow := .held, flowFree := false }
    | .holdDue | .held => line
  else line

/-- The host line with the head of the inbound queue taken and `rest` left: the count falling to 4 takes back a HOLD that is due,
or makes a GO due (R167, Table 9-1; log entry 32). -/
def HostLine.withTaken (l : HostLine) (rest : List Frame) : HostLine :=
  let line := { l with inbound := rest }
  if rest.length = 4 then
    match l.flow with
    | .holdDue => { line with flow := .flowOpen, flowFree := false }
    | .held => { line with flow := .goDue, flowFree := decide (l.outbound = []) }
    | .goDue | .flowOpen => line
  else line

/-- Whether a frame is the OK reply to a request kind. -/
def Frame.okReplyTo (f : Frame) (kind : Byte) : Prop := f.kind = kind + 0x80 ∧ f.status = 0

/-- How many OK replies to a request kind stand in a queue. -/
def okReplies (kind : Byte) (frames : List Frame) : Nat := frames.countP fun f => decide (f.kind = kind + 0x80 ∧ f.status = 0)

/-- Whether a rate change or a reset is due: the last byte of its reply has been sent, and it comes before anything else is sent
(R166, R184). -/
def State.lineChanges (s : State) : Prop :=
  okReplies 0x09 s.line.outbound < s.line.rateDue.length
    ∨ (∃ k, s.handler.task = .resetting k) ∧ okReplies 0x08 s.line.outbound = 0

/-- The host line when the outbound frames `before` and then `f` have been sent and `later` waits. A flow-control byte that was due
went ahead of one of them (R167), but for one that came due while `f` itself was being sent, whose position is free now
(log entries 10 and 32). The line took every rate whose SET-LINE reply went out ahead of `f` (R166). -/
def HostLine.afterSending (l : HostLine) (before : List Frame) (f : Frame) (later : List Frame) : HostLine :=
  let waits := decide (before = [] ∧ l.flowFree = false ∧ (l.flow = .holdDue ∨ l.flow = .goDue))
  let taken := l.rateDue.length - okReplies 0x09 (f :: later)
  { l with
    rate := (l.rateDue.take taken).getLastD l.rate
    rateDue := l.rateDue.drop taken
    outbound := later
    flow := if waits then l.flow else match l.flow with
      | .holdDue => .held
      | .goDue => .flowOpen
      | x => x
    flowFree := waits
    lineOut := f.bytes }

/-! ### What is due

The events the part takes by itself at the present tick (log entry 2). -/

/-- The ticks elapsed since the beacon start (R1). -/
def State.ticksElapsed (s : State) : Nat := s.air.geometry.period - 1 - s.air.counter

/-- The next end of an open window without anything heard: its first slot end not yet taken, or its join slot end (R142). -/
def Window.nextEvent (w : Window) (c : Cell) : Instr :=
  if w.slots.all (·.ended) then .joinSlotEnd c .nothing else .slotEnd c none 0

/-- The ticks from the instant to that end: slot i fills the ticks 16 + 30 × i to 45 + 30 × i, and the join slot of n calls ends
26 + 30 × n ticks after the instant (R14, Table 1-4). -/
def Window.ticksToEnd (w : Window) : Nat :=
  if w.slots.all (·.ended) then 26 + 30 * w.slots.length else 16 + 30 * (w.slots.countP (·.ended) + 1)

/-- The time-out of the OUTCOMES_READY latch is due: the timer has reached 4,096 ticks while the latch is ARMED and records wait
below the trigger (R174). -/
def State.timedOut (s : State) : Prop :=
  4096 ≤ s.handler.timer ∧ s.handler.latch = .armed ∧ s.table.outcomes ≠ []
    ∧ s.table.outcomes.length < s.store.working.outcomeTrigger

/-- An event is due at the present tick: the taking of the waiting head frame (R169), the move of a notice (R168, R173), a reset or a
rate change whose reply has been sent (R184, R166), HOLD or GO in a free byte position (R167), the time-out (R174), the next end of
a window at or past its tick (R14, R142), or a cell's instant O_c ticks after the beacon start (R13). -/
def State.isDue (s : State) (i : Instr) : Prop :=
  (∃ f rest, s.line.inbound = f :: rest ∧ s.handler.task = .idle ∧ s.line.outbound.length < 8
    ∧ i = commandOf f.kind f.num f.payload)
  ∨ i = .noticeMove ∧ s.line.outbound.length + s.handler.task.claimed ≤ 6
    ∧ (s.handler.notices.event.isSome = true ∨ (∃ j, (s.handler.notices.campaignDone.get j).isSome = true)
      ∨ s.handler.notices.outcomesReady = true ∨ s.handler.notices.strangers = true)
  ∨ i = .resetActs ∧ (∃ k, s.handler.task = .resetting k) ∧ okReplies 0x08 s.line.outbound = 0
  ∨ i = .lineRateChange ∧ okReplies 0x09 s.line.outbound < s.line.rateDue.length
  ∨ i = .hold ∧ s.line.flow = .holdDue ∧ s.line.flowFree = true ∧ ¬ s.lineChanges
  ∨ i = .go ∧ s.line.flow = .goDue ∧ s.line.flowFree = true ∧ ¬ s.lineChanges
  ∨ i = .outcomesReadyTimeout ∧ s.timedOut
  ∨ (∃ c w, s.cells.windows.get c = some w ∧ i = w.nextEvent c
    ∧ (w.beacon = s.air.beacon ∧ (s.air.geometry.cells.get c).offset + w.ticksToEnd ≤ s.ticksElapsed
      ∨ w.beacon ≠ s.air.beacon ∧ w.beacon ≠ s.air.beacon + 1))
  ∨ ∃ c, i = .cellBeaconInstant c .afterStart ∧ s.ticksElapsed = (s.air.geometry.cells.get c).offset
    ∧ s.planner.last.get c ≠ s.air.beacon ∧ s.cells.windows.get c = none

/-! ### Payload layouts

A number sent in `n` bytes is read back modulo 256^n; the values themselves stay within their fields' ranges. -/

/-- An optional field of `n` bytes after its presence byte at offset `off`, 0 while absent (R185). -/
def optionalAt (off n : Nat) (v : Option Nat) (bs : List Byte) : Prop :=
  field off 1 bs = (if v.isSome then 1 else 0) ∧ field (off + 1) n bs = v.getD 0 % 256 ^ n

/-- Table 11-16, the QUERY-TAG reply of an entry. -/
def TagFields (s : State) (e : Entry) (bs : List Byte) : Prop :=
  bs.length = 47 ∧ field 0 4 bs = e.tagId.toNat ∧ field 4 2 bs = e.addr % 65536 ∧ field 6 1 bs = e.zone.toNat
    ∧ field 7 1 bs = e.pageClass.val
    ∧ field 8 1 bs = (match e.state with | .unseen => 0 | .present => 1 | .lost => 2)
    ∧ optionalAt 9 1 (e.home.map (·.val)) bs ∧ field 11 1 bs = e.believed.val
    ∧ optionalAt 12 1 (e.commanded.map (·.val)) bs ∧ optionalAt 14 3 (e.boostEnd.map (·.toNat)) bs
    ∧ field 18 1 bs = (if e.flash then 1 else 0) ∧ optionalAt 19 2 (e.shown.map (·.toNat)) bs
    ∧ optionalAt 22 2 (e.staged.map (·.serial.toNat)) bs
    ∧ field 25 1 bs = (match e.staged.map (·.condition) with
        | none | some .nil => 0 | some .partly => 1 | some .complete => 2 | some .bad => 3)
    ∧ optionalAt 26 1 (e.link.map (·.toNat)) bs ∧ optionalAt 28 1 (e.battery.map (·.val)) bs
    ∧ field 30 2 bs = e.allowance % 65536 ∧ field 32 2 bs = e.effective % 65536 ∧ field 34 2 bs = e.remaining % 65536
    ∧ field 36 1 bs = e.misses % 256 ∧ optionalAt 37 2 (e.live.map (·.toNat)) bs
    ∧ field 40 1 bs = (match e.link with
        | none => 4
        | some l => if 160 ≤ l.toNat then 1 else if 110 ≤ l.toNat then 2 else if 70 ≤ l.toNat then 3 else 4)
    ∧ (∀ c x, x ∈ s.planner.calendar.get c → x.addr = e.addr →
        field 41 1 bs = 1 ∧ field 42 1 bs = c.val ∧ field 43 3 bs = x.due.toNat)
    ∧ ((∀ c, ∀ x ∈ s.planner.calendar.get c, x.addr ≠ e.addr) →
        field 41 1 bs = 0 ∧ field 42 1 bs = 0 ∧ field 43 3 bs = 0)
    ∧ field 46 1 bs = (if (∃ c, ∃ x ∈ s.planner.boosts.get c, x.addr = e.addr) then 1 else 0)

/-- Table 11-17, the summary of a campaign in the RELEASE-CAMPAIGN reply and the CAMPAIGN_DONE notice. -/
def SummaryFields (i : CampaignIndex) (c : Campaign) (bs : List Byte) : Prop :=
  bs.length = 68 ∧ field 0 1 bs = i.val + 1
    ∧ field 1 4 bs = ((c.activation.map (·.time.toNat)).getD 0)
    ∧ field 5 3 bs = ((c.activation.map (·.beacon.toNat)).getD 0)
    ∧ field 8 1 bs = (match c.activation.map (·.policy) with | some .drop => 1 | none | some .apply => 0)
    ∧ field 9 4 bs = c.admitted.toNat
    ∧ (∀ j t, c.tallies.toList[j]? = some t → field (13 + 4 * j) 4 bs = t.toNat)
    ∧ field 61 2 bs = c.lateCount % 65536 ∧ field 63 2 bs = c.staleCount % 65536
    ∧ field 65 3 bs = ((c.doneBeacon.map (·.toNat)).getD 0)

/-- Table 11-18, the QUERY-CAMPAIGN reply. -/
def CampaignFields (s : State) (i : CampaignIndex) (bs : List Byte) : Prop :=
  let c := s.campaigns.get i
  let count := fun st : ChangeState => s.table.records.countP fun r => decide (r.campaign = some i ∧ r.state = st)
  bs.length = 89 ∧ field 0 1 bs = i.val + 1
    ∧ field 1 1 bs = (match c.state with | .free => 0 | .opened => 1 | .cut => 2 | .done => 3)
    ∧ optionalAt 2 4 (c.activation.map (·.time.toNat)) bs
    ∧ field 7 3 bs = ((c.activation.map (·.beacon.toNat)).getD 0)
    ∧ field 10 1 bs = (match c.activation.map (·.policy) with | some .drop => 1 | none | some .apply => 0)
    ∧ field 11 4 bs = c.admitted.toNat ∧ field 15 2 bs = c.live % 65536
    ∧ (∀ j t, c.tallies.toList[j]? = some t → field (17 + 4 * j) 4 bs = t.toNat)
    ∧ field 65 2 bs = c.lateCount % 65536 ∧ field 67 2 bs = c.staleCount % 65536
    ∧ optionalAt 69 3 (c.doneBeacon.map (·.toNat)) bs
    ∧ (c.state = .opened ∨ c.state = .cut →
        field 73 1 bs = 1
        ∧ (∀ a, c.activation = some a → field 74 3 bs = (a.beacon - s.air.beacon).toNat)
        ∧ field 77 2 bs = count .queued % 65536 ∧ field 79 2 bs = count .sending % 65536
        ∧ field 81 2 bs = count .staged % 65536 ∧ field 83 2 bs = count .withdrawing % 65536
        ∧ field 85 2 bs = count .verifying % 65536 ∧ field 87 2 bs = count .finished % 65536)
    ∧ (c.state = .free ∨ c.state = .done → ∀ off, 73 ≤ off → off < 89 → field off 1 bs = 0)

/-- Table 11-19, the QUERY-CHANGE reply of a record. -/
def ChangeFields (s : State) (r : Change) (bs : List Byte) : Prop :=
  bs.length = 35 ∧ field 0 2 bs = r.serial.toNat ∧ field 2 4 bs = r.sequence.toNat ∧ field 6 2 bs = r.addr % 65536
    ∧ field 8 4 bs = r.tagId.toNat ∧ field 12 1 bs = (r.campaign.map (·.val + 1)).getD 0
    ∧ field 13 1 bs = r.blockCount % 256 ∧ field 14 2 bs = r.checksum.toNat ∧ field 16 1 bs = r.acked % 256
    ∧ field 17 1 bs = (match r.state with
        | .queued => 0 | .sending => 1 | .staged => 2 | .withdrawing => 3 | .verifying => 4 | .finished => 5)
    ∧ field 18 1 bs = (if r.late then 1 else 0) + (if r.staleCut then 2 else 0)
    ∧ optionalAt 19 2 (r.displaced.map (·.toNat)) bs ∧ field 22 1 bs = r.failures % 256
    ∧ field 23 1 bs = r.calls % 256 ∧ field 24 2 bs = r.spent % 65536
    ∧ optionalAt 26 1 (r.outcome.map fun o => o.code.toNat) bs ∧ optionalAt 28 3 (r.finalBeacon.map (·.toNat)) bs
    ∧ optionalAt 32 2 (if r.state = .finished then s.table.retire.findIdx? fun k => decide (k = r.serial) else none) bs

/-- Table 11-7, an outcome record of the FETCH-OUTCOMES reply. -/
def OutcomeFields (o : OutcomeRecord) (bs : List Byte) : Prop :=
  bs.length = 15 ∧ field 0 2 bs = o.serial.toNat ∧ field 2 4 bs = o.tagId.toNat
    ∧ field 6 1 bs = (o.campaign.map (·.val + 1)).getD 0 ∧ field 7 1 bs = o.code.code.toNat
    ∧ field 8 1 bs = (if o.late then 1 else 0) + (if o.staleCut then 2 else 0)
    ∧ field 9 3 bs = o.finalBeacon.toNat ∧ field 12 1 bs = o.calls % 256 ∧ field 13 2 bs = o.spent % 65536

/-- Table 11-6, the POST-CHANGE reply: serial, block count and superseded serial; the derived unit price; the projection; the
sub-reason and offset of an image fault; the final size; and the pool's free count. What is not sent is 0. -/
def postReply (serial : Serial) (blocks : Nat) (superseded : Serial) (price : Option UnitPrice)
    (projection : Option (Beacon × Bool)) (reason : Byte) (offset size free : Nat) : List Byte :=
  le 2 serial.toNat ++ le 1 blocks ++ le 2 superseded.toNat
    ++ (match price with
      | none => [0, 0, 0, 0, 0, 0]
      | some x => 1 :: le 4 x.amount ++ [if x.clamped then 1 else 0])
    ++ (match projection with
      | none => [0, 0, 0, 0, 0]
      | some (b, atRisk) => 1 :: le 3 b.toNat ++ [if atRisk then 1 else 0])
    ++ reason :: le 2 offset ++ le 2 size ++ le 2 free

/-- Table 11-9, a beacon frame: site code, beacon number, cell, mode, call count, the called short addresses in slot order, and the
grant, if one is taken, with the class of its tag; then the check value. -/
def beaconBytes (site : BitVec 16) (b : Beacon) (c : Cell) (mode : Mode) (called : List Nat)
    (grant : Option (Grant × WakeClass)) : List Byte :=
  let frame : List Byte := 0xB1 :: le 2 site.toNat ++ le 3 b.toNat ++ le 1 c.val
    ++ [match mode with | .quiet => (0 : Byte) | .night => 1 | .day => 2] ++ le 1 called.length
    ++ [if grant.isSome then 1 else 0] ++ called.flatMap (le 2 ·)
    ++ (match grant with
      | none => []
      | some (g, w) => le 4 g.tagId.toNat ++ le 2 g.addr ++ le 2 site.toNat ++ le 1 w.val)
  frame ++ le 2 (crc16 frame).toNat

/-! ### The Image Checker (R44 to R48)

A field is named by its offset in the posted image. -/

/-- The type byte of the field at offset `f`. -/
def fieldType (img : List Byte) (f : Nat) : Nat := field f 1 img

/-- The next-field offset of the field at offset `f`. -/
def nextField (img : List Byte) (f : Nat) : Nat := field (f + 4) 2 img

/-- A posted image whose size or header is at fault (R44). -/
def badHeader (img : List Byte) : Prop :=
  img.length < 10 ∨ 1024 < img.length ∨ field 0 1 img ≠ 1 ∨ field 1 1 img ≠ 0 ∨ field 2 2 img ≠ 4

/-- The tests of R47 on the field at offset `f` after the fields `before`, in order: what each gives, and whether it fails. -/
def fieldTests (img : List Byte) (before : List Nat) (f : Nat) : List (SubReason × Bool) :=
  let type := fieldType img f
  let length := field (f + 2) 2 img
  let amount := field (f + 6) 4 img
  let unit := field (f + 10) 1 img
  let basis := field (f + 11) 2 img
  let number := field (f + 6) 1 img
  let limit := if type = 5 then 4 else 1
  let fits := if type = 1 ∨ type = 2 then length = 6 else if type = 3 then length = 7
    else if type = 5 then 1 ≤ length ∧ length ≤ 64 else if type = 6 then 1 ≤ length ∧ length ≤ 20 else length = 1
  let inRange := if type = 1 ∨ type = 2 then amount ≤ 9999999 ∧ unit ≤ 3
    else if type = 3 then 1 ≤ amount ∧ amount ≤ 999999 ∧ 1 ≤ unit ∧ unit ≤ 4 ∧ 1 ≤ basis ∧ basis ≤ 1000
    else if type = 7 then number ≤ 15 else if type = 8 then number ≤ 7 else True
  [(.overrun, decide (img.length < f + 6)), (.tooManyFields, decide (16 ≤ before.length)),
    (.unitPricePosted, decide (type = 4)), (.unknownType, decide (type = 0 ∨ 8 < type)),
    (.badHeader, decide (field (f + 1) 1 img ≠ 0)),
    (.duplicate, decide (limit ≤ before.countP fun g => decide (fieldType img g = type))),
    (.fieldLength, decide ¬ fits), (.overrun, decide (img.length < f + 6 + length)), (.range, decide ¬ inRange),
    (.badOffset, decide (nextField img f ≠ 0 ∧ nextField img f < f + 6 + length))]

/-- The first test of R47 that fails, if one does. -/
def firstFailing (img : List Byte) (before : List Nat) (f : Nat) : Option SubReason :=
  ((fieldTests img before f).find? (·.2)).map (·.1)

/-- The walk of the field chain (R45): it starts at offset 4, and from a field that passes its tests goes on to the field that one
names. `before` are the fields passed, in order, and `f` is the field it has come to. -/
inductive Walk (img : List Byte) : List Nat → Nat → Prop
  | start : Walk img [] 4
  | next {before : List Nat} {f : Nat} : Walk img before f → firstFailing img before f = none → nextField img f ≠ 0 →
      Walk img (before ++ [f]) (nextField img f)

/-- Whether the OLD_PRICE at offset `o` is above the PRICE at offset `p`, in the same decimals and currency (R48, test 2). -/
def priceRaised (img : List Byte) (o p : Nat) : Prop :=
  field (p + 6) 4 img < field (o + 6) 4 img ∧ field (o + 10) 1 img = field (p + 10) 1 img
    ∧ field (o + 11) 1 img = field (p + 11) 1 img

/-! ### Filing -/

/-- A filing at home cell h is due at `due` (R122): λ_h + 1 while a confirmed entry of the tag on h's boost list ends at or after it,
and else the next wake after λ_h of the believed class (log entry 29). -/
def FiledFor (s : State) (e : Entry) (h : Cell) (due : Beacon) : Prop :=
  let next := s.planner.last.get h + 1
  let boosts := (s.planner.boosts.get h).filter fun x => decide (x.addr = e.addr) && x.confirmed
  (boosts ≠ [] → (∀ x ∈ boosts, (x.boostEnd - next).toNat < 8388608) → due = next)
    ∧ ((∀ x ∈ boosts, 8388608 ≤ (x.boostEnd - next).toNat) →
      due = nextWake e.believed e.tagId (s.planner.last.get h))

/-- The Call Planner was told of the tag at short address `a` in state s, and answered with t (Table 7-2, R121): a PRESENT tag with
work and no calendar entry is filed at its home cell, one with an entry keeps it, one without work loses it, and for any other
tag nothing happens. -/
def NoticeTaken (a : Nat) (s t : State) : Prop :=
  (s.entryAt a = none → t = s)
  ∧ ∀ e, s.entryAt a = some e →
    let filed := ∃ d, ∃ y ∈ s.planner.calendar.get d, y.addr = a
    let work := e.commanded.isSome = true ∨ e.flash = true
      ∨ ∃ r, s.liveRecord e = some r ∧ (r.state = .queued ∨ r.state = .sending ∨ r.state = .withdrawing ∨ r.state = .verifying)
    (e.state ≠ .present → t = s)
    ∧ (e.state = .present → work → filed → t = s)
    ∧ (∀ h, e.state = .present → work → ¬ filed → e.home = some h →
      ∃ due calendar, FiledFor s e h due ∧ t = { s with planner.calendar := calendar }
        ∧ ∀ d y, y ∈ calendar.get d ↔ y ∈ s.planner.calendar.get d ∨ d = h ∧ y = ⟨a, due⟩)
    ∧ (e.state = .present → ¬ work → ∃ calendar, t = { s with planner.calendar := calendar }
      ∧ ∀ d y, y ∈ calendar.get d ↔ y ∈ s.planner.calendar.get d ∧ y.addr ≠ a)

/-- What the Call Planner, told of the tag of entry `e` (Table 7-2, R121), leaves of its calendar entry: a PRESENT tag with work keeps
the one it has or, having none, gets one at its home cell, due as `due` says; one without work loses it. Any other tag's stays. -/
def CalendarTold (e : Entry) (work : Prop) (due : Cell → Beacon → Prop) (s t : State) : Prop :=
  let filed := ∃ d, ∃ y ∈ s.planner.calendar.get d, y.addr = e.addr
  let kept := ∀ d y, y.addr = e.addr → (y ∈ t.planner.calendar.get d ↔ y ∈ s.planner.calendar.get d)
  (e.state ≠ .present → kept) ∧ (e.state = .present → work → filed → kept)
    ∧ (∀ h, e.state = .present → work → ¬ filed → e.home = some h →
      ∃ b, due h b ∧ ∀ d y, y.addr = e.addr → (y ∈ t.planner.calendar.get d ↔ d = h ∧ y.due = b))
    ∧ (e.state = .present → ¬ work → ∀ d, ∀ y ∈ t.planner.calendar.get d, y.addr ≠ e.addr)

/-- A filing of entry `e` by its class (R122): due at the next wake after λ_h of the believed class. -/
def ClassFiling (s : State) (e : Entry) (h : Cell) (due : Beacon) : Prop :=
  due = nextWake e.believed e.tagId (s.planner.last.get h)

/-! ### Frames -/

/-- What the work on tags and changes leaves alone: the supply, the settings and the mode, the beacon schedule and the clock,
the heads and windows, the host line, the request in progress, and the model's own fields. -/
structure SameBase (s t : State) : Prop where
  powered   : t.powered = s.powered
  store     : t.store = s.store
  air       : t.air = s.air
  cells     : t.cells = s.cells
  line      : t.line = s.line
  task      : t.handler.task = s.handler.task
  freeIndex : t.freeIndex = s.freeIndex
  pending   : t.pending = s.pending

/-- What the work on changes leaves of the directory: grants and strangers, and every entry but for its live change. -/
structure SameTags (s t : State) : Prop where
  grants    : t.dir.grants = s.dir.grants
  strangers : t.dir.strangers = s.dir.strangers
  entries   : t.dir.entries.map (fun e => { e with live := none }) = s.dir.entries.map (fun e => { e with live := none })

/-- What the work on the tag at short address `a` leaves alone: every other entry, the strangers, the calendar entries and the
boost list entries of the other tags, and the last instants. -/
structure OthersKept (a : Nat) (s t : State) : Prop where
  entries   : ∃ f : Entry → Entry, t.dir.entries = s.dir.entries.map fun x => if x.addr = a then f x else x
  strangers : t.dir.strangers = s.dir.strangers
  last      : t.planner.last = s.planner.last
  calendar  : ∀ d y, y.addr ≠ a → (y ∈ t.planner.calendar.get d ↔ y ∈ s.planner.calendar.get d)
  boosts    : ∀ d y, y.addr ≠ a → (y ∈ t.planner.boosts.get d ↔ y ∈ s.planner.boosts.get d)

/-! ### Outcomes -/

/-- The outcome record a record leaves when it finishes with a code at beacon `b` (R81, R83). -/
def Change.finishedWith (r : Change) (code : OutcomeCode) (b : Beacon) : OutcomeRecord :=
  ⟨r.serial, r.tagId, r.campaign, code, r.late, r.staleCut, b, r.calls, r.spent⟩

/-- A record has finished with an outcome record: that stands in the outcome list, or the record waits in the table, FINISHED, and
its serial in the retire queue (R81, R82). -/
def FinishedAs (t : State) (o : OutcomeRecord) : Prop :=
  o ∈ t.table.outcomes
    ∨ o.serial ∈ t.table.retire
      ∧ ∃ q ∈ t.table.records, q.serial = o.serial ∧ q.state = .finished ∧ q.outcomeRecord = some o

/-- The tallies with some outcome records counted in (R94). -/
def Tallies.counting (a : Tallies) (moved : List OutcomeRecord) : Tallies := moved.foldl (fun a o => a.bump o.code) a

/-- Records have passed from the retire queue of s into the outcome list of t (R82), in their order and while the list has room. Each
has left the table and is tallied (R94); a CUT campaign becomes DONE, with its notice, when a tally brings their sum to its
admitted count (R103, R104), and only then; and a list they bring up to the trigger with the latch ARMED makes the latch SPENT
and places OUTCOMES_READY (R174). -/
def Passes (s t : State) : Prop :=
  ∃ j : Nat,
    let moved := (s.table.retire.take j).eraseDups.filterMap fun k => (s.recordOf k).bind Change.outcomeRecord
    let ready := s.handler.latch = .armed ∧ moved ≠ [] ∧ s.store.working.outcomeTrigger ≤ t.table.outcomes.length
    t.table = { s.table with
        outcomes := s.table.outcomes ++ moved
        retire := s.table.retire.drop j
        records := s.table.records.filter fun r => decide (r.serial ∉ moved.map (·.serial)) }
    ∧ (s.table.retire.drop j = [] ∨ 1024 ≤ t.table.outcomes.length)
    ∧ (moved ≠ [] → t.table.outcomes.length ≤ 1024)
    ∧ (∀ i, let before := s.campaigns.get i
      let mine := moved.filter fun o => decide (o.campaign = some i)
      let counted := fun n : Nat => { before with tallies := before.tallies.counting (mine.take n) }
      let completes := fun n : Nat => before.state = .cut ∧ 1 ≤ n ∧ n ≤ mine.length
        ∧ before.admitted = (counted n).tallies.sum
      let done := fun n : Nat => { counted n with state := .done, doneBeacon := some s.air.beacon }
      ((∀ n, ¬ completes n) → t.campaigns.get i = counted mine.length
        ∧ t.handler.notices.campaignDone.get i = s.handler.notices.campaignDone.get i)
      ∧ ∀ n, completes n → (∀ m, m < n → ¬ completes m) → t.campaigns.get i = done mine.length
        ∧ t.handler.notices.campaignDone.get i = some (done n))
    ∧ t.handler.latch = (if ready then .spent else s.handler.latch)
    ∧ t.handler.timer = (if ready then 0 else s.handler.timer)
    ∧ t.handler.notices.outcomesReady = (if ready then true else s.handler.notices.outcomesReady)

/-- The record `r` of s, as it stands when it ends, finishes with a code (R81, R82): FINISHED, with the code and the final beacon, it
joins the tail of the retire queue, its blocks are released and its campaign has one live record fewer; then what can pass does,
and OUTCOME_BACKLOG is set where it cannot. No other record changes, and the next serial and sequence stay. -/
def RecordEnds (r : Change) (code : OutcomeCode) (s t : State) : Prop :=
  Passes { s with
      table := { s.table with
        records := s.table.records.map fun q =>
          if q.serial = r.serial then
            { r with state := .finished, outcome := some code, finalBeacon := some s.air.beacon }
          else q
        retire := s.table.retire ++ [r.serial] }
      campaigns := match r.campaign with
        | none => s.campaigns
        | some i => s.campaigns.set i { s.campaigns.get i with live := (s.campaigns.get i).live - 1 } } t
    ∧ t.pool = s.pool.release r.serial
    ∧ (Flag.outcomeBacklog.isIn t.handler.flags = true ↔
      Flag.outcomeBacklog.isIn s.handler.flags = true ∨ r.serial ∈ t.table.retire)

/-! ### The cut -/

/-- The late policy a record meets at the coming beacon start: its campaign's, where that is cut there (R95). -/
def State.cutPolicy (s : State) (r : Change) : Option LatePolicy :=
  r.campaign.bind fun i =>
    match (s.campaigns.get i).state, (s.campaigns.get i).activation with
    | .opened, some a => if a.beacon = s.air.beacon + 1 then some a.policy else none
    | _, _ => none

/-- Whether a record ends at the coming beacon start's cut: WITHDRAWING, or QUEUED or SENDING under DROP (Table 5-5). -/
def State.endsAtCut (s : State) (r : Change) : Bool :=
  match s.cutPolicy r with
  | none => false
  | some policy => decide (r.state = .withdrawing ∨ policy = .drop ∧ (r.state = .queued ∨ r.state = .sending))

/-! ### Calls and slots -/

/-- The blocks per slot of a link level's tier (R32, Table 2-3). -/
def blocksPerSlot : Option Byte → Nat
  | none => 1
  | some l => if 160 ≤ l.toNat then 8 else if 110 ≤ l.toNat then 4 else if 70 ≤ l.toNat then 2 else 1

/-- What orders a due tag at beacon `b`: its urgency group (R127) and its key there (Table 7-3), the distance to E, the age of the
admission sequence, or the slack (R129). -/
def State.urgency (s : State) (b : Beacon) (e : Entry) : Nat × Int :=
  match s.liveRecord e with
  | none => (5, 0)
  | some r =>
    let act : Beacon := (r.campaign.bind fun i => (s.campaigns.get i).activation.map (·.beacon)).getD 0
    match r.state with
    | .withdrawing => (1, (act - b).toInt)
    | .queued | .sending =>
      if r.late = true ∨ r.campaign = none then (2, -((s.table.nextSequence - r.sequence).toNat : Int))
      else
        let k := blocksPerSlot e.link
        let slots : Int := ((r.blockCount - r.acked + k - 1) / k : Nat)
        let completion := b + BitVec.ofInt 24 ((slots - 1) * 2 ^ e.believed.val)
        (3, (act - BitVec.ofNat 24 s.store.working.guardBeacons - completion).toInt)
    | .verifying => (4, 0)
    | .staged | .finished => (5, 0)

/-- The order of two due tags (R127, R128). -/
def State.calledBefore (s : State) (b : Beacon) (d e : Entry) : Prop :=
  let x := s.urgency b d
  let y := s.urgency b e
  x.1 < y.1 ∨ x.1 = y.1 ∧ (x.2 < y.2 ∨ x.2 = y.2 ∧ d.addr < e.addr)

/-- The boost cost of a boost confirmed at beacon `b` with boost end `u` (R114): each of the D beacons after `b` that is no wake of
the tag's class. -/
def boostPrice (b u : Beacon) (w : WakeClass) (id : TagId) (perWake : Nat) : Nat :=
  let d := (u - b).toInt.toNat
  (d - (List.range d).countP fun i =>
    decide ((b + BitVec.ofNat 24 (i + 1)).toNat % 2 ^ w.val = id.toNat % 2 ^ w.val)) * perWake

/-- The next slot of cell c's window has the snapshot `p`, and `windows` are the windows once that slot's end is taken. -/
def NextSlot (s : State) (c : Cell) (p : Snapshot) (windows : Quad (Option Window)) : Prop :=
  ∃ w before downlink after, s.cells.windows.get c = some w ∧ w.slots = before ++ ⟨p, downlink, false⟩ :: after
    ∧ (∀ x ∈ before, x.ended = true)
    ∧ windows = s.cells.windows.set c (some { w with slots := before ++ ⟨p, downlink, true⟩ :: after })

/-- A report as a tag may send it (R150, Table 11-11): its next expected block is at most 32, and staged none is serial 0 with
condition NONE. -/
def Report.Sendable (r : Report) : Prop := r.nextBlock ≤ 32 ∧ (r.staged.serial = 0 ↔ r.staged.condition = .nil)

/-! ### Invariants -/

/-- The charge law of R107: in every entry R is at most A_eff, A_eff at most A, and A at most 65,535. -/
def ChargeLaw (s : State) : Prop :=
  ∀ e ∈ s.dir.entries, e.remaining ≤ e.effective ∧ e.effective ≤ e.allowance ∧ e.allowance ≤ 65535

/-- The directory's positions and ids (R21): the short addresses rise strictly below 16,384, and no two entries hold one
tag id. -/
def DirectoryLaw (s : State) : Prop :=
  s.dir.entries.Pairwise (fun d e => d.addr < e.addr) ∧ (∀ e ∈ s.dir.entries, e.addr < 16384)
    ∧ (s.dir.entries.map (·.tagId)).Nodup

/-- The bounds of the queues and lists: 16 inbound frames, 8 outbound places with the claimed one, 1,024 outcome records,
16 strangers, 4 grants and 16 boosts in each cell; a tag has at most one grant across all grant queues, and at most one stranger
record (R38, R40, R82, R133, R167, R168). -/
def QueueBounds (s : State) : Prop :=
  s.line.inbound.length ≤ 16 ∧ s.line.outbound.length + s.handler.task.claimed ≤ 8
    ∧ s.table.outcomes.length ≤ 1024 ∧ s.dir.strangers.length ≤ 16
    ∧ (∀ c, (s.dir.grants.get c).length ≤ 4) ∧ (∀ c, (s.planner.boosts.get c).length ≤ 16)
    ∧ (s.dir.grants.toList.flatten.map (·.tagId)).Nodup ∧ (s.dir.strangers.map (·.tagId)).Nodup

/-- The pool's blocks, free and in use, are 32,768 together (R56). -/
def PoolLaw (s : State) : Prop := s.pool.free + s.pool.used = 32768

/-- The blocks in use are the blocks of the records not FINISHED (R56): the pool holds, for each such record and no other, as many
blocks as its block count says. -/
def HoldingLaw (s : State) : Prop :=
  (s.pool.held.map fun x => (x.serial, x.blocks.length)).Perm
    ((s.table.records.filter fun r => decide (r.state ≠ .finished)).map fun r => (r.serial, r.blockCount))

/-- A tag has at most one wake calendar entry and at most one boost list entry across all cells (R120, R133). -/
def OneFiling (s : State) : Prop :=
  (s.planner.calendar.toList.flatten.map (·.addr)).Nodup ∧ (s.planner.boosts.toList.flatten.map (·.addr)).Nodup

/-- A calendar entry lies in the calendar of its tag's home cell, and its tag is an enrolled PRESENT one with work: an order, or a
live change QUEUED, SENDING, WITHDRAWING or VERIFYING (R120, R121). -/
def FilingLaw (s : State) : Prop :=
  ∀ c, ∀ y ∈ s.planner.calendar.get c, ∃ e ∈ s.dir.entries, e.addr = y.addr ∧ e.state = .present ∧ e.home = some c
    ∧ (e.commanded.isSome = true ∨ e.flash = true ∨ (s.liveRecord e).any (fun r =>
      decide (r.state = .queued ∨ r.state = .sending ∨ r.state = .withdrawing ∨ r.state = .verifying)) = true)

/-- The change table's bounds: at most 4,096 records, of distinct nonzero serials, with 0 ≤ a ≤ n ≤ 32 in each, and an outcome
in a FINISHED record alone (R61, R62, R64). -/
def TableLaw (s : State) : Prop :=
  s.table.records.length ≤ 4096 ∧ (s.table.records.map (·.serial)).Nodup
    ∧ ∀ r ∈ s.table.records, r.serial ≠ 0 ∧ r.acked ≤ r.blockCount ∧ r.blockCount ≤ 32
      ∧ (r.outcome.isSome = true → r.state = .finished)

/-- An entry's live change names a record of that tag in a live state, and every record in a live state is the live change of the
entry at its short address (R62). -/
def LiveLaw (s : State) : Prop :=
  (∀ e ∈ s.dir.entries, ∀ k, e.live = some k →
    ∃ r ∈ s.table.records, r.serial = k ∧ r.addr = e.addr ∧ r.tagId = e.tagId ∧ r.state ≠ .finished)
  ∧ ∀ r ∈ s.table.records, r.state ≠ .finished → ∃ e ∈ s.dir.entries, e.addr = r.addr ∧ e.live = some r.serial

/-- The records of campaign `i` in the change table, live or FINISHED. -/
def State.campaignRecords (s : State) (i : CampaignIndex) : Nat :=
  s.table.records.countP fun r => decide (r.campaign = some i)

/-- The accounts of R94 and R103: a campaign's admitted count is the sum of its tallies plus its records in the change table,
modulo 2^32, and a campaign FREE or DONE has no record there. -/
def CampaignLaw (s : State) : Prop :=
  ∀ i : CampaignIndex,
    (s.campaigns.get i).admitted = (s.campaigns.get i).tallies.sum + BitVec.ofNat 32 (s.campaignRecords i)
    ∧ ((s.campaigns.get i).state = .free ∨ (s.campaigns.get i).state = .done → s.campaignRecords i = 0)

/-- A campaign's live count is the number of its records in a live state (R87, R94). -/
def LiveCountLaw (s : State) : Prop :=
  ∀ i : CampaignIndex, (s.campaigns.get i).live
    = s.table.records.countP fun r => decide (r.campaign = some i ∧ r.state ≠ .finished)

/-- The ranges of Table 10-1 and the window checks of R16. -/
structure Settings.Legal (w : Settings) : Prop where
  period           : 512 ≤ w.period ∧ w.period ≤ 8192
  groups           : ∀ c, (w.cells.get c).group ≤ 3
  capacityNight    : 1 ≤ w.capacityNight ∧ w.capacityNight ≤ 12
  capacityDay      : w.capacityDay ≤ w.capacityNight
  costs            : w.callCost ≤ 255 ∧ w.blockCost ≤ 255 ∧ w.reportCost ≤ 255 ∧ w.boostWakeCost ≤ 255
  defaultAllowance : w.defaultAllowance ≤ 65535
  missLimit        : 1 ≤ w.missLimit ∧ w.missLimit ≤ 15
  guardBeacons     : w.guardBeacons ≤ 64
  span             : 8 ≤ w.span ∧ w.span ≤ 128
  refreshTime      : w.refreshTime ≤ 86399
  outcomeTrigger   : 1 ≤ w.outcomeTrigger ∧ w.outcomeTrigger ≤ 64
  fits             : w.fits = true

/-- The settings are legal, the geometry in force passes the window checks, and the tick counter lies below the period in
force (R1, R3, R16, R176). -/
def SettingsLaw (s : State) : Prop :=
  s.store.working.Legal
    ∧ windowsFit s.air.geometry.period s.air.geometry.capacityNight s.air.geometry.cells = true
    ∧ s.air.counter < s.air.geometry.period

/-- A site code of 0 keeps the part in QUIET (R43, R177, R182). -/
def SiteLaw (s : State) : Prop := s.store.working.siteCode = 0 → s.store.mode = .quiet

/-- All the invariants. -/
structure Inv (s : State) : Prop where
  charge    : ChargeLaw s
  directory : DirectoryLaw s
  queues    : QueueBounds s
  pool      : PoolLaw s
  holding   : HoldingLaw s
  filing    : OneFiling s
  calendar  : FilingLaw s
  table     : TableLaw s
  live      : LiveLaw s
  campaigns : CampaignLaw s
  counts    : LiveCountLaw s
  settings  : SettingsLaw s
  site      : SiteLaw s

end Sys2Proof.Machine
end

