-- ==== Sys2Proof/Certificates/Slice0/Obligations.lean ====
section
/-! DEFINITION. The statements about the part, for the provers. A request's statement is made for a part that is `Ready`: its
frame is then taken and answered at once (R169); `RequestTakenOrWaits` and `RequestAgreesWithItsBytes` say how every other
request comes to that. The frame of such a statement is the record update it ends in: what the update does not name is as it
was. -/

open Sys2Proof Sys2Proof.Machine

/-! ### The queue of commands, the tick, the supply -/

/-- A step with a command in front runs that command on the state with the queue's rest. -/
def Obligations.StepRunsFrontCommand : Prop :=
  ∀ (c : Instr) (rest : List Instr) (s : State),
    step { s with pending := c :: rest } = exec c { s with pending := rest }

/-- With no command waiting the part goes on by itself (the model's choice of how: log entries 2 and 5). What is due at the
present tick (R13, R14, R142, R166 to R169, R173, R174, R184) is a request that can be taken, a notice with two free places, a
reset or a rate change whose reply has been sent, a flow-control byte whose position is free (log entry 32), the time-out at
4,096 ticks, the next slot end or join slot end of an open window at its tick, and an instant at its cell's offset; it joins the
queue in some order, a time-out kept back behind other events, and whatever follows a reset that acts. With nothing due, one
tick passes: the counter falls by 1, the clock rises by 1 and wraps as a whole, and the wait timer rises while the latch is
ARMED and an outcome waits (R1, R7, R174). The tick that carries the seconds of a SET clock through the refresh time queues
REFRESH_CROSSING, and no other tick does (R10). An underflow queues, behind the ends of the windows that end with their beacon,
the beacon start with the instants of the cells whose offset will be 0 before or behind it, none before it while a preset is
pending (R13, R99), and a time-out that is then due. -/
def Obligations.EmptyQueueTicks : Prop :=
  ∀ s : State, s.powered = true → s.pending = [] →
    let ticked : State := { s with
      air.counter := s.air.counter - 1
      air.clock := s.air.clock + 1
      handler.timer := if s.handler.latch = .armed ∧ s.table.outcomes ≠ [] then s.handler.timer + 1 else s.handler.timer }
    let crosses := s.air.clockSet = true ∧ (s.air.clock + 1).toNat % 1024 = 0
      ∧ (s.air.clock + 1).toNat / 1024 % 86400 = s.store.working.refreshTime
    let nothing := ∀ i, ¬ s.isDue i
    ((∃ i, s.isDue i) → ∃ order waiting free, step s = .next { s with pending := waiting, freeIndex := free }
      ∧ order.Nodup ∧ (∀ i, i ∈ order ↔ s.isDue i) ∧ waiting.Sublist order ∧ waiting.head? = order.head?
      ∧ (∀ i ∈ order, i ∉ waiting → i = .outcomesReadyTimeout ∨ .resetActs ∈ order)
      ∧ (.outcomesReadyTimeout ∉ order → .resetActs ∉ order → waiting = order))
    ∧ (nothing → 0 < s.air.counter → ¬ crosses → step s = .next ticked)
    ∧ (nothing → 0 < s.air.counter → crosses →
      ∃ order waiting free, step s = .next { ticked with pending := waiting, freeIndex := free }
        ∧ order.Nodup ∧ (∀ i, i ∈ order ↔ i = .refreshCrossing ∨ ticked.isDue i) ∧ waiting.Sublist order
        ∧ .refreshCrossing ∈ waiting)
    ∧ (nothing → s.air.counter = 0 →
      ∃ ahead behind free, step s = .next { ticked with pending := ahead ++ .beaconStart :: behind, freeIndex := free }
        ∧ .beaconStart ∉ ahead ∧ .beaconStart ∉ behind
        ∧ (.refreshCrossing ∈ ahead ++ behind ↔ crosses)
        ∧ (.outcomesReadyTimeout ∈ ahead ++ behind ↔ ticked.timedOut)
        ∧ (∀ c w, s.cells.windows.get c = some w → w.beacon = s.air.beacon → w.nextEvent c ∈ ahead)
        ∧ (∀ i ∈ ahead ++ behind, i = .refreshCrossing ∨ i = .outcomesReadyTimeout
          ∨ (∃ c w, s.cells.windows.get c = some w ∧ w.beacon = s.air.beacon ∧ i = w.nextEvent c)
          ∨ ∃ c o, i = .cellBeaconInstant c o)
        ∧ ∀ c : Cell,
          ((∃ o, .cellBeaconInstant c o ∈ ahead ++ behind) ↔ (s.store.working.cells.get c).offset = 0)
          ∧ (∀ o, .cellBeaconInstant c o ∈ ahead → o = .beforeStart ∧ s.air.preset = none)
          ∧ (∀ o, .cellBeaconInstant c o ∈ behind → o = .afterStart))

/-- Without supply no command but POWER_ON does anything (the model's choice: log entries 4 and 9); a loss of supply in a
settings write leaves the stored block failing its check value, and otherwise the block stands (R181). POWER_ON (R180): a valid
stored block gives its settings and no flag; a block never written, or left by a failed write or a loss of power, gives the
defaults and SETTINGS_DEFAULTED. Either way beacon 0 starts and every block is empty. That a POWER_ON with supply is taken so too,
that the instants of beacon 0 come behind it, and the values of the model's own fields are log entries 9,
25 and 20; the byte order within the block is the model's choice (log entry 33). -/
def Obligations.SupplyRule : Prop :=
  let started := fun (w : Settings) (used : Bool) (stored : StoredBlock) (heads : BitVec 4) (s : State) =>
    ({ powered := true
       store := ⟨w, used, used, .quiet, stored⟩
       air := ⟨w.period - 1, ⟨w.period, w.cells, w.capacityNight, w.capacityDay⟩, 0, none, 0, false⟩
       dir := ⟨[], ⟨[], [], [], []⟩, []⟩
       pool := ⟨32768, []⟩
       table := ⟨[], [], [], 1, 0⟩
       campaigns := ⟨Campaign.freeEntry, Campaign.freeEntry, Campaign.freeEntry, Campaign.freeEntry⟩
       planner := ⟨⟨[], [], [], []⟩, ⟨16777215, 16777215, 16777215, 16777215⟩, ⟨[], [], [], []⟩⟩
       cells := ⟨⟨heads.getLsbD 0, heads.getLsbD 1, heads.getLsbD 2, heads.getLsbD 3⟩, ⟨none, none, none, none⟩⟩
       line := ⟨.hunt, [], [], [], .flowOpen, false, w.lineRate, [], []⟩
       handler := ⟨.idle, if used then 0x008 else 0x000, NoticeSet.empty, .armed, 0⟩
       freeIndex := s.freeIndex
       pending := s.pending } : State)
  (∀ (c : Instr) (s : State), s.powered = false → (∀ heads, c ≠ .powerOn heads) → exec c s = .next s)
  ∧ (∀ s : State, s.powered = true →
    ((∃ num copied, s.handler.task = .saving num copied) →
      exec .powerLoss s = .next { s with powered := false, store.stored := .damaged })
    ∧ ((∀ num copied, s.handler.task ≠ .saving num copied) → exec .powerLoss s = .next { s with powered := false }))
  ∧ ∀ (heads : BitVec 4) (w : Settings) (s : State),
      s.powered = false ∨ (∀ num copied, s.handler.task ≠ .saving num copied) →
      (w.Legal → s.store.stored = .written w.storedBytes →
        exec (.powerOn heads) s = .next (started w false s.store.stored heads s))
      ∧ (s.store.stored = .unwritten ∨ s.store.stored = .damaged →
        exec (.powerOn heads) s = .next (started Settings.defaults true s.store.stored heads s))

/-! ### Taking requests (R169, R186, R189) -/

/-- A kind outside the catalogue is answered UNKNOWN_KIND, and a known kind with a payload of a wrong length BAD_LENGTH, each
with the body header alone; nothing else changes. -/
def Obligations.BadRequestsAnswered : Prop :=
  ∀ (kind num : Byte) (payload : List Byte) (s : State), Ready s →
    (knownKind kind = false → exec (.unknownKind kind num payload) s
      = .next { s with line.outbound := s.line.outbound ++ [⟨kind + 0x80, num, 0x01, []⟩] })
    ∧ (knownKind kind = true → ¬ lengthRight kind payload → exec (commandOf kind num payload) s
      = .next { s with line.outbound := s.line.outbound ++ [⟨kind + 0x80, num, 0x02, []⟩] })

/-- A request row whose frame is not the one waiting at the head of the inbound queue stands for the completion of its frame, and
one whose frame is, for its taking (the model's choice: log entry 1). A request behind other frames joins the queue, the
count rising to 12 moving flow control, or finds it full and is discarded with INBOUND_OVERRUN. One that the Record Handler may
not take waits. One that waits at the head is taken while the Record Handler is IDLE and an outbound place is free: it does
what it does to a part with no frame waiting, the frames behind it move up, the count falling to 4 moving flow control, and
only a STATUS reply tells their number (R164, R167, R169, R175; log entry 32). -/
def Obligations.RequestTakenOrWaits : Prop :=
  ∀ (kind num : Byte) (payload : List Byte) (s : State), s.powered = true →
    (∀ g rest, s.line.inbound = g :: rest → (g.kind, g.num, g.payload) ≠ (kind, num, payload) →
      (s.line.inbound.length < 16 →
        exec (commandOf kind num payload) s = .next { s with line := s.line.withJoined ⟨kind, num, 0, payload⟩ })
      ∧ (16 ≤ s.line.inbound.length →
        exec (commandOf kind num payload) s = .next (raiseFlag .inboundOverrun s)))
    ∧ (s.handler.task ≠ .idle ∨ 8 ≤ s.line.outbound.length →
      (s.line.inbound = [] →
        exec (commandOf kind num payload) s = .next { s with line.inbound := [⟨kind, num, 0, payload⟩] })
      ∧ (∀ g rest, s.line.inbound = g :: rest → (g.kind, g.num, g.payload) = (kind, num, payload) →
        exec (commandOf kind num payload) s = .next s))
    ∧ (s.handler.task = .idle → s.line.outbound.length < 8 → ∀ g rest, s.line.inbound = g :: rest →
      (g.kind, g.num, g.payload) = (kind, num, payload) →
      let taken := s.line.withTaken rest
      (kind ≠ 0x01 ∨ payload ≠ [] →
        ∃ t, exec (commandOf kind num payload) { s with line.inbound := [] } = .next t
          ∧ exec (commandOf kind num payload) s = .next { t with
              line.inbound := rest, line.flow := taken.flow, line.flowFree := taken.flowFree })
      ∧ (kind = 0x01 → payload = [] →
        ∃ first, exec (.status num []) { s with line.inbound := [] } = .next { s with
              line.inbound := []
              line.outbound := s.line.outbound ++ [⟨0x81, num, 0x00, first ++ [0]⟩] }
          ∧ exec (.status num []) s = .next { s with
              line := { taken with outbound := s.line.outbound ++ [⟨0x81, num, 0x00, first ++ le 1 rest.length⟩] } }))

/-! ### The receiver (R160 to R165) -/

/-- The start byte takes a receiver from HUNT into LENGTH with an empty partial frame, and the bytes of a frame, given one by
one to a receiver in HUNT, offer that frame to the inbound queue: it joins the tail, or finds 16 frames there and sets
INBOUND_OVERRUN. Whether a HOLD that the twelfth frame makes due finds its byte position free is the model's reading (DEDUCED,
log entry 32). -/
def Obligations.FrameReceivedByteByByte : Prop :=
  ∀ (f : Frame) (s : State), s.powered = true → s.line.rx = .hunt → s.line.partials = [] → f.payload.length ≤ 1097 →
    exec (.hostByteReceived 0xC3 false) s = .next { s with line.rx := .length }
    ∧ runCommands (f.bytes.map fun b => .hostByteReceived b false) s = .next (
        if s.line.inbound.length < 16 then { s with line := s.line.withJoined f }
        else raiseFlag .inboundOverrun s)

/-- What the receiver discards: a byte other than the start byte in HUNT; a frame with a faulty byte, an idle gap or a body
length outside 3..1,100, each with FRAME_DROPPED; and a frame whose check bytes differ, with LINE_CHECK. -/
def Obligations.ReceiverDiscards : Prop :=
  (∀ (b : Byte) (faulty : Bool) (s : State), s.powered = true → s.line.rx = .hunt → b ≠ 0xC3 ∨ faulty = true →
    exec (.hostByteReceived b faulty) s = .next s)
  ∧ (∀ s : State, s.powered = true → s.line.rx = .hunt → exec .idleGap s = .next s)
  ∧ (∀ (b : Byte) (s : State), s.powered = true → s.line.rx ≠ .hunt →
    exec (.hostByteReceived b true) s
        = .next (raiseFlag .frameDropped { s with line.rx := .hunt, line.partials := [] })
      ∧ exec .idleGap s = .next (raiseFlag .frameDropped { s with line.rx := .hunt, line.partials := [] }))
  ∧ (∀ (n : BitVec 16) (s : State), s.powered = true → s.line.rx = .hunt → s.line.partials = [] →
    n.toNat < 3 ∨ 1100 < n.toNat →
    runCommands (((0xC3 : Byte) :: le 2 n.toNat).map fun b => .hostByteReceived b false) s
      = .next (raiseFlag .frameDropped s))
  ∧ (∀ (f : Frame) (x y : Byte) (s : State), s.powered = true → s.line.rx = .hunt → s.line.partials = [] →
    f.payload.length ≤ 1097 → [x, y] ≠ le 2 (crc16 (le 2 f.body.length ++ f.body)).toNat →
    runCommands ((0xC3 :: le 2 f.body.length ++ f.body ++ [x, y]).map fun b => .hostByteReceived b false) s
      = .next (raiseFlag .lineCheck s))

/-- A request row of a well-formed request gives the state that its frame's bytes give, and, where no frame waited, its taking
after them, whatever the Record Handler is doing; behind another frame the bytes alone are the row (the model's reading of a
request row: log entry 1). -/
def Obligations.RequestAgreesWithItsBytes : Prop :=
  ∀ (i : Instr) (f : Frame) (s : State), requestOf i = some f → i.wellFormed = true → s.powered = true →
    s.line.rx = .hunt → s.line.partials = [] →
    (s.line.inbound = [] → runCommands (f.bytes.map (fun b => .hostByteReceived b false) ++ [i]) s = exec i s)
    ∧ (∀ g rest, s.line.inbound = g :: rest → (g.kind, g.num, g.payload) ≠ (f.kind, f.num, f.payload) →
      runCommands (f.bytes.map fun b => .hostByteReceived b false) s = exec i s)

/-- A line break empties both queues, puts the receiver in HUNT and flow control in FLOW_OPEN, and changes nothing else; a rate
whose SET-LINE reply is lost is taken, a frame it begins in sets FRAME_DROPPED (log entry 11), and a RESET whose reply is lost
acts (R163, R165, R166, R184). -/
def Obligations.LineBreakRule : Prop :=
  ∀ s : State, s.powered = true →
    let broken : State := { s with line := {
      rx := .hunt, partials := [], inbound := [], outbound := [], flow := .flowOpen, flowFree := false
      rate := s.line.rateDue.getLastD s.line.rate, rateDue := [], lineOut := s.line.lineOut } }
    let t := if s.line.rx = .hunt then broken else raiseFlag .frameDropped broken
    ((∀ k, s.handler.task ≠ .resetting k) → exec .lineBreak s = .next t)
    ∧ (∀ k, s.handler.task = .resetting k → exec .lineBreak s = exec .resetActs t)

/-! ### Sending (R166 to R168, R173) -/

/-- HOLD and GO are sent when due and their byte position is free, and never else (else the command does nothing: log entries 4
and 18); the frame at the head of the outbound queue leaves it when its last byte has been sent, and a flow-control byte then
due has its position free and goes ahead of the next frame (R167, R168; log entry 32). While a rate change or a reset is due,
its reply's last byte having been sent, nothing is sent before it (R166, R184). `lineOut` is the model's own record of the
bytes sent (log entry 20). -/
def Obligations.SendingRule : Prop :=
  ∀ s : State, s.powered = true →
    (s.line.flow = .holdDue → s.line.flowFree = true → ¬ s.lineChanges → exec .hold s = .next { s with
        line.flow := .held, line.flowFree := false, line.lineOut := [0x91] })
    ∧ (s.line.flow ≠ .holdDue ∨ s.line.flowFree = false ∨ s.lineChanges → exec .hold s = .next s)
    ∧ (s.line.flow = .goDue → s.line.flowFree = true → ¬ s.lineChanges → exec .go s = .next { s with
        line.flow := .flowOpen, line.flowFree := false, line.lineOut := [0x92] })
    ∧ (s.line.flow ≠ .goDue ∨ s.line.flowFree = false ∨ s.lineChanges → exec .go s = .next s)
    ∧ (s.line.outbound = [] ∨ (s.line.owesByte ∧ s.line.flowFree = true) ∨ s.lineChanges →
        exec .outboundFrameSent s = .next s)
    ∧ (∀ f rest, s.line.outbound = f :: rest → ¬ (s.line.owesByte ∧ s.line.flowFree = true) → ¬ s.lineChanges →
        ∃ free, (free = true ↔ s.line.owesByte) ∧ exec .outboundFrameSent s = .next { s with
          line.outbound := rest
          line.flowFree := free
          line.lineOut := 0xC3 :: le 2 (3 + f.payload.length) ++ f.kind :: f.num :: f.status :: f.payload
            ++ le 2 (crc16 (le 2 (3 + f.payload.length) ++ f.kind :: f.num :: f.status :: f.payload)).toNat })

/-- SET-LINE sets the line rate item and answers at the old rate; the line takes the rate when the reply has been sent, also where
it is the rate in force (log entry 13). A value that is no rate is refused BAD_VALUE. LINE_RATE_CHANGE is the moment the reply
has been sent: a reply still in the queue is sent by it, with the frames ahead of it (the model's reading: log entry 10;
`lineOut` is the model's own: log entry 20). With no rate to take it does nothing (the model's choice: log entry 4). -/
def Obligations.SetLineRule : Prop :=
  (∀ (num : Byte) (r : LineRate) (s : State), Ready s →
    exec (.setLine num (le 4 r.value)) s = .next { s with
      store.working := { s.store.working with lineRate := r }
      store.unsaved := s.store.unsaved || decide (r ≠ s.store.working.lineRate)
      line.rateDue := s.line.rateDue ++ [r]
      line.outbound := s.line.outbound ++ [⟨0x89, num, 0x00, le 4 r.value⟩] })
  ∧ (∀ (num : Byte) (v : BitVec 32) (s : State), Ready s → (∀ r : LineRate, v.toNat ≠ r.value) →
    exec (.setLine num (le 4 v.toNat)) s
      = .next { s with line.outbound := s.line.outbound ++ [⟨0x89, num, 0x03, []⟩] })
  ∧ ∀ s : State, s.powered = true →
    let replies := s.line.outbound.countP fun f => decide (f.kind = 0x89 ∧ f.status = 0x00)
    (s.line.rateDue = [] → exec .lineRateChange s = .next s)
    ∧ ∀ r rest, s.line.rateDue = r :: rest →
      (replies ≤ rest.length → exec .lineRateChange s = .next { s with line.rate := r, line.rateDue := rest })
      ∧ (∀ before f later, rest.length < replies → s.line.outbound = before ++ f :: later → f.okReplyTo 0x09 →
        (∀ g ∈ before, ¬ g.okReplyTo 0x09) →
        exec .lineRateChange s = .next { s with
          line := { s.line.afterSending before f later with rate := r, rateDue := rest } })

/-- A notice moves while two places are free, in the order EVENT, CAMPAIGN_DONE of the lowest id, OUTCOMES_READY, STRANGERS, with
the payload of its layout; with fewer free places, or none waiting, nothing moves (R168, R173). -/
def Obligations.NoticesMoveInOrder : Prop :=
  ∀ s : State, s.powered = true →
    (s.line.outbound.length + s.handler.task.claimed ≤ 6 →
      (∀ e, s.handler.notices.event = some e →
        exec .noticeMove s = .next { s with
          handler.notices.event := none
          line.outbound := s.line.outbound ++ [⟨0xE0, 0, 0, le 2 e.toNat ++ le 2 s.handler.flags.toNat⟩] })
      ∧ (∀ i c, s.handler.notices.event = none → s.handler.notices.campaignDone.get i = some c →
        (∀ j, j < i → s.handler.notices.campaignDone.get j = none) →
        ∃ data, SummaryFields i c data ∧ exec .noticeMove s = .next { s with
          handler.notices.campaignDone := s.handler.notices.campaignDone.set i none
          line.outbound := s.line.outbound ++ [⟨0xE2, 0, 0, data⟩] })
      ∧ (s.handler.notices.event = none → (∀ i, s.handler.notices.campaignDone.get i = none) →
        (s.handler.notices.outcomesReady = true →
          exec .noticeMove s = .next { s with
            handler.notices.outcomesReady := false
            line.outbound := s.line.outbound
              ++ [⟨0xE1, 0, 0, le 2 s.table.outcomes.length ++ le 2 s.table.retire.length⟩] })
        ∧ (s.handler.notices.outcomesReady = false → s.handler.notices.strangers = true →
          exec .noticeMove s = .next { s with
            handler.notices.strangers := false
            line.outbound := s.line.outbound ++ [⟨0xE3, 0, 0, le 1 s.dir.strangers.length⟩] })
        ∧ (s.handler.notices.outcomesReady = false → s.handler.notices.strangers = false →
          exec .noticeMove s = .next s)))
    ∧ (6 < s.line.outbound.length + s.handler.task.claimed → exec .noticeMove s = .next s)

/-! ### Flags, notices, status -/

/-- The cause of an event flag (R170): the flag becomes set, and no other; one that goes from clear to set under the enable mask
joins the EVENT notice, which is placed where none waits, and any other leaves the notice set as it is. The flags are numbered
as Table 9-4 has them. CLEAR-EVENTS (R171): the named flags become clear and leave a waiting EVENT notice, which goes when none
is left; the reply carries the flags after it. Bits 12 to 15 of the mask name no flag. SET-NOTICES (R172): the mask and the
clamped trigger go into the working settings, and a trigger that the outcome count has reached places OUTCOMES_READY while the
latch is ARMED. -/
def Obligations.FlagRequestsRule : Prop :=
  [Flag.inboundOverrun, .frameDropped, .lineCheck, .settingsDefaulted, .storeFailed, .cellDown, .poolLow, .outcomeBacklog,
      .budgetShort, .tagLost, .lowBattery, .staleCut].map (·.number) = List.range 12
  ∧ (∀ (f : Flag) (s : State), ∃ (flags : FlagSet) (event : Option FlagSet),
    raiseFlag f s = { s with handler.flags := flags, handler.notices.event := event }
    ∧ (∀ n, n < 12 → flags.getLsbD n = (s.handler.flags.getLsbD n || decide (n = f.number)))
    ∧ (s.handler.flags.getLsbD f.number = true ∨ s.store.working.enableMask.getLsbD f.number = false →
      event = s.handler.notices.event)
    ∧ (s.handler.flags.getLsbD f.number = false → s.store.working.enableMask.getLsbD f.number = true →
      ∃ e, event = some e
        ∧ ∀ n, n < 12 → e.getLsbD n = ((s.handler.notices.event.getD 0).getLsbD n || decide (n = f.number))))
  ∧ (∀ (num : Byte) (mask : BitVec 16) (s : State), Ready s →
    ∃ (flags : FlagSet) (event : Option FlagSet),
      exec (.clearEvents num (le 2 mask.toNat)) s = .next { s with
        handler.flags := flags
        handler.notices.event := event
        line.outbound := s.line.outbound ++ [⟨0x8B, num, 0x00, le 2 flags.toNat⟩] }
      ∧ (∀ n, n < 12 → flags.getLsbD n = (s.handler.flags.getLsbD n && !mask.getLsbD n))
      ∧ (s.handler.notices.event = none → event = none)
      ∧ (∀ e, s.handler.notices.event = some e →
          (event = none ↔ ∀ n, n < 12 → (e.getLsbD n && !mask.getLsbD n) = false)
          ∧ ∀ e', event = some e' → ∀ n, n < 12 → e'.getLsbD n = (e.getLsbD n && !mask.getLsbD n)))
  ∧ ∀ (num trigger : Byte) (mask : BitVec 16) (s : State), Ready s →
    let w : Settings := { s.store.working with
      enableMask := mask.setWidth 12
      outcomeTrigger := max 1 (min trigger.toNat 64) }
    let t : State := { s with
      store.working := w
      store.unsaved := s.store.unsaved || decide (w ≠ s.store.working)
      line.outbound := s.line.outbound
        ++ [⟨0x8A, num, 0x00, le 2 (mask.toNat % 4096) ++ le 1 (max 1 (min trigger.toNat 64))⟩] }
    exec (.setNotices num (le 2 mask.toNat ++ [trigger])) s = .next (
      if s.handler.latch = .armed ∧ max 1 (min trigger.toNat 64) ≤ s.table.outcomes.length then
        { t with handler.notices.outcomesReady := true, handler.latch := .spent, handler.timer := 0 }
      else t)

/-- STATUS (R175): the reply carries the fields of Table 11-8 at their offsets, and nothing changes. The line rate is the
rate in force (DEDUCED, log entry 31). The ranges the state's own counts keep are premises. -/
def Obligations.StatusReportsState : Prop :=
  ∀ (num : Byte) (s : State), Ready s → s.dir.entries.length ≤ 16384 → s.dir.strangers.length ≤ 16 →
    s.table.records.length ≤ 4096 → s.table.retire.length ≤ 4096 → s.table.outcomes.length ≤ 1024 → s.pool.free ≤ 32768 →
    s.store.working.outcomeTrigger ≤ 64 →
    ∃ data, exec (.status num []) s
        = .next { s with line.outbound := s.line.outbound ++ [⟨0x81, num, 0x00, data⟩] }
      ∧ data.length = 41
      ∧ field 0 3 data = s.air.beacon.toNat
      ∧ field 3 1 data = (if s.air.preset = none then 0 else 1)
      ∧ field 4 3 data = (s.air.preset.getD 0).toNat
      ∧ field 7 4 data = s.air.clock.toNat / 1024
      ∧ field 11 1 data = (if s.air.clockSet then 1 else 0)
      ∧ field 12 1 data = (match s.store.mode with | .quiet => 0 | .night => 1 | .day => 2)
      ∧ (∀ c : Cell, (field 13 1 data).testBit c.val = (s.store.working.cells.get c).enabled)
      ∧ (∀ c : Cell, (field 14 1 data).testBit c.val = s.cells.heads.get c)
      ∧ field 15 2 data = s.dir.entries.length
      ∧ field 17 1 data = s.dir.strangers.length
      ∧ field 18 2 data = s.table.records.length
      ∧ field 20 2 data = s.table.retire.length
      ∧ field 22 2 data = s.table.outcomes.length
      ∧ field 24 2 data = s.pool.free
      ∧ (∀ i : CampaignIndex, field (26 + i.val) 1 data
          = (match (s.campaigns.get i).state with | .free => 0 | .opened => 1 | .cut => 2 | .done => 3))
      ∧ field 30 2 data = s.handler.flags.toNat
      ∧ field 32 2 data = s.store.working.enableMask.toNat
      ∧ field 34 1 data = s.store.working.outcomeTrigger
      ∧ field 35 1 data = (match s.handler.latch with | .armed => 0 | .spent => 1)
      ∧ field 36 4 data = s.line.rate.value
      ∧ field 40 1 data = 0

/-! ### Settings -/

/-- CONFIG-GET (R178): all twenty items in item-number order, 4 bytes each, then the unsaved indication and whether the last
start-up used the defaults; nothing changes. -/
def Obligations.ConfigGetRule : Prop :=
  ∀ (num : Byte) (s : State), Ready s →
    let w := s.store.working
    let cell := fun c : CellSetting => [if c.enabled then (1 : Byte) else 0] ++ le 1 c.group ++ le 2 c.offset
    exec (.configGet num []) s = .next { s with line.outbound := s.line.outbound ++ [⟨0x86, num, 0x00,
      le 4 w.siteCode.toNat ++ le 4 w.period ++ cell w.cells.c0 ++ cell w.cells.c1 ++ cell w.cells.c2 ++ cell w.cells.c3
        ++ le 4 w.capacityNight ++ le 4 w.capacityDay ++ le 4 w.callCost ++ le 4 w.blockCost ++ le 4 w.reportCost
        ++ le 4 w.boostWakeCost ++ le 4 w.defaultAllowance ++ le 4 w.missLimit ++ le 4 w.guardBeacons ++ le 4 w.span
        ++ le 4 w.refreshTime ++ le 4 w.outcomeTrigger ++ le 4 w.enableMask.toNat ++ le 4 w.lineRate.value
        ++ [if s.store.unsaved then 1 else 0] ++ [if s.store.defaultsUsed then 1 else 0]⟩] }

/-- CONFIG-SET (R177) is refused whole or taken whole. For a request of `items`, each a number and a 4-byte value: an item number
outside 1..17 or given twice, or no item, is refused BAD_VALUE; a value outside its refused range (Table 10-1, a cell's offset
judged against L as it would stand), BAD_VALUE; a new site code while the directory holds an entry, DIRECTORY_NOT_EMPTY; a
new L while a campaign is OPEN or CUT, AIR_LOCKED; a new L, C_N or cell item with which the windows do not fit, WINDOW_CONFLICT.
Otherwise all items go into the working settings together, the clamped ones clamped, C_D to the C_N then held; a site code
given as 0 makes the mode QUIET; and the reply carries each item as taken. -/
def Obligations.ConfigSetWholeOrNothing : Prop :=
  ∀ (num : Byte) (items : List (Byte × BitVec 32)) (s : State), Ready s → items.length ≤ 219 →
    let payload := le 1 items.length ++ items.flatMap fun i => i.1 :: le 4 i.2.toNat
    let refused := fun code : Byte => (.next { s with
      line.outbound := s.line.outbound ++ [⟨0x85, num, code, []⟩] } : Out)
    let w := s.store.working
    let given := fun n : Nat => (items.find? fun i => decide (i.1.toNat = n)).map (·.2.toNat)
    let cellItem := fun (n : Nat) (held : CellSetting) => match given n with
      | none => held
      | some v => ⟨decide (v % 256 = 1), v / 256 % 256, v / 65536⟩
    let clamped := fun (n lo hi held : Nat) => match given n with
      | none => held
      | some v => max lo (min v hi)
    let capacityNight := clamped 7 1 12 w.capacityNight
    let w' : Settings := { w with
      siteCode := BitVec.ofNat 16 ((given 1).getD w.siteCode.toNat)
      period := (given 2).getD w.period
      cells := ⟨cellItem 3 w.cells.c0, cellItem 4 w.cells.c1, cellItem 5 w.cells.c2, cellItem 6 w.cells.c3⟩
      capacityNight := capacityNight
      capacityDay := min ((given 8).getD w.capacityDay) capacityNight
      callCost := clamped 9 0 255 w.callCost
      blockCost := clamped 10 0 255 w.blockCost
      reportCost := clamped 11 0 255 w.reportCost
      boostWakeCost := clamped 12 0 255 w.boostWakeCost
      defaultAllowance := (given 13).getD w.defaultAllowance
      missLimit := clamped 14 1 15 w.missLimit
      guardBeacons := clamped 15 0 64 w.guardBeacons
      span := clamped 16 8 128 w.span
      refreshTime := (given 17).getD w.refreshTime }
    let taken := fun i : Byte × BitVec 32 => match i.1.toNat with
      | 7 => w'.capacityNight | 8 => w'.capacityDay | 9 => w'.callCost | 10 => w'.blockCost | 11 => w'.reportCost
      | 12 => w'.boostWakeCost | 14 => w'.missLimit | 15 => w'.guardBeacons | 16 => w'.span
      | _ => i.2.toNat
    let inRange := fun i : Byte × BitVec 32 =>
      let v := i.2.toNat
      match i.1.toNat with
      | 1 | 13 => v ≤ 65535
      | 2 => 512 ≤ v ∧ v ≤ 8192
      | 3 | 4 | 5 | 6 => v % 256 ≤ 1 ∧ v / 256 % 256 ≤ 3 ∧ v / 65536 < w'.period
      | 17 => v ≤ 86399
      | _ => True
    let window := 26 + 30 * w'.capacityNight
    let fit := (∀ c, (w'.cells.get c).enabled = true → (w'.cells.get c).offset + window ≤ w'.period)
      ∧ (∀ c d, c ≠ d → (w'.cells.get c).enabled = true → (w'.cells.get d).enabled = true →
          (w'.cells.get c).group = (w'.cells.get d).group →
          (w'.cells.get c).offset + window ≤ (w'.cells.get d).offset
            ∨ (w'.cells.get d).offset + window ≤ (w'.cells.get c).offset)
      ∧ ∀ c, (w'.cells.get c).offset < w'.period
    let test1 := items ≠ [] ∧ (∀ i ∈ items, 1 ≤ i.1.toNat ∧ i.1.toNat ≤ 17) ∧ (items.map (·.1)).Nodup
    let test2 := ∀ i ∈ items, inRange i
    let test3 := w'.siteCode = w.siteCode ∨ s.dir.entries = []
    let test4 := w'.period = w.period ∨ ∀ i, (s.campaigns.get i).state ≠ .opened ∧ (s.campaigns.get i).state ≠ .cut
    let test5 := (w'.period = w.period ∧ w'.capacityNight = w.capacityNight ∧ w'.cells = w.cells) ∨ fit
    (¬ test1 → exec (.configSet num payload) s = refused 0x03)
    ∧ (test1 → ¬ test2 → exec (.configSet num payload) s = refused 0x03)
    ∧ (test1 → test2 → ¬ test3 → exec (.configSet num payload) s = refused 0x19)
    ∧ (test1 → test2 → test3 → ¬ test4 → exec (.configSet num payload) s = refused 0x18)
    ∧ (test1 → test2 → test3 → test4 → ¬ test5 → exec (.configSet num payload) s = refused 0x17)
    ∧ (test1 → test2 → test3 → test4 → test5 → exec (.configSet num payload) s = .next { s with
        store := { s.store with
          working := w'
          unsaved := s.store.unsaved || decide (w' ≠ w)
          mode := if given 1 = some 0 then .quiet else s.store.mode }
        line.outbound := s.line.outbound ++ [⟨0x85, num, 0x00,
          le 1 items.length ++ items.flatMap fun i => i.1 :: le 4 (taken i)⟩] })

/-- SAVE-SETTINGS and the end of its write (R181): the settings are copied and the reply waits; a completed write stores the
copy and clears the unsaved indication, a failed one spoils the stored block and sets STORE_FAILED. The byte order within the
block is the model's choice (log entry 33). -/
def Obligations.SaveSettingsRule : Prop :=
  (∀ (num : Byte) (s : State), Ready s →
    exec (.saveSettings num []) s = .next { s with handler.task := .saving num s.store.working })
  ∧ (∀ (num : Byte) (copied : Settings) (s : State), s.powered = true → s.handler.task = .saving num copied →
    exec (.settingsWriteEnd true) s = .next { s with
        handler.task := .idle
        store.stored := .written copied.storedBytes
        store.unsaved := false
        line.outbound := s.line.outbound ++ [⟨0x87, num, 0x00, []⟩] }
    ∧ exec (.settingsWriteEnd false) s = .next (raiseFlag .storeFailed { s with
        handler.task := .idle
        store.stored := .damaged
        line.outbound := s.line.outbound ++ [⟨0x87, num, 0x1A, []⟩] }))

/-- A stored settings block of legal settings is valid and gives those settings back (R179, R180), in the byte order the model
chooses for it (log entry 33); a report frame decodes to the
report it was made from (R150, R187, R188, Table 11-11). -/
def Obligations.RoundTrips : Prop :=
  (∀ w : Settings, w.Legal → w.storedBytes.length = 85 ∧ StoredBlock.load (.written w.storedBytes) = some w)
  ∧ ∀ r : Report, r.Sendable → (reportFrame r).length = 19 ∧ decodeReport (reportFrame r) = some r

/-- SET-MODE (R182): QUIET is accepted in every case; NIGHT and DAY are refused NO_SITE under site code 0, then NO_CELLS with
no cell enabled, and accepted otherwise; any other value is refused BAD_VALUE. -/
def Obligations.SetModeRule : Prop :=
  ∀ (num v : Byte) (s : State), Ready s →
    let answer := fun (code : Byte) (data : List Byte) (t : State) =>
      (.next { t with line.outbound := t.line.outbound ++ [⟨0x84, num, code, data⟩] } : Out)
    (2 < v.toNat → exec (.setMode num [v]) s = answer 0x03 [] s)
    ∧ (v = 0 → exec (.setMode num [v]) s = answer 0x00 [0] { s with store.mode := .quiet })
    ∧ (v = 1 ∨ v = 2 → s.store.working.siteCode = 0 → exec (.setMode num [v]) s = answer 0x15 [] s)
    ∧ (v = 1 ∨ v = 2 → s.store.working.siteCode ≠ 0 → (∀ c, (s.store.working.cells.get c).enabled = false) →
        exec (.setMode num [v]) s = answer 0x16 [] s)
    ∧ (v = 1 → s.store.working.siteCode ≠ 0 → (∃ c, (s.store.working.cells.get c).enabled = true) →
        exec (.setMode num [v]) s = answer 0x00 [1] { s with store.mode := .night })
    ∧ (v = 2 → s.store.working.siteCode ≠ 0 → (∃ c, (s.store.working.cells.get c).enabled = true) →
        exec (.setMode num [v]) s = answer 0x00 [2] { s with store.mode := .day })

/-! ### Power and resets -/

/-- RESET (R184): a payload naming COLD or WARM is answered OK with the kind, and the Record Handler stays BUSY; any other value
is refused BAD_VALUE and changes nothing, whichever of the two rows it is given as (the model's choice: log entry 21). RESET COLD
acting leaves the part as a power-on with the heads held does (DEDUCED, log entry 14), but for the model's record of the
bytes sent (log entry 20). -/
def Obligations.ResetRule : Prop :=
  (∀ (num v : Byte) (s : State), Ready s →
    (v = 1 → exec (.resetCold num [v]) s = .next { s with
      handler.task := .resetting .cold
      line.outbound := s.line.outbound ++ [⟨0x88, num, 0x00, [1]⟩] })
    ∧ (v = 2 → exec (.resetWarm num [v]) s = .next { s with
      handler.task := .resetting .warm
      line.outbound := s.line.outbound ++ [⟨0x88, num, 0x00, [2]⟩] })
    ∧ (v ≠ 1 → v ≠ 2 →
      exec (.resetCold num [v]) s = .next { s with line.outbound := s.line.outbound ++ [⟨0x88, num, 0x03, []⟩] }
      ∧ exec (.resetWarm num [v]) s = .next { s with line.outbound := s.line.outbound ++ [⟨0x88, num, 0x03, []⟩] }))
  ∧ ∀ (heads : BitVec 4) (s : State), s.powered = true → s.handler.task = .resetting .cold →
    (∀ c : Cell, s.cells.heads.get c = heads.getLsbD c.val) →
    ∃ t out, exec (.powerOn heads) s = .next t ∧ exec .resetActs s = .next { t with line.lineOut := out }

/-- RESET WARM acting (R184): the table, its queues, the pool and the boost lists are emptied and the counters kept, the
campaigns are FREE, every entry keeps all but its live change, the two notices go, the latch is ARMED, and settings, schedule,
cells, flags, grants and strangers are kept. A PRESENT tag with an order pending is filed by its class, and no other tag. The
host line stays as it is when the RESET reply has been sent, a rate whose SET-LINE reply is unsent still waiting (DEDUCED, log
entry 23); a RESET reply still in the queue goes out first, with the frames ahead of it (log entry 10), the
line taking each rate whose SET-LINE reply is among them (R166). -/
def Obligations.ResetWarmRule : Prop :=
  ∀ (line : HostLine) (s : State), s.powered = true → s.handler.task = .resetting .warm →
    (s.dir.entries.map (·.addr)).Nodup →
    ((∀ f ∈ s.line.outbound, ¬ f.okReplyTo 0x08) ∧ line = s.line
      ∨ ∃ before f later, s.line.outbound = before ++ f :: later ∧ f.okReplyTo 0x08 ∧ (∀ g ∈ before, ¬ g.okReplyTo 0x08)
        ∧ line = s.line.afterSending before f later) →
    ∃ t, exec .resetActs s = .next t
      ∧ t.dir = { s.dir with entries := s.dir.entries.map fun e => { e with live := none } }
      ∧ t.table = { s.table with records := [], retire := [], outcomes := [] }
      ∧ t.pool = ⟨32768, []⟩
      ∧ (∀ i, t.campaigns.get i = Campaign.freeEntry)
      ∧ (∀ c, t.planner.boosts.get c = []) ∧ t.planner.last = s.planner.last
      ∧ (∀ c a due, (⟨a, due⟩ : CalendarEntry) ∈ t.planner.calendar.get c ↔
          ∃ e ∈ s.dir.entries, e.addr = a ∧ e.state = .present ∧ (e.commanded.isSome = true ∨ e.flash = true)
            ∧ e.home = some c ∧ due = nextWake e.believed e.tagId (s.planner.last.get c))
      ∧ t.handler = { s.handler with
          task := .idle
          notices := { s.handler.notices with campaignDone := ⟨none, none, none, none⟩, outcomesReady := false }
          latch := .armed
          timer := 0 }
      ∧ t.line = line
      ∧ t.powered = true ∧ t.store = s.store ∧ t.air = s.air ∧ t.cells = s.cells
      ∧ t.freeIndex = s.freeIndex ∧ t.pending = s.pending

/-- The state right after reset meets every invariant; its heads and its unwritten block are the model's choice (log
entry 7). -/
def Obligations.ResetMeetsInvariants : Prop := Inv State.reset

/-! ### The air schedule -/

/-- SET-CLOCK (R8): the clock takes the seconds with a fraction of 0 and is SET; the schedule, and all else, stays. -/
def Obligations.SetClockRule : Prop :=
  ∀ (num : Byte) (seconds : BitVec 32) (s : State), Ready s →
    exec (.setClock num (le 4 seconds.toNat)) s = .next { s with
      air.clock := BitVec.ofNat 42 (1024 * seconds.toNat)
      air.clockSet := true
      line.outbound := s.line.outbound ++ [⟨0x82, num, 0x00, []⟩] }

/-- SET-BEACON (R5): the preset is taken while no record stands, every campaign is FREE and no boost end is after B; otherwise the
reply is AIR_LOCKED and the pending preset stands. -/
def Obligations.SetBeaconRule : Prop :=
  ∀ (num : Byte) (b : Beacon) (s : State), Ready s →
    let free := s.table.records = [] ∧ (∀ i, (s.campaigns.get i).state = .free)
      ∧ ∀ e ∈ s.dir.entries, ∀ u, e.boostEnd = some u → isAfter u s.air.beacon = false
    (free → exec (.setBeacon num (le 3 b.toNat)) s = .next { s with
      air.preset := some b
      line.outbound := s.line.outbound ++ [⟨0x83, num, 0x00, []⟩] })
    ∧ (¬ free → exec (.setBeacon num (le 3 b.toNat)) s
      = .next { s with line.outbound := s.line.outbound ++ [⟨0x83, num, 0x18, []⟩] })

/-- BEACON_START at which no campaign is cut (R2, R3, R6): the geometry in force and the counter are reloaded and B rises by 1;
a pending preset is taken instead while its conditions hold, with the calendars filed afresh, the boosts emptied and each last
instant before the preset, and is cleared unused otherwise. -/
def Obligations.BeaconStartRule : Prop :=
  ∀ s : State, s.powered = true →
    let w := s.store.working
    let air : AirTimer := { s.air with
      geometry := ⟨w.period, w.cells, w.capacityNight, w.capacityDay⟩
      counter := w.period - 1
      preset := none }
    let locked := s.table.records ≠ [] ∨ (∃ i, (s.campaigns.get i).state ≠ .free)
      ∨ ∃ e ∈ s.dir.entries, ∃ u, e.boostEnd = some u ∧ isAfter u s.air.beacon = true
    (s.air.preset = none ∨ locked →
      (∀ i a, (s.campaigns.get i).state = .opened → (s.campaigns.get i).activation = some a →
        a.beacon ≠ s.air.beacon + 1) →
      exec .beaconStart s = .next { s with air := { air with beacon := s.air.beacon + 1 } })
    ∧ (∀ p, s.air.preset = some p → ¬ locked →
      exec .beaconStart s = .next { s with
        air := { air with beacon := p }
        dir.entries := s.dir.entries.map fun e => { e with boostEnd := none }
        planner := {
          calendar := s.planner.calendar.map fun l => l.map fun x =>
            match s.entryAt x.addr with
            | none => x
            | some e => { x with due := nextWake e.believed e.tagId (p - 1) }
          last := ⟨p - 1, p - 1, p - 1, p - 1⟩
          boosts := ⟨[], [], [], []⟩ } })

/-- BEACON_START at the activation beacon of an OPEN campaign cuts it (R95, R96): the campaign is CUT, or DONE at once; its
STAGED records become VERIFYING; under APPLY its QUEUED and SENDING records are marked LATE and counted so; under DROP those
finish DROPPED_LATE; WITHDRAWING ones finish CANCEL_TOO_LATE. A QUEUED or SENDING record with a displaced version is marked
STALE_CUT and counted so under either policy, and sets the flag. Finished records stand in the retire queue, and pass, in the
order of their admission (R97). The campaign is DONE where its admitted count then equals the sum of its tallies, with done
beacon and notice (R103, R104). The geometry in force and the counter are reloaded as at every beacon start (R2, R3), and a
preset that was pending is cleared unused, since the campaign is not FREE (R6, R92). The Call Planner (R63, R81, Table 7-2): the
tag of a record become VERIFYING keeps its calendar entry or, PRESENT and unfiled, is filed, a boosted one by the boost case
(R122; log entry 29, DEDUCED); the tag of a finished record has no live change, its boost list entry goes, and its calendar
entry goes with its last work, an unfiled one with work being filed by its class (log entry 24, DEDUCED). Nothing else moves:
the records of campaign 0 and of the campaigns not cut here, all calendar and boost entries of other tags, the last instants,
the next serial and sequence; a campaign not cut here changes only by the tallies of records that pass, and by becoming DONE
with them (R94, R103). -/
def Obligations.CutRule : Prop :=
  ∀ (i : CampaignIndex) (a : Activation) (s : State), s.powered = true → TableLaw s →
    (s.campaigns.get i).state = .opened → (s.campaigns.get i).activation = some a → a.beacon = s.air.beacon + 1 →
    let w := s.store.working
    let delivering := fun r : Change => r.campaign = some i ∧ (r.state = .queued ∨ r.state = .sending)
    let ends := fun r : Change => r.campaign = some i ∧ s.endsAtCut r = true
    ∃ t moved, exec .beaconStart s = .next t
      ∧ t.air = { s.air with
          geometry := ⟨w.period, w.cells, w.capacityNight, w.capacityDay⟩
          counter := w.period - 1
          beacon := a.beacon
          preset := none }
      ∧ ((t.campaigns.get i).state = .cut ∨ (t.campaigns.get i).state = .done)
      ∧ (CampaignLaw s →
        ((t.campaigns.get i).state = .done ↔ (t.campaigns.get i).admitted = (t.campaigns.get i).tallies.sum)
        ∧ ((t.campaigns.get i).state = .done → (t.campaigns.get i).doneBeacon = some a.beacon
          ∧ t.handler.notices.campaignDone.get i = some (t.campaigns.get i)))
      ∧ SameTags s t ∧ t.store = s.store ∧ t.cells = s.cells ∧ t.line = s.line ∧ t.pending = s.pending
      ∧ t.powered = s.powered ∧ t.handler.task = s.handler.task
      ∧ (t.campaigns.get i).activation = some a ∧ (t.campaigns.get i).admitted = (s.campaigns.get i).admitted
      ∧ (t.campaigns.get i).lateCount = (s.campaigns.get i).lateCount
          + (if a.policy = .apply then s.table.records.countP fun r => decide (delivering r) else 0)
      ∧ (t.campaigns.get i).staleCount = (s.campaigns.get i).staleCount
          + s.table.records.countP (fun r => decide (delivering r ∧ r.displaced.isSome = true))
      ∧ (t.campaigns.get i).live = (s.campaigns.get i).live - s.table.records.countP (fun r => decide (ends r))
      ∧ ((∃ r ∈ s.table.records, delivering r ∧ r.displaced.isSome = true) → Flag.staleCut.isIn t.handler.flags = true)
      ∧ ((∀ r ∈ s.table.records, r.displaced = none) →
          Flag.staleCut.isIn t.handler.flags = Flag.staleCut.isIn s.handler.flags)
      ∧ (∀ f, f ≠ Flag.staleCut → f ≠ .outcomeBacklog → f.isIn t.handler.flags = f.isIn s.handler.flags)
      ∧ (∀ r ∈ s.table.records, r.campaign = some i →
        let marked := { r with staleCut := r.staleCut || r.displaced.isSome }
        (r.state = .staged → { r with state := .verifying } ∈ t.table.records)
        ∧ (r.state = .queued ∨ r.state = .sending → a.policy = .apply → { marked with late := true } ∈ t.table.records)
        ∧ (r.state = .queued ∨ r.state = .sending → a.policy = .drop →
            FinishedAs t (marked.finishedWith .droppedLate a.beacon))
        ∧ (r.state = .withdrawing → FinishedAs t (r.finishedWith .cancelTooLate a.beacon))
        ∧ (r.state = .verifying → r ∈ t.table.records))
      ∧ (∀ q ∈ s.table.records, ∀ r ∈ s.table.records, ends q → ends r →
          (s.table.nextSequence - r.sequence).toNat < (s.table.nextSequence - q.sequence).toNat →
          [q.serial, r.serial].Sublist (t.table.outcomes.map (·.serial) ++ t.table.retire))
      -- what the cut does not concern
      ∧ t.table.outcomes = s.table.outcomes ++ moved
      ∧ t.table.nextSerial = s.table.nextSerial ∧ t.table.nextSequence = s.table.nextSequence
      ∧ (∀ x ∈ t.table.records, ∃ r ∈ s.table.records, r.serial = x.serial ∧ (s.cutPolicy r = none → x = r))
      ∧ (∀ r ∈ s.table.records, s.cutPolicy r = none ∨ r.state = .finished →
          r ∈ t.table.records ∨ r.state = .finished ∧ ∃ o ∈ moved, r.outcomeRecord = some o)
      ∧ (∀ j, (t.campaigns.get j).tallies =
          (s.campaigns.get j).tallies.counting (moved.filter fun o => decide (o.campaign = some j)))
      ∧ (∀ j, (∀ x, (s.campaigns.get j).state = .opened → (s.campaigns.get j).activation = some x → x.beacon ≠ a.beacon) →
          (t.campaigns.get j = { s.campaigns.get j with tallies := (t.campaigns.get j).tallies }
              ∧ t.handler.notices.campaignDone.get j = s.handler.notices.campaignDone.get j)
            ∨ (s.campaigns.get j).state = .cut ∧ (∃ o ∈ moved, o.campaign = some j)
              ∧ t.campaigns.get j = { s.campaigns.get j with
                  tallies := (t.campaigns.get j).tallies, state := .done, doneBeacon := some a.beacon })
      ∧ (CampaignLaw s → ∀ j, (s.campaigns.get j).state = .cut → (∃ o ∈ moved, o.campaign = some j) →
          ((t.campaigns.get j).state = .done ↔ (t.campaigns.get j).admitted = (t.campaigns.get j).tallies.sum))
      ∧ (∀ x, x ∈ t.pool.held ↔ x ∈ s.pool.held ∧ ∀ r ∈ s.table.records, s.endsAtCut r = true → r.serial ≠ x.serial)
      ∧ t.pool.free + t.pool.used = s.pool.free + s.pool.used
      ∧ t.planner.last = s.planner.last
      -- the tags of the records it concerns
      ∧ (∀ d y, y ∈ t.planner.boosts.get d ↔ y ∈ s.planner.boosts.get d
          ∧ ∀ r ∈ s.table.records, s.endsAtCut r = true → r.addr ≠ y.addr)
      ∧ (DirectoryLaw s → LiveLaw s → ∀ e ∈ s.dir.entries,
        (∀ r, s.liveRecord e = some r → s.endsAtCut r = true → (t.entryAt e.addr).map (·.live) = some none
          ∧ CalendarTold e (e.commanded.isSome = true ∨ e.flash = true) (ClassFiling s e) s t)
        ∧ (∀ r, s.liveRecord e = some r → r.state = .staged → (s.cutPolicy r).isSome = true →
          (t.entryAt e.addr).map (·.live) = some e.live ∧ CalendarTold e True (FiledFor s e) s t)
        ∧ ((∀ r, s.liveRecord e = some r → s.endsAtCut r = false ∧ (r.state = .staged → s.cutPolicy r = none)) →
          (t.entryAt e.addr).map (·.live) = some e.live
            ∧ ∀ d y, y.addr = e.addr → (y ∈ t.planner.calendar.get d ↔ y ∈ s.planner.calendar.get d)))
      ∧ (∀ d y, (∀ r ∈ s.table.records, r.addr = y.addr → s.cutPolicy r = none) →
          (y ∈ t.planner.calendar.get d ↔ y ∈ s.planner.calendar.get d))

/-- The next wake after a beacon (R19): the smallest beacon after it, counted modulo 2^24, whose remainder modulo the interval is
the tag's phase; it lies 1..W beacons after it. -/
def Obligations.NextWakeRule : Prop :=
  ∀ (w : WakeClass) (id : TagId) (b : Beacon),
    let interval := 2 ^ w.val
    let d := (nextWake w id b - b).toNat
    1 ≤ d ∧ d ≤ interval
      ∧ (nextWake w id b).toNat % interval = id.toNat % interval
      ∧ (∀ k, 1 ≤ k → k < d → (b + BitVec.ofNat 24 k).toNat % interval ≠ id.toNat % interval)
      ∧ ((nextWake w id b).toNat : Int)
        = ((b.toNat : Int) + (((id.toNat : Int) % interval - b.toNat - 1) % interval + 1)) % 16777216

/-! ### The directory -/

/-- ENROL (R24, R25): a tag id not held, and valid, takes the lowest free position as an UNSEEN entry, its class clamped to 7 and
its allowance the default where the request carries 0xFFFF; a stranger record of the tag goes. A held id is refused TAG_EXISTS,
and an id of 0 or 0xFFFFFFFF, or a page class above 3, BAD_VALUE. -/
def Obligations.EnrolRule : Prop :=
  ∀ (num zone page wclass : Byte) (id : TagId) (given : BitVec 16) (s : State), Ready s →
    let payload := le 4 id.toNat ++ [zone, page, wclass] ++ le 2 given.toNat
    let answer := fun (code : Byte) (data : List Byte) (t : State) =>
      (.next { t with line.outbound := t.line.outbound ++ [⟨0x8C, num, code, data⟩] } : Out)
    let a := if given = 0xFFFF then s.store.working.defaultAllowance else given.toNat
    let held := ∃ e ∈ s.dir.entries, e.tagId = id
    (3 < page.toNat ∨ id = 0 ∨ id = 0xFFFFFFFF → exec (.enrol num payload) s = answer 0x03 [] s)
    ∧ (page.toNat ≤ 3 → id ≠ 0 → id ≠ 0xFFFFFFFF → held → exec (.enrol num payload) s = answer 0x05 [] s)
    ∧ (∀ (hp : page.toNat < 4) (pos : Nat), id ≠ 0 → id ≠ 0xFFFFFFFF → ¬ held → pos < 16384 →
      (∀ e ∈ s.dir.entries, e.addr ≠ pos) → (∀ p, p < pos → ∃ e ∈ s.dir.entries, e.addr = p) →
      exec (.enrol num payload) s = answer 0x00 (le 2 pos) { s with
        dir.entries := insertBy (fun p q => decide (p.addr < q.addr))
          { addr := pos, tagId := id, zone := zone, pageClass := ⟨page.toNat, hp⟩, state := .unseen, home := none
            believed := ⟨min wclass.toNat 7, by omega⟩, commanded := none, boostEnd := none, flash := false
            shown := none, staged := none, link := none, battery := none
            allowance := a, effective := a, remaining := a, misses := 0, live := none } s.dir.entries
        dir.strangers := s.dir.strangers.filter fun x => decide (x.tagId ≠ id) })
    ∧ (page.toNat ≤ 3 → id ≠ 0 → id ≠ 0xFFFFFFFF → ¬ held →
      (∀ p, p < 16384 → ∃ e ∈ s.dir.entries, e.addr = p) → exec (.enrol num payload) s = answer 0x06 [] s)

/-- REMOVE (R26): without a live change the entry goes with its calendar entry, its boost and its grants; a QUEUED change is
first finished CANCELLED (R81; log entry 24); with any other live change the reply is TAG_BUSY; an id not held is NO_SUCH_TAG. -/
def Obligations.RemoveRule : Prop :=
  ∀ (num : Byte) (id : TagId) (s : State), Ready s →
    let answer := fun (code : Byte) (t : State) =>
      (.next { t with line.outbound := t.line.outbound ++ [⟨0x8D, num, code, []⟩] } : Out)
    let gone := fun (e : Entry) (t : State) =>
      ({ t with
        dir.entries := t.dir.entries.filter fun x => decide (x.addr ≠ e.addr)
        dir.grants := t.dir.grants.map fun l => l.filter fun g => decide (g.tagId ≠ e.tagId)
        planner.calendar := t.planner.calendar.map fun l => l.filter fun x => decide (x.addr ≠ e.addr)
        planner.boosts := t.planner.boosts.map fun l => l.filter fun x => decide (x.addr ≠ e.addr) } : State)
    (s.entryOf id = none → exec (.remove num (le 4 id.toNat)) s = answer 0x04 s)
    ∧ (∀ e, s.entryOf id = some e → s.liveRecord e = none →
      exec (.remove num (le 4 id.toNat)) s = answer 0x00 (gone e s))
    ∧ (∀ e r, s.entryOf id = some e → s.liveRecord e = some r → r.state = .queued →
      exec (.remove num (le 4 id.toNat)) s = answer 0x00 (gone e (finish r.serial .cancelled false s)))
    ∧ (∀ e r, s.entryOf id = some e → s.liveRecord e = some r → r.state ≠ .queued →
      exec (.remove num (le 4 id.toNat)) s = answer 0x07 s)

/-- SET-WAKE in its tag form and LOCATE (R27, R29): the entry takes the order, a class equal to the believed one making it
absent, and the Call Planner is told of the tag. An id not held is NO_SUCH_TAG. SET-WAKE in its zone form (R28): every entry of
the zone takes the order, the Call Planner is told of those whose commanded class changed, and the reply counts them. Beside the
entries only what the Call Planner is told of may change. That the tag form always tells, that the zone form tells of the
changed entries alone, and that a LOCATE tells when the order was not yet pending, is log entry 26; where a boosted tag is then
filed is log entry 29. What the Call Planner does when it is told is Table 7-2. A payload that names neither form is refused
BAD_VALUE, whichever of the two rows it is given as (log entry 21). -/
def Obligations.OrderRule : Prop :=
  (∀ (a : Nat) (s : State), NoticeTaken a s (workNotice a s))
  ∧ (∀ (num form a b c d wclass : Byte) (s : State), Ready s → 1 < form.toNat →
    let refused : Out := .next { s with line.outbound := s.line.outbound ++ [⟨0x8E, num, 0x03, []⟩] }
    exec (.setWakeTag num [form, a, b, c, d, wclass]) s = refused
      ∧ exec (.setWakeZone num [form, a, b, c, d, wclass]) s = refused)
  ∧ (∀ (num wclass : Byte) (id : TagId) (s : State), Ready s →
    (∀ e, s.entryOf id = some e →
      (∃ t, t = workNotice e.addr { s with dir.entries := s.dir.entries.map fun x =>
          if x.addr = e.addr then
            { x with commanded :=
                if min wclass.toNat 7 = x.believed.val then none else some ⟨min wclass.toNat 7, by omega⟩ }
          else x }
        ∧ exec (.setWakeTag num (0 :: le 4 id.toNat ++ [wclass])) s
          = .next { t with line.outbound := s.line.outbound ++ [⟨0x8E, num, 0x00, [0, 0]⟩] })
      ∧ (e.flash = true → exec (.locate num (le 4 id.toNat)) s
          = .next { s with line.outbound := s.line.outbound ++ [⟨0x90, num, 0x00, []⟩] })
      ∧ (e.flash = false → ∃ t, t = workNotice e.addr { s with dir.entries := s.dir.entries.map fun x =>
          if x.addr = e.addr then { x with flash := true } else x }
        ∧ exec (.locate num (le 4 id.toNat)) s
          = .next { t with line.outbound := s.line.outbound ++ [⟨0x90, num, 0x00, []⟩] }))
    ∧ (s.entryOf id = none →
      exec (.setWakeTag num (0 :: le 4 id.toNat ++ [wclass])) s
          = .next { s with line.outbound := s.line.outbound ++ [⟨0x8E, num, 0x04, []⟩] }
      ∧ exec (.locate num (le 4 id.toNat)) s
          = .next { s with line.outbound := s.line.outbound ++ [⟨0x90, num, 0x04, []⟩] }))
  ∧ ∀ (num zone wclass x y z : Byte) (s : State), Ready s → (s.dir.entries.map (·.addr)).Nodup →
    let order := fun e : Entry =>
      if e.zone = zone then
        { e with commanded :=
            if min wclass.toNat 7 = e.believed.val then none else some ⟨min wclass.toNat 7, by omega⟩ }
      else e
    let changed := s.dir.entries.filter fun e => decide ((order e).commanded ≠ e.commanded)
    ∃ t, t = changed.foldl (fun t e => workNotice e.addr t) { s with dir.entries := s.dir.entries.map order }
      ∧ exec (.setWakeZone num [1, zone, x, y, z, wclass]) s = .next { t with
        line.outbound := s.line.outbound ++ [⟨0x8E, num, 0x00, le 2 changed.length⟩] }

/-- SET-ALLOWANCE (R30): A takes the value, A_eff and R are lowered where they exceed it and left otherwise, and the reply
carries the three; an id not held is refused NO_SUCH_TAG. -/
def Obligations.SetAllowanceRule : Prop :=
  ∀ (num : Byte) (id : TagId) (a : BitVec 16) (s : State), Ready s →
    (s.entryOf id = none → exec (.setAllowance num (le 4 id.toNat ++ le 2 a.toNat)) s
      = .next { s with line.outbound := s.line.outbound ++ [⟨0x8F, num, 0x04, []⟩] })
    ∧ (∀ e, s.entryOf id = some e →
      let lower := fun x : Entry =>
        if a.toNat < x.effective then
          { x with allowance := a.toNat, effective := a.toNat, remaining := min x.remaining a.toNat }
        else { x with allowance := a.toNat }
      exec (.setAllowance num (le 4 id.toNat ++ le 2 a.toNat)) s = .next { s with
        dir.entries := s.dir.entries.map fun x => if x.addr = e.addr then lower x else x
        line.outbound := s.line.outbound ++ [⟨0x8F, num, 0x00,
          le 2 a.toNat ++ le 2 (lower e).effective ++ le 2 (lower e).remaining⟩] })

/-- QUERY-TAG, QUERY-CAMPAIGN and QUERY-CHANGE (R31, R85, R106) change nothing and answer with the fields of Tables 11-16, 11-18
and 11-19 at their offsets, or with the code of what they do not find. A tag is filed at most once. -/
def Obligations.QueriesChangeNothing : Prop :=
  ∀ (num : Byte) (id : TagId) (n : Byte) (k : Serial) (s : State), Ready s → OneFiling s →
    let answer := fun (kind code : Byte) (data : List Byte) =>
      (.next { s with line.outbound := s.line.outbound ++ [⟨kind, num, code, data⟩] } : Out)
    (s.entryOf id = none → exec (.queryTag num (le 4 id.toNat)) s = answer 0x91 0x04 [])
    ∧ (∀ e, s.entryOf id = some e → ∃ data, TagFields s e data
      ∧ exec (.queryTag num (le 4 id.toNat)) s = answer 0x91 0x00 data)
    ∧ (n = 0 ∨ 4 < n.toNat → exec (.queryCampaign num [n]) s = answer 0x95 0x0D [])
    ∧ (∀ i : CampaignIndex, n.toNat = i.val + 1 → ∃ data, CampaignFields s i data
      ∧ exec (.queryCampaign num [n]) s = answer 0x95 0x00 data)
    ∧ (s.recordOf k = none → exec (.queryChange num (le 2 k.toNat)) s = answer 0x99 0x12 [])
    ∧ (∀ r, s.recordOf k = some r → ∃ data, ChangeFields s r data
      ∧ exec (.queryChange num (le 2 k.toNat)) s = answer 0x99 0x00 data)

/-- LIST-STRANGERS (R41): every record goes into the reply, least recently heard first, and the list is emptied; a STRANGERS
notice that waits stays. -/
def Obligations.ListStrangersRule : Prop :=
  ∀ (num : Byte) (s : State), Ready s →
    exec (.listStrangers num []) s = .next { s with
      dir.strangers := []
      line.outbound := s.line.outbound ++ [⟨0x92, num, 0x00, le 1 s.dir.strangers.length
        ++ s.dir.strangers.flatMap fun x =>
          le 4 x.tagId.toNat ++ le 1 x.cell.val ++ le 3 x.beacon.toNat ++ le 1 x.joins⟩] }

/-! ### Charge budgets -/

/-- A refresh (R116, R117), by request or by the clock's crossing: every account is renewed by its battery level, A for 4 and
above or unknown, half of A for 1..3, 0 for 0; then, in the order of the entries, the live change of each entry left at 0 ends
by its state (Table 6-5), QUEUED and SENDING as FAILED_BUDGET, VERIFYING as APPLIED_UNVERIFIED, WITHDRAWING as
WITHDRAW_UNCONFIRMED, STAGED kept, each finishing as every record does (R81; log entry 24). Nothing else changes. The reply
counts the entries, the entries left at 0 (log entry 28) and the changes ended. No crossing acts while the clock is UNSET (R10).
-/
def Obligations.RefreshRule : Prop :=
  ∀ (num : Byte) (s : State), s.powered = true →
    let scaled := fun e : Entry =>
      match e.battery with
      | none => e.allowance
      | some b => if 4 ≤ b.val then e.allowance else if b.val = 0 then 0 else e.allowance / 2
    let renewed := s.dir.entries.map fun e => { e with effective := scaled e, remaining := scaled e }
    let r : State := { s with dir.entries := renewed }
    let ended := s.dir.entries.filterMap fun e =>
      if scaled e = 0 then
        match s.liveRecord e with
        | none => none
        | some q => match q.state with
          | .queued | .sending => some (q.serial, OutcomeCode.failedBudget)
          | .verifying => some (q.serial, .appliedUnverified)
          | .withdrawing => some (q.serial, .withdrawUnconfirmed)
          | .staged | .finished => none
      else none
    let t := ended.foldl (fun u x => finish x.1 x.2 false u) r
    SameBase r t ∧ SameTags r t
      ∧ (s.air.clockSet = true → exec .refreshCrossing s = .next t)
      ∧ (s.air.clockSet = false → exec .refreshCrossing s = .next s)
      ∧ (Ready s → exec (.refreshBudgets num []) s = .next { t with
          line.outbound := s.line.outbound ++ [⟨0x93, num, 0x00, le 2 s.dir.entries.length
            ++ le 2 (s.dir.entries.countP fun e => decide (scaled e = 0)) ++ le 2 ended.length⟩] })

/-! ### Campaigns -/

/-- OPEN-CAMPAIGN (R89 to R91): an id that is none is refused NO_SUCH_CAMPAIGN, a late policy that is none BAD_VALUE, a campaign
not FREE CAMPAIGN_STATE, an UNSET clock CLOCK_UNSET, and an activation time not after the start of the current beacon
ACTIVATION_PAST, in this order. Otherwise the campaign opens at the first beacon that starts at or after the activation time, d
beacons on; d above 4,194,304 is refused ACTIVATION_FAR. A refused request changes nothing. -/
def Obligations.OpenCampaignRule : Prop :=
  ∀ (num n p : Byte) (time : BitVec 32) (s : State), Ready s →
    let payload := n :: le 4 time.toNat ++ [p]
    let refused := fun code : Byte => (.next { s with
      line.outbound := s.line.outbound ++ [⟨0x94, num, code, []⟩] } : Out)
    let tau : Int := 1024 * time.toNat
    let begun : Int := (s.air.clock.toNat : Int) - ((s.air.geometry.period - 1 - s.air.counter : Nat) : Int)
    (n = 0 ∨ 4 < n.toNat → exec (.openCampaign num payload) s = refused 0x0D)
    ∧ ∀ i : CampaignIndex, n.toNat = i.val + 1 →
      (1 < p.toNat → exec (.openCampaign num payload) s = refused 0x03)
      ∧ (p.toNat ≤ 1 → (s.campaigns.get i).state ≠ .free → exec (.openCampaign num payload) s = refused 0x0E)
      ∧ (p.toNat ≤ 1 → (s.campaigns.get i).state = .free → s.air.clockSet = false →
        exec (.openCampaign num payload) s = refused 0x11)
      ∧ (p.toNat ≤ 1 → (s.campaigns.get i).state = .free → s.air.clockSet = true → tau ≤ begun →
        exec (.openCampaign num payload) s = refused 0x0F)
      ∧ (p.toNat ≤ 1 → (s.campaigns.get i).state = .free → s.air.clockSet = true → begun < tau →
        0 < s.store.working.period →
        let start := fun d : Nat => begun + s.air.geometry.period + ((d : Int) - 1) * s.store.working.period
        ∃ d : Nat, 1 ≤ d ∧ tau ≤ start d ∧ (2 ≤ d → start (d - 1) < tau)
          ∧ (d ≤ 4194304 → exec (.openCampaign num payload) s = .next { s with
              campaigns := s.campaigns.set i { Campaign.freeEntry with
                state := .opened
                activation := some ⟨time, s.air.beacon + BitVec.ofNat 24 d, if p = 0 then .apply else .drop⟩ }
              line.outbound := s.line.outbound ++ [⟨0x94, num, 0x00,
                le 3 (s.air.beacon + BitVec.ofNat 24 d).toNat ++ le 3 d ++ le 2 (start d - tau).toNat⟩] })
          ∧ (4194304 < d → exec (.openCampaign num payload) s = refused 0x10))

/-- RELEASE-CAMPAIGN (R105): a DONE campaign becomes FREE, its waiting notice goes, and the reply carries its summary (Table
11-17); a campaign in another state is refused CAMPAIGN_STATE, and a number that is none NO_SUCH_CAMPAIGN. -/
def Obligations.ReleaseCampaignRule : Prop :=
  ∀ (num n : Byte) (s : State), Ready s →
    (n = 0 ∨ 4 < n.toNat → exec (.releaseCampaign num [n]) s
      = .next { s with line.outbound := s.line.outbound ++ [⟨0x96, num, 0x0D, []⟩] })
    ∧ (∀ i : CampaignIndex, n.toNat = i.val + 1 →
      ((s.campaigns.get i).state = .done → ∃ data, SummaryFields i (s.campaigns.get i) data
        ∧ exec (.releaseCampaign num [n]) s = .next { s with
          campaigns := s.campaigns.set i Campaign.freeEntry
          handler.notices.campaignDone := s.handler.notices.campaignDone.set i none
          line.outbound := s.line.outbound ++ [⟨0x96, num, 0x00, data⟩] })
      ∧ ((s.campaigns.get i).state ≠ .done → exec (.releaseCampaign num [n]) s
        = .next { s with line.outbound := s.line.outbound ++ [⟨0x96, num, 0x0E, []⟩] }))

/-- An OPEN campaign's activation is not changed by any step that does not free the campaign (R92). -/
def Obligations.ActivationKept : Prop :=
  ∀ (i : CampaignIndex) (s t : State), step s = .next t → (s.campaigns.get i).state = .opened →
    (t.campaigns.get i).state ≠ .free → (t.campaigns.get i).activation = (s.campaigns.get i).activation

/-! ### Changes -/

/-- The Image Checker (R44 to R51). A size or header at fault is BAD_HEADER at offset 0. Else the walk of the field chain comes
to a field that fails one of its tests (R47), or ends. A field that fails gives the sub-reason of its first failing test and its
offset. Once the walk has ended, no PRICE is MISSING_PRICE at 0; an OLD_PRICE not above the PRICE, or not comparable with it,
OLD_NOT_HIGHER at its offset; a UNIT_BASIS among sixteen fields TOO_MANY_FIELDS at its offset; and any other image is valid.
Table 3-1 limits an image to ten fields, so no image comes to the sixteen that the second test of a field and the third of a
whole image ask for; they stand as the rules have them. One without UNIT_BASIS is final as posted. One with it has its unit
price derived, floor((2 × P × Bq + Q) / (2 × Q)) and at most 9,999,999, clamped above that, in a UNIT_PRICE field at its end,
which the last field of the walk then names. The page capacities (R52) and the sub-reasons' codes are those of the spec's
tables. -/
def Obligations.ImageCheckerRule : Prop :=
  [SubReason.badHeader, .badOffset, .overrun, .unknownType, .fieldLength, .duplicate, .missingPrice, .oldNotHigher, .range,
      .tooManyFields, .unitPricePosted].map (·.code.toNat) = (List.range 11).map (· + 1)
  ∧ (List.finRange 4).map pageCapacity = [128, 256, 512, 1024]
  ∧ ∀ img : List Byte,
    (badHeader img → imageResult img = .error ⟨.badHeader, 0⟩)
    ∧ (∃ before f, Walk img before f ∧ ((firstFailing img before f).isSome = true ∨ nextField img f = 0))
    ∧ (¬ badHeader img → ∀ before f, Walk img before f →
      (∀ reason, firstFailing img before f = some reason → imageResult img = .error ⟨reason, f⟩)
      ∧ (firstFailing img before f = none → nextField img f = 0 →
        let visited := before ++ [f]
        ((∀ p ∈ visited, fieldType img p ≠ 1) → imageResult img = .error ⟨.missingPrice, 0⟩)
        ∧ ∀ p ∈ visited, fieldType img p = 1 →
          (∀ o ∈ visited, fieldType img o = 2 → ¬ priceRaised img o p → imageResult img = .error ⟨.oldNotHigher, o⟩)
          ∧ ((∀ o ∈ visited, fieldType img o = 2 → priceRaised img o p) →
            ((∀ u ∈ visited, fieldType img u ≠ 3) → imageResult img = .ok ⟨img, none⟩)
            ∧ ∀ u ∈ visited, fieldType img u = 3 →
              (16 ≤ visited.length → imageResult img = .error ⟨.tooManyFields, u⟩)
              ∧ (visited.length < 16 →
                let price := field (p + 6) 4 img
                let quantity := field (u + 6) 4 img
                let unit := field (u + 10) 1 img
                let basis := field (u + 11) 2 img
                let exact := (2 * price * basis + quantity) / (2 * quantity)
                let amount := min exact 9999999
                imageResult img = .ok {
                  bytes := img.take (f + 4) ++ le 2 img.length ++ img.drop (f + 6)
                    ++ (0x04 :: 0 :: le 2 8 ++ le 2 0 ++ le 4 amount ++ le 1 unit ++ le 2 basis
                      ++ [if 9999999 < exact then 1 else 0])
                  unitPrice := some ⟨amount, unit, basis, decide (9999999 < exact)⟩ }))))

/-- A final image in blocks (R53): ceil(S / 32) blocks of 32 bytes each, which hold the image in order and zero bytes after
it; between 1 and 32 blocks for an image of 16 to 1,024 bytes. -/
def Obligations.BlocksHoldImage : Prop :=
  ∀ img : List Byte,
    let n := (img.length + 31) / 32
    (blocksOfImage img).length = n
      ∧ (∀ b ∈ blocksOfImage img, b.length = 32)
      ∧ (blocksOfImage img).flatten = img ++ List.replicate (32 * n - img.length) 0
      ∧ (∀ j, j < n → (blocksOfImage img)[j]?
          = some (((img ++ List.replicate (32 * n - img.length) 0).drop (32 * j)).take 32))
      ∧ (16 ≤ img.length → img.length ≤ 1024 → 1 ≤ n ∧ n ≤ 32)

/-- POST-CHANGE admitted (R64 to R71): a valid image that fits page, table and pool, for a tag without a live change or with one
that the request supersedes, QUEUED, SENDING or STAGED in the same campaign. The superseded record finishes SUPERSEDED (R81)
with its blocks released; the new one is QUEUED with the first serial not passed over, the next sequence, and as displaced
version a STAGED superseded serial, or what a QUEUED or SENDING one held; the pool takes its blocks, POOL_LOW is set where the
free count fell through 1,024, the entry takes the serial, the campaign counts the admission, the reply carries Table 11-6 with
the derived unit price and, for a PRESENT tag, the projected completion beacon and AT_RISK (R72), and a PRESENT tag not yet
filed is filed (Table 7-2), a boosted one by the boost case (R122; log entry 29, DEDUCED). -/
def Obligations.PostChangeAdmits : Prop :=
  ∀ (num x : Byte) (id : TagId) (campaign : Option CampaignIndex) (img : List Byte) (final : FinalImage) (e : Entry)
    (old : Option Change) (s : State), Ready s → TableLaw s → s.entryOf id = some e → s.entryAt e.addr = some e →
    s.liveRecord e = old →
    (∀ r, old = some r → r.campaign = campaign ∧ (r.state = .queued ∨ r.state = .sending ∨ r.state = .staged)) →
    (∀ i, campaign = some i → (s.campaigns.get i).state = .opened) →
    imageResult img = .ok final → final.bytes.length ≤ pageCapacity e.pageClass →
    (s.table.records.length < 4096 ∨ old.isSome = true ∧ s.table.retire = [] ∧ s.table.outcomes.length < 1024) →
    (final.bytes.length + 31) / 32 ≤ s.pool.free + (old.map fun r => s.pool.heldBy r.serial).getD 0 →
    let n := (final.bytes.length + 31) / 32
    let passed := fun k : Serial => k = 0 ∨ (∃ r ∈ s.table.records, r.serial = k) ∨ e.shown = some k
      ∨ e.staged.map (·.serial) = some k
    ∃ t k data,
      exec (.postChange num (le 4 id.toNat ++ le 1 (campaignNumber campaign) ++ [x] ++ le 2 img.length ++ img)) s
          = .next { t with line.outbound := s.line.outbound ++ [⟨0x97, num, 0x00, data⟩] }
        ∧ SameBase s t ∧ SameTags s t
        ∧ (let perSlot := blocksPerSlot e.link
          let done := fun h : Cell => nextWake e.believed e.tagId (s.planner.last.get h)
            + BitVec.ofNat 24 (((n + perSlot - 1) / perSlot - 1) * 2 ^ e.believed.val)
          let slack := fun (h : Cell) (act : Beacon) =>
            (act - BitVec.ofNat 24 s.store.working.guardBeacons - done h).toInt
          let projection := match e.state, e.home with
            | .present, some h =>
              some (done h, campaign.any fun i => (s.campaigns.get i).activation.any fun a => decide (slack h a.beacon < 0))
            | _, _ => none
          data = postReply k n ((old.map (·.serial)).getD 0) final.unitPrice projection 0 0 0 0)
        ∧ ¬ passed k
        ∧ (∃ d : Nat, k = s.table.nextSerial + BitVec.ofNat 16 d
          ∧ ∀ j, j < d → passed (s.table.nextSerial + BitVec.ofNat 16 j))
        ∧ (∀ r, old = some r → FinishedAs t (r.finishedWith .superseded s.air.beacon))
        ∧ (∃ u, u = (match old with | none => s | some r => finish r.serial .superseded true s)
          ∧ t.table = { u.table with
              records := u.table.records ++ [{
                serial := k, sequence := s.table.nextSequence, addr := e.addr, tagId := e.tagId, campaign := campaign
                blockCount := n, checksum := imageChecksum (blocksOfImage final.bytes), acked := 0, state := .queued
                late := false, staleCut := false
                displaced := old.bind fun r => if r.state = .staged then some r.serial else r.displaced
                failures := 0, calls := 0, spent := 0, outcome := none, finalBeacon := none }]
              nextSerial := k + 1
              nextSequence := s.table.nextSequence + 1 }
          ∧ t.campaigns = (match campaign with
              | none => u.campaigns
              | some i => u.campaigns.set i { u.campaigns.get i with
                  admitted := (u.campaigns.get i).admitted + 1
                  live := (u.campaigns.get i).live + 1 })
          ∧ t.pool = { free := s.pool.free + (old.map fun r => s.pool.heldBy r.serial).getD 0 - n
                       held := (s.pool.held.filter fun h => decide (old.map (·.serial) ≠ some h.serial))
                         ++ [⟨k, blocksOfImage final.bytes⟩] }
          ∧ (1024 ≤ s.pool.free ∧ t.pool.free < 1024 → Flag.poolLow.isIn t.handler.flags = true)
          ∧ (s.pool.free < 1024 ∨ 1024 ≤ t.pool.free → t.handler = u.handler))
        ∧ (t.entryAt e.addr).map (·.live) = some (some k)
        ∧ t.planner = (match e.state, e.home, s.calendarOf e.addr with
          | .present, some h, none => (placeCalendar h ⟨e.addr, s.fileDue e h⟩ s).planner
          | _, _, _ => s.planner)

/-- A POST-CHANGE of right length is answered with 23 bytes, and one that is refused changes nothing (R66, R189). The seven
tests in their order (R66), with the details each refusal carries (Table 11-6): NO_SUCH_TAG; NO_SUCH_CAMPAIGN, CAMPAIGN_STATE;
IMAGE_MALFORMED with sub-reason and offset; PAGE_TOO_SMALL with the final size (R52); CONFLICT, TAG_BUSY (R67); TABLE_FULL
(R68); POOL_FULL with the free count (R57). From PAGE_TOO_SMALL on the derived unit price goes with it (R51, R72). That it goes
with PAGE_TOO_SMALL, and what a VERIFYING change in the request's own campaign gives, are DEDUCED (log entries 12 and 16). -/
def Obligations.PostChangeRefusedWhole : Prop :=
  (∀ (num : Byte) (payload : List Byte) (s : State), Ready s → lengthRight 0x17 payload →
    ∃ t code data,
      exec (.postChange num payload) s = .next { t with line.outbound := s.line.outbound ++ [⟨0x97, num, code, data⟩] }
        ∧ data.length = 23 ∧ (code ≠ 0x00 → t = s))
  ∧ ∀ (num n x : Byte) (id : TagId) (img : List Byte) (s : State), Ready s → img.length ≤ 1089 →
    let outcome := exec (.postChange num (le 4 id.toNat ++ [n, x] ++ le 2 img.length ++ img)) s
    let refused := fun (code : Byte) (price : Option UnitPrice) (reason : Byte) (offset size free : Nat) =>
      (.next { s with line.outbound := s.line.outbound
        ++ [⟨0x97, num, code, postReply 0 0 0 price none reason offset size free⟩] } : Out)
    (s.entryOf id = none → outcome = refused 0x04 none 0 0 0 0)
    ∧ ∀ e, s.entryOf id = some e →
      (4 < n.toNat → outcome = refused 0x0D none 0 0 0 0)
      ∧ (∀ i : CampaignIndex, n.toNat = i.val + 1 → (s.campaigns.get i).state ≠ .opened →
        outcome = refused 0x0E none 0 0 0 0)
      ∧ ∀ campaign : Option CampaignIndex, n.toNat = (campaign.map (·.val + 1)).getD 0 →
        (∀ i, campaign = some i → (s.campaigns.get i).state = .opened) →
        (∀ fault, imageResult img = .error fault →
          outcome = refused 0x0B none fault.reason.code fault.offset 0 0)
        ∧ ∀ final, imageResult img = .ok final →
          (pageCapacity e.pageClass < final.bytes.length →
            outcome = refused 0x0C final.unitPrice 0 0 final.bytes.length 0)
          ∧ (final.bytes.length ≤ pageCapacity e.pageClass →
            (∀ r, s.liveRecord e = some r → r.campaign ≠ campaign → outcome = refused 0x08 final.unitPrice 0 0 0 0)
            ∧ (∀ r, s.liveRecord e = some r → r.campaign = campaign → r.state = .withdrawing ∨ r.state = .verifying →
              outcome = refused 0x07 final.unitPrice 0 0 0 0)
            ∧ ∀ old, s.liveRecord e = old →
              (∀ r, old = some r → r.campaign = campaign ∧ (r.state = .queued ∨ r.state = .sending ∨ r.state = .staged)) →
              let room := s.table.records.length < 4096
                ∨ old.isSome = true ∧ s.table.retire = [] ∧ s.table.outcomes.length < 1024
              (¬ room → outcome = refused 0x09 final.unitPrice 0 0 0 0)
              ∧ (room → s.pool.free + (old.map fun r => s.pool.heldBy r.serial).getD 0 < (final.bytes.length + 31) / 32 →
                outcome = refused 0x0A final.unitPrice 0 0 0 s.pool.free))

/-- CANCEL-CHANGE (R80): a QUEUED or SENDING record finishes CANCELLED, its blocks freed, its tag without a live change and off
the boost lists, its campaign with one live record fewer, and OUTCOME_BACKLOG set if its outcome must wait. The Call Planner is
told of the ended work (R63, Table 7-2): a PRESENT tag keeps its calendar entry while an order is pending, or is then filed by
its class if it has none (log entry 24, DEDUCED), and loses it otherwise. The entries, boosts and filings of other tags, and the
other records, stay. Every finishing of a record, whatever its cause, does the same to the change table, its campaign, the pool
and the latch (R81, R82). A STAGED record becomes WITHDRAWING and the Call Planner is told (where a boosted tag is then filed:
log entry 29); WITHDRAWING is ALREADY, VERIFYING is TOO_LATE, and a FINISHED or unknown serial NO_SUCH_CHANGE. -/
def Obligations.CancelChangeRule : Prop :=
  (∀ (k : Serial) (code : OutcomeCode) (within : Bool) (r : Change) (s : State), TableLaw s → s.recordOf k = some r →
    RecordEnds r code s (finish k code within s))
  ∧ ∀ (num : Byte) (k : Serial) (s : State), Ready s → TableLaw s →
    let answer := fun (code : Byte) (data : List Byte) (t : State) =>
      (.next { t with line.outbound := s.line.outbound ++ [⟨0x98, num, code, data⟩] } : Out)
    (s.recordOf k = none → exec (.cancelChange num (le 2 k.toNat)) s = answer 0x12 [] s)
    ∧ (∀ r, s.recordOf k = some r →
      (r.state = .queued ∨ r.state = .sending →
        ∃ t, exec (.cancelChange num (le 2 k.toNat)) s = answer 0x00 [5] t
          ∧ SameBase s t ∧ SameTags s t ∧ OthersKept r.addr s t ∧ RecordEnds r .cancelled s t ∧ t.pool = s.pool.release k
          ∧ (∀ e ∈ t.dir.entries, e.addr = r.addr → e.live ≠ some k)
          ∧ (∀ d, ∀ x ∈ t.planner.boosts.get d, x.addr ≠ r.addr)
          ∧ (∀ i, (t.campaigns.get i).live = (s.campaigns.get i).live - (if r.campaign = some i then 1 else 0))
          ∧ (k ∈ t.table.retire → Flag.outcomeBacklog.isIn t.handler.flags = true)
          ∧ FinishedAs t (r.finishedWith .cancelled s.air.beacon)
          ∧ (∀ f, f ≠ Flag.outcomeBacklog → f.isIn t.handler.flags = f.isIn s.handler.flags)
          ∧ (DirectoryLaw s → LiveLaw s → ∀ e, s.entryAt r.addr = some e →
            CalendarTold e (e.commanded.isSome = true ∨ e.flash = true) (ClassFiling s e) s t))
      ∧ (r.state = .staged →
        ∃ t, t = workNotice r.addr { s with
            table.records := s.table.records.map fun q => if q.serial = k then { q with state := .withdrawing } else q }
          ∧ exec (.cancelChange num (le 2 k.toNat)) s = answer 0x00 [3] t)
      ∧ (r.state = .withdrawing → exec (.cancelChange num (le 2 k.toNat)) s = answer 0x13 [] s)
      ∧ (r.state = .verifying → exec (.cancelChange num (le 2 k.toNat)) s = answer 0x14 [] s)
      ∧ (r.state = .finished → exec (.cancelChange num (le 2 k.toNat)) s = answer 0x12 [] s))

/-- OUTCOMES_READY_TIMEOUT and FETCH-OUTCOMES (R82, R84, R94, R174): with the latch ARMED and records waiting below the trigger,
the time-out places the notice and makes the latch SPENT. A fetch: the oldest outcome records, at most 16, leave the list for
the reply, which carries their count and the fields of Table 11-7 for each; then the records at the head of the retire queue
move in behind, in their order and while the list has room, so that it never passes 1,024 records, each leaving the table, each
tallied, a CUT campaign becoming DONE, with its notice, when a tally brings their sum to its admitted count (R103, R104), and
only then. A list left below the trigger has its latch ARMED and its timer at 0; one that records moved into up to the trigger
has the latch SPENT, the notice placed if it was ARMED. -/
def Obligations.OutcomesRule : Prop :=
  (∀ s : State, s.powered = true → s.handler.latch = .armed → s.table.outcomes ≠ [] →
    s.table.outcomes.length < s.store.working.outcomeTrigger →
    exec .outcomesReadyTimeout s = .next { s with
      handler.notices.outcomesReady := true
      handler.latch := .spent
      handler.timer := 0 })
  ∧ ∀ (num : Byte) (s : State), Ready s →
    let trigger := s.store.working.outcomeTrigger
    let left : State := { s with table.outcomes := s.table.outcomes.drop 16 }
    ∃ t u data, exec (.fetchOutcomes num []) s = .next { t with line.outbound := s.line.outbound ++ [⟨0x9A, num, 0x00, data⟩] }
      ∧ field 0 1 data = min 16 s.table.outcomes.length ∧ data.length = 1 + 15 * min 16 s.table.outcomes.length
      ∧ (∀ n o, (s.table.outcomes.take 16)[n]? = some o → OutcomeFields o ((data.drop (1 + 15 * n)).take 15))
      ∧ SameBase s t ∧ t.dir = s.dir ∧ t.pool = s.pool ∧ t.planner = s.planner ∧ t.handler.flags = s.handler.flags
      ∧ Passes left u
      ∧ (s.table.outcomes.length ≤ 1024 → t.table.outcomes.length ≤ 1024)
      ∧ t = { u with
          handler.latch := if u.table.outcomes.length < trigger then .armed else u.handler.latch
          handler.timer := if u.table.outcomes.length < trigger ∨ u.handler.latch = .armed then 0 else u.handler.timer }
      ∧ (t.table.outcomes.length < trigger → t.handler.latch = .armed ∧ t.handler.timer = 0)
      ∧ (s.table.retire = [] → t = { s with
          table.outcomes := s.table.outcomes.drop 16
          handler.latch := if (s.table.outcomes.drop 16).length < trigger then .armed else s.handler.latch
          handler.timer := if (s.table.outcomes.drop 16).length < trigger ∨ s.handler.latch = .armed then 0
            else s.handler.timer })

/-! ### Cells, slots and joins -/

/-- Heads (R11, R12): a loss sets CELL_DOWN; with a window open, the window is gone and each slot not ended is ended at once, in
slot order and without a report. A return sets no flag. -/
def Obligations.HeadRule : Prop :=
  ∀ (c : Cell) (s : State), s.powered = true →
    (exec (.headReturned c) s = .next { s with cells.heads := s.cells.heads.set c true })
    ∧ (s.cells.heads.get c = true → s.cells.windows.get c = none →
      exec (.headLost c) s = .next (raiseFlag .cellDown { s with cells.heads := s.cells.heads.set c false }))
    ∧ (∀ w, s.cells.heads.get c = true → s.cells.windows.get c = some w →
      exec (.headLost c) s = .next (((w.slots.filter fun x => !x.ended).map (·.snapshot)).foldl
        (fun t p => endSlot p none 0 t)
        (raiseFlag .cellDown { s with
          cells.heads := s.cells.heads.set c false
          cells.windows := s.cells.windows.set c none })))

/-- CELL_BEACON_INSTANT (R99, R126, R135, R141, R143). With no tag due, the last instant is B and boosts that ended before B
leave; a cell that transmits sends the beacon frame of Table 11-9 and opens a window with an empty call list, the mode of the
instant, and the grant at the head of its queue, and a cell that does not transmits nothing. Taken before a beacon start (the
model's reading: DEDUCED, log entry 17), where the cell's offset will be 0 and no preset is pending, the instant is that of the
next beacon under the geometry to come, and else nothing happens (log entries 4 and 17). -/
def Obligations.InstantRule : Prop :=
  (∀ (c : Cell) (s : State), s.powered = true → s.planner.last.get c ≠ s.air.beacon → s.cells.windows.get c = none →
    (∀ x ∈ s.planner.calendar.get c, x.due.toNat % 128 ≠ s.air.beacon.toNat % 128) →
    let b := s.air.beacon
    let t : State := { s with planner := { s.planner with
      last := s.planner.last.set c b
      boosts := s.planner.boosts.set c ((s.planner.boosts.get c).filter fun x => !isBefore x.boostEnd b) } }
    let on := (s.air.geometry.cells.get c).enabled = true ∧ s.cells.heads.get c = true ∧ s.store.mode ≠ .quiet
    let site := s.store.working.siteCode
    (¬ on → exec (.cellBeaconInstant c .afterStart) s = .next t)
    ∧ (on → s.dir.grants.get c = [] → exec (.cellBeaconInstant c .afterStart) s = .next { t with
        cells.windows := s.cells.windows.set c
          (some ⟨b, s.store.mode, beaconBytes site b c s.store.mode [] none, none, []⟩) })
    ∧ (∀ g rest e, on → s.dir.grants.get c = g :: rest → s.entryAt g.addr = some e →
        exec (.cellBeaconInstant c .afterStart) s = .next { t with
          dir.grants := s.dir.grants.set c rest
          cells.windows := s.cells.windows.set c (some ⟨b, s.store.mode,
            beaconBytes site b c s.store.mode [] (some (g, e.believed)), some g, []⟩) }))
  ∧ ∀ (c : Cell) (s : State), s.powered = true →
    let w := s.store.working
    ((w.cells.get c).offset = 0 → s.air.preset = none →
      ∃ t, exec (.cellBeaconInstant c .afterStart) { s with
            air.beacon := s.air.beacon + 1
            air.geometry := ⟨w.period, w.cells, w.capacityNight, w.capacityDay⟩ } = .next t
        ∧ exec (.cellBeaconInstant c .beforeStart) s = .next { t with air := s.air })
    ∧ ((w.cells.get c).offset ≠ 0 ∨ s.air.preset ≠ none → exec (.cellBeaconInstant c .beforeStart) s = .next s)

/-- The call list of an instant (R120, R126 to R130, R109, R110, R112). The due tags are ordered by urgency and walked: one is
called while fewer than the cell's capacity are called and its remaining charge reaches its threshold, call cost and report cost
with the block cost in a delivery; one that falls short sets BUDGET_SHORT; whoever is not called is filed again, a boosted tag
by the boost case (R122; log entry 29, DEDUCED), and whoever is called has no calendar entry. The capacity is C_N in NIGHT, C_D
in DAY, and 0 where the cell does not transmit, which opens no window; one that transmits sends the beacon frame of Table 11-9
with the called addresses and the grant (R143). Each call debits its tag by call cost + blocks × block cost + report cost,
within its remaining charge, and carries at most 8 blocks in NIGHT and 2 in DAY. The grant sent leaves the head of its queue
(R39); the strangers, the other queues and windows, the settings, the line, the heads, the pool, the campaigns, the records no
call names and the boosts of tags not called stay, but for boosts that ended before B (R135), and of the Record Handler only
BUDGET_SHORT may change. -/
def Obligations.CallsWithinMeans : Prop :=
  ∀ (c : Cell) (s : State), s.powered = true → DirectoryLaw s → OneFiling s → s.planner.last.get c ≠ s.air.beacon →
    s.cells.windows.get c = none →
    let b := s.air.beacon
    let w := s.store.working
    let on : Bool := (s.air.geometry.cells.get c).enabled && s.cells.heads.get c && decide (s.store.mode ≠ .quiet)
    let capacity := if on then (match s.store.mode with
      | .night => s.air.geometry.capacityNight
      | .day => s.air.geometry.capacityDay
      | .quiet => 0) else 0
    let delivery := fun e : Entry => (s.liveRecord e).any fun r =>
      decide ((r.state = .queued ∨ r.state = .sending) ∧ r.acked < r.blockCount)
    let threshold := fun e : Entry => w.callCost + (if delivery e then w.blockCost else 0) + w.reportCost
    ∃ t order slots, exec (.cellBeaconInstant c .afterStart) s = .next t
      ∧ (∀ e, e ∈ order ↔ e ∈ s.dir.entries
        ∧ ∃ y ∈ s.planner.calendar.get c, y.addr = e.addr ∧ y.due.toNat % 128 = b.toNat % 128)
      ∧ order.Pairwise (s.calledBefore b)
      ∧ (slots.map (·.snapshot.addr)).Sublist (order.map (·.addr))
      ∧ slots.length ≤ capacity
      ∧ (let calledOf := fun l : List Entry => slots.countP fun x => decide (x.snapshot.addr ∈ l.map (·.addr))
        (∀ ahead e behind, order = ahead ++ e :: behind →
          (e.addr ∈ slots.map (·.snapshot.addr) ↔ calledOf ahead < capacity ∧ threshold e ≤ e.remaining))
        ∧ (Flag.budgetShort.isIn t.handler.flags = true ↔ Flag.budgetShort.isIn s.handler.flags = true
          ∨ ∃ ahead e behind, order = ahead ++ e :: behind ∧ calledOf ahead < capacity ∧ e.remaining < threshold e))
      ∧ (∀ d y, y ∈ t.planner.calendar.get d ↔
          (y ∈ s.planner.calendar.get d ∧ ¬ (d = c ∧ y.due.toNat % 128 = b.toNat % 128))
          ∨ ∃ e ∈ order, e.addr ∉ slots.map (·.snapshot.addr) ∧ e.home = some d ∧ y = ⟨e.addr, t.fileDue e d⟩)
      ∧ t.planner.last = s.planner.last.set c b
      ∧ t.dir.entries = s.dir.entries.map (fun e =>
          match slots.find? fun x => decide (x.snapshot.addr = e.addr) with
          | none => e
          | some x => { e with remaining := e.remaining - x.snapshot.debit })
      ∧ t.dir.grants = (if on then s.dir.grants.set c ((s.dir.grants.get c).drop 1) else s.dir.grants)
      ∧ t.dir.strangers = s.dir.strangers ∧ t.powered = s.powered ∧ t.store = s.store ∧ t.air = s.air ∧ t.line = s.line
      ∧ t.cells.heads = s.cells.heads ∧ t.pool = s.pool ∧ t.campaigns = s.campaigns
      ∧ t.table = { s.table with records := t.table.records }
      ∧ (∀ r ∈ s.table.records, (∀ x ∈ slots, x.snapshot.serial ≠ r.serial) → r ∈ t.table.records)
      ∧ (∀ d y, y.addr ∉ slots.map (·.snapshot.addr) → (y ∈ t.planner.boosts.get d ↔
          y ∈ s.planner.boosts.get d ∧ ¬ (d = c ∧ isBefore y.boostEnd b = true)))
      ∧ (t.handler = s.handler ∨ t.handler = (raiseFlag .budgetShort s).handler)
      ∧ t.freeIndex = s.freeIndex ∧ t.pending = s.pending
      ∧ (on = false → slots = [] ∧ t.cells = s.cells)
      ∧ (on = true → ∃ frame, t.cells.windows = s.cells.windows.set c
          (some ⟨b, s.store.mode, frame, (s.dir.grants.get c).head?, slots⟩)
        ∧ (let bytes := beaconBytes w.siteCode b c s.store.mode (slots.map (·.snapshot.addr))
          (s.dir.grants.get c = [] → frame = bytes none)
          ∧ ∀ g rest e, s.dir.grants.get c = g :: rest → s.entryAt g.addr = some e → frame = bytes (some (g, e.believed))))
      ∧ ∀ x ∈ slots, x.ended = false ∧ ∃ e, s.entryAt x.snapshot.addr = some e
        ∧ x.snapshot.debit = w.callCost + x.snapshot.carried * w.blockCost + w.reportCost
        ∧ x.snapshot.debit ≤ e.remaining
        ∧ x.snapshot.carried ≤ (if s.store.mode = .day then 2 else 8)

/-- The snapshot of each call (R73, R111, R131, R132, R136, Table 7-6), fixed at the instant from the entry and the live change
as they stand: what it names and orders, its blocks, and a boost order exactly where the six conditions hold, a tag's boost list
entry then being provisional. Of E and B + span where they lie 8,388,608 beacons apart, and neither is the earlier by the serial
rules, the order carries B + span (log entry 35, DESIGN CHOICE). The slot's downlink is built from it (R144, R187): the header
of Table 11-10 and one frame for each block copy. Each record named has its calls made and its charge spent raised and moves
from QUEUED to SENDING. -/
def Obligations.SnapshotRule : Prop :=
  ∀ (c : Cell) (w : Window) (s t : State), DirectoryLaw s → OneFiling s → TableLaw s →
    exec (.cellBeaconInstant c .afterStart) s = .next t → s.cells.windows.get c = none →
    t.cells.windows.get c = some w →
    let b := s.air.beacon
    let costs := s.store.working
    (∀ before x after, w.slots = before ++ x :: after → ∃ e, s.entryAt x.snapshot.addr = some e
      ∧ (let p := x.snapshot
        let live := s.liveRecord e
        let left := (live.map fun r => r.blockCount - r.acked).getD 0
        let delivery := (∃ r, live = some r ∧ (r.state = .queued ∨ r.state = .sending)) ∧ 0 < left
        let most := min (min (blocksPerSlot e.link) left) (if s.store.mode = .day then 2 else 8)
        let carries := fun boost : Nat => if costs.blockCost = 0 then most
          else min most ((e.remaining - costs.callCost - costs.reportCost - boost) / costs.blockCost)
        let paid := fun k : Nat => costs.callCost + k * costs.blockCost + costs.reportCost
        let price := fun u : Beacon => boostPrice b u e.believed e.tagId costs.boostWakeCost
        p.cell = c ∧ p.beacon = b ∧ p.slot = before.length ∧ p.addr = e.addr ∧ p.tagId = e.tagId
        ∧ p.serial = (live.map (·.serial)).getD 0
        ∧ p.change = live.map (fun r => ⟨r.blockCount, r.checksum, r.acked,
            r.campaign.bind fun i => (s.campaigns.get i).activation.map (·.beacon)⟩)
        ∧ p.wakeOrder = e.commanded ∧ p.flash = e.flash
        ∧ (p.withdraw = true ↔ ∃ r, live = some r ∧ r.state = .withdrawing)
        ∧ (p.verify = true ↔ ∃ r, live = some r ∧ r.state = .verifying)
        ∧ (¬ delivery → p.carried = 0 ∧ p.blocks = [])
        ∧ (∀ r, live = some r → delivery → p.first = r.acked
          ∧ p.carried = carries ((p.boostOrder.map price).getD 0)
          ∧ p.blocks = ((s.pool.blocksOf r.serial).drop r.acked).take p.carried)
        ∧ p.debit = paid p.carried
        ∧ (∀ u, p.boostOrder = some u ↔ ∃ r i a, live = some r ∧ (r.state = .queued ∨ r.state = .sending)
          ∧ r.late = false ∧ r.campaign = some i ∧ (s.campaigns.get i).activation = some a
          ∧ u = (if (b + BitVec.ofNat 24 costs.span - a.beacon).toNat < 8388608 then a.beacon
              else b + BitVec.ofNat 24 costs.span)
          ∧ (s.urgency b e).2 < 0
          ∧ (∀ x, e.boostEnd = some x → isBefore x b = true)
          ∧ (∀ d, ∀ y ∈ s.planner.boosts.get d, y.addr = e.addr → d = c ∧ isBefore y.boostEnd b = true)
          ∧ ((s.planner.boosts.get c).countP fun y => !isBefore y.boostEnd b)
              + before.countP (fun y => y.snapshot.boostOrder.isSome) < 16
          ∧ isAfter u b = true
          ∧ paid (if 0 < left then carries 0 else 0) + price u + paid 1 ≤ e.remaining)
        ∧ (let flags := (if p.change.any (fun ch => ch.effective.isNone) then 1 else 0)
              + (if p.withdraw then 2 else 0) + (if p.verify then 4 else 0) + (if p.flash then 8 else 0)
              + (if p.wakeOrder.isSome then 16 else 0) + (if p.boostOrder.isSome then 32 else 0)
          let header := 0xB2 :: le 4 p.tagId.toNat ++ le 2 p.addr ++ le 2 p.serial.toNat
            ++ le 1 ((p.change.map (·.blockCount)).getD 0) ++ le 2 ((p.change.map (·.checksum.toNat)).getD 0)
            ++ le 3 (((p.change.bind (·.effective)).map (·.toNat)).getD 0) ++ le 1 flags ++ le 1 p.first ++ le 1 p.carried
            ++ le 1 ((p.wakeOrder.map (·.val)).getD 0) ++ le 3 ((p.boostOrder.map (·.toNat)).getD 0)
          let checked := fun bytes : List Byte => bytes ++ le 2 (crc16 bytes).toNat
          x.downlink = checked header :: p.blocks.mapIdx fun j block => checked (0xB3 :: le 1 (p.first + j) ++ block))))
    ∧ t.table = { s.table with records := s.table.records.map fun q =>
        let named := w.slots.filter fun x => decide (x.snapshot.serial = q.serial)
        if named = [] then q
        else { q with
          calls := min (q.calls + named.length) 255
          state := if q.state = .queued then .sending else q.state
          spent := min (q.spent + (named.map (·.snapshot.debit)).sum) 65535 } }
    ∧ (∀ d y, y ∈ t.planner.boosts.get d ↔
        (y ∈ s.planner.boosts.get d ∧ ¬ (d = c ∧ isBefore y.boostEnd b = true))
        ∨ d = c ∧ ∃ x ∈ w.slots, ∃ u, x.snapshot.boostOrder = some u ∧ y = ⟨x.snapshot.addr, u, false⟩)
    ∧ t.pool = s.pool ∧ t.campaigns = s.campaigns

/-- SLOT_END (R153 to R155, R157): a report of the slot's tag brings the entry's facts and clears its misses, a boost end before
the window's beacon being taken as none (and so one that is by the serial rules neither before it nor at or after it: log entry
35, DESIGN CHOICE), and a battery level that falls to 3 or below sets LOW_BATTERY; the tag is then filed afresh, a boosted one
by the boost case (R122; log entry 29, DEDUCED), or left unfiled (R138). The other entries, the calendar entries and boosts of
other tags, the last instants, and every other flag but OUTCOME_BACKLOG stay. A frame that does not decode, or a report of
another tag id, is a missed report: the misses rise by 1, up to M_lost, the boost list entry is resolved and the tag is filed;
LOST is left to `LostRule`, and an entry not PRESENT has no such transition (DEDUCED, log entry 15). A filing is due at λ_h + 1
in the boost case, and at the next wake of the believed class in the class case (R122). A slot whose tag is no longer held only
ends. -/
def Obligations.SlotEndRule : Prop :=
  (∀ (e : Entry) (h : Cell) (s : State), FiledFor s e h (s.fileDue e h))
  ∧ ∀ (c : Cell) (level : Byte) (p : Snapshot) (windows : Quad (Option Window)) (s : State), s.powered = true →
    NextSlot s c p windows →
    (∀ received, (∀ e ∈ s.dir.entries, e.addr = p.addr → e.tagId ≠ p.tagId) →
      exec (.slotEnd c received level) s = .next { s with cells.windows := windows })
    ∧ (∀ bytes, (∀ r, decodeReport bytes = some r → r.tagId ≠ p.tagId) →
      exec (.slotEnd c (some bytes) level) s = exec (.slotEnd c none level) s)
    ∧ (∀ e, s.entryAt p.addr = some e → e.tagId = p.tagId →
      e.misses + 1 < s.store.working.missLimit ∨ e.state ≠ .present →
      exec (.slotEnd c none level) s = .next (slotFiling p.addr (resolveBoost p none { s with
        cells.windows := windows
        dir.entries := s.dir.entries.map fun x =>
          if x.addr = p.addr then { x with misses := min (x.misses + 1) s.store.working.missLimit } else x })))
    ∧ (∀ e (r : Report), s.entryAt p.addr = some e → e.tagId = p.tagId → r.tagId = p.tagId → p.cell = c → r.Sendable →
      ∃ t f, exec (.slotEnd c (some (reportFrame r)) level) s = .next t ∧ t.entryAt p.addr = some f
        ∧ t.cells.windows = windows ∧ t.cells.heads = s.cells.heads ∧ t.line = s.line ∧ t.air = s.air
        ∧ t.store = s.store ∧ t.dir.grants = s.dir.grants ∧ t.dir.strangers = s.dir.strangers
        ∧ t.powered = s.powered ∧ t.handler.task = s.handler.task ∧ t.freeIndex = s.freeIndex ∧ t.pending = s.pending
        ∧ (DirectoryLaw s → TableLaw s → LiveLaw s → OthersKept p.addr s t)
        ∧ f = { e with
            misses := 0
            shown := some r.shown
            staged := some r.staged
            battery := some r.battery
            believed := r.wakeClass
            commanded := if e.commanded = some r.wakeClass then none else e.commanded
            boostEnd := r.boostEnd.filter fun u => decide ((u - p.beacon).toNat < 8388608)
            flash := if r.flashDone then false else e.flash
            link := if e.home = some c then some level else e.link
            remaining := f.remaining
            live := f.live }
        ∧ (Flag.lowBattery.isIn t.handler.flags = true ↔ Flag.lowBattery.isIn s.handler.flags = true
          ∨ r.battery.val ≤ 3 ∧ ∀ old, e.battery = some old → 3 < old.val)
        ∧ (∀ g, g ≠ Flag.lowBattery → g ≠ .outcomeBacklog → g.isIn t.handler.flags = g.isIn s.handler.flags)
        ∧ (e.state ≠ .present → ∀ d y, y.addr = p.addr → (y ∈ t.planner.calendar.get d ↔ y ∈ s.planner.calendar.get d))
        ∧ (e.state = .present → t.hasWork f = false → ∀ d, ∀ y ∈ t.planner.calendar.get d, y.addr ≠ p.addr)
        ∧ (∀ h, e.state = .present → t.hasWork f = true → e.home = some h → ∀ d y, y.addr = p.addr →
          (y ∈ t.planner.calendar.get d ↔ d = h ∧ y.due = t.fileDue f h)))

/-- A report and the change record (R74 to R79). It acts where the snapshot named the entry's live change. A QUEUED or SENDING
record: shown, it finishes APPLIED, or APPLIED_LATE with the mark; staged COMPLETE, a becomes n and it is STAGED while its
campaign is OPEN, else SENDING; staged PARTIAL, a follows the tag; another page staged, a becomes 0. STAGED stays while staged
COMPLETE, and else becomes QUEUED with a = 0. VERIFYING: shown, APPLIED; staged COMPLETE, it stays; else QUEUED and LATE with a
= 0. WITHDRAWING: staged, it stays, and else finishes WITHDRAWN. Staged BAD, a becomes 0 and delivery starts again, and the
second time the record finishes FAILED_CORRUPT. A report that shows the serial staged clears the displaced version. Otherwise no
record moves. In no case does another record move, but that what can pass does when one finishes (R82); the next serial and
sequence, the other campaigns but for the tallies of what passes, the other entries, and the filings and boosts of other tags
stay. The charge spent is left to `BoostAtSlotEnd`. -/
def Obligations.ReportMovesChange : Prop :=
  ∀ (c : Cell) (level : Byte) (p : Snapshot) (windows : Quad (Option Window)) (e : Entry) (r : Report) (s : State),
    s.powered = true → NextSlot s c p windows → DirectoryLaw s → TableLaw s → LiveLaw s →
    s.entryAt p.addr = some e → e.tagId = p.tagId → r.tagId = p.tagId → r.Sendable →
    ∃ t, exec (.slotEnd c (some (reportFrame r)) level) s = .next t
      ∧ OthersKept p.addr s t ∧ t.dir.grants = s.dir.grants
      ∧ (p.serial = 0 ∨ e.live ≠ some p.serial →
        t.table = { s.table with records := t.table.records }
        ∧ t.table.records.map (fun q => { q with spent := 0 }) = s.table.records.map (fun q => { q with spent := 0 })
        ∧ (∀ q ∈ s.table.records, e.live ≠ some q.serial → q ∈ t.table.records)
        ∧ t.pool = s.pool ∧ t.campaigns = s.campaigns)
      ∧ ∀ q, p.serial ≠ 0 → e.live = some p.serial → s.recordOf p.serial = some q →
        let cleared := if r.staged.serial = p.serial then { q with displaced := none } else q
        let corrupt := { q with displaced := none, acked := 0, failures := q.failures + 1 }
        let ends := fun (x : Change) code => FinishedAs t (q.finishedWith code s.air.beacon) ∧ t.pool = s.pool.release p.serial
          ∧ (t.entryAt p.addr).map (·.live) = some none ∧ RecordEnds x code s t
        let finishes := ends cleared
        let becomes := fun q' : Change => (∃ x ∈ t.table.records, { x with spent := q'.spent } = q')
          ∧ (∃ spent, t.table = { s.table with
              records := s.table.records.map fun x => if x.serial = p.serial then { q' with spent := spent } else x })
          ∧ t.pool = s.pool ∧ t.campaigns = s.campaigns ∧ (t.entryAt p.addr).map (·.live) = some (some p.serial)
        let isOpen := q.campaign.any fun i => decide ((s.campaigns.get i).state = .opened)
        let stagedAs := fun x : Condition => r.staged.serial = p.serial ∧ r.staged.condition = x
        (q.state = .queued ∨ q.state = .sending →
          (r.shown = p.serial → finishes (if q.late then .appliedLate else .applied))
          ∧ (r.shown ≠ p.serial → stagedAs .complete →
            becomes { cleared with acked := q.blockCount, state := if isOpen then .staged else .sending })
          ∧ (r.shown ≠ p.serial → stagedAs .partly →
            becomes { cleared with acked := min r.nextBlock q.blockCount, state := .sending })
          ∧ (r.shown ≠ p.serial → r.staged.serial ≠ p.serial → becomes { cleared with acked := 0, state := .sending })
          ∧ (r.shown ≠ p.serial → stagedAs .bad → q.failures = 0 → becomes { corrupt with state := .sending })
          ∧ (r.shown ≠ p.serial → stagedAs .bad → q.failures ≠ 0 → ends corrupt .failedCorrupt))
        ∧ (q.state = .staged →
          (stagedAs .complete → becomes cleared)
          ∧ (¬ stagedAs .complete → ¬ stagedAs .bad → becomes { cleared with acked := 0, state := .queued })
          ∧ (stagedAs .bad → q.failures = 0 → becomes { corrupt with state := .sending })
          ∧ (stagedAs .bad → q.failures ≠ 0 → ends corrupt .failedCorrupt))
        ∧ (q.state = .verifying →
          (r.shown = p.serial → finishes .applied)
          ∧ (r.shown ≠ p.serial → stagedAs .complete → becomes cleared)
          ∧ (r.shown ≠ p.serial → ¬ stagedAs .complete → ¬ stagedAs .bad →
            becomes { cleared with acked := 0, state := .queued, late := true })
          ∧ (r.shown ≠ p.serial → stagedAs .bad → q.failures = 0 →
            becomes { corrupt with state := .queued, late := true })
          ∧ (r.shown ≠ p.serial → stagedAs .bad → q.failures ≠ 0 → ends corrupt .failedCorrupt))
        ∧ (q.state = .withdrawing →
          (r.staged.serial = p.serial → becomes cleared) ∧ (r.staged.serial ≠ p.serial → finishes .withdrawn))

/-- The boost at a slot end (R115, R134, Table 7-5). A report that shows the boost end its slot ordered confirms the boost: its
cost, by the class the report shows, is debited from the remaining charge, and added to the charge spent of the change that is
then still live; no other report debits anything. A provisional boost list entry becomes confirmed by such a report and goes at
any other end of a slot that carried the order; a confirmed one goes at a report that shows no boost end at or after the
window's beacon, in a slot without the order (one that is by the serial rules neither at or after nor before it counts as not
shown: log entry 35, DESIGN CHOICE); an entry dropped with a finished record stays dropped, and none is placed. -/
def Obligations.BoostAtSlotEnd : Prop :=
  ∀ (c : Cell) (level : Byte) (p : Snapshot) (windows : Quad (Option Window)) (e : Entry) (received : Option Report)
    (s : State), s.powered = true → NextSlot s c p windows → DirectoryLaw s → TableLaw s → LiveLaw s → OneFiling s →
    s.entryAt p.addr = some e → e.tagId = p.tagId →
    (∀ r, received = some r → r.tagId = p.tagId ∧ r.Sendable) →
    (received = none → e.misses + 1 < s.store.working.missLimit ∨ e.state ≠ .present) →
    let confirms := p.boostOrder.isSome = true ∧ received.bind (·.boostEnd) = p.boostOrder
    let cost := ((p.boostOrder.bind fun u => received.map fun r =>
      boostPrice p.beacon u r.wakeClass e.tagId s.store.working.boostWakeCost)).getD 0
    ∃ t f, exec (.slotEnd c (received.map reportFrame) level) s = .next t ∧ t.entryAt p.addr = some f
      ∧ (confirms → f.remaining = e.remaining - cost) ∧ (¬ confirms → f.remaining = e.remaining)
      ∧ (∀ k q, f.live = some k → s.recordOf k = some q → ∃ x ∈ t.table.records, x.serial = k
        ∧ (confirms → x.spent = min (q.spent + cost) 65535) ∧ (¬ confirms → x.spent = q.spent))
      ∧ (∀ d y, y.addr ≠ p.addr → (y ∈ t.planner.boosts.get d ↔ y ∈ s.planner.boosts.get d))
      ∧ ((∀ d, ∀ x ∈ s.planner.boosts.get d, x.addr ≠ p.addr) → ∀ d, ∀ y ∈ t.planner.boosts.get d, y.addr ≠ p.addr)
      ∧ ∀ d x, x ∈ s.planner.boosts.get d → x.addr = p.addr →
        let left := (t.planner.boosts.get d).filter fun y => decide (y.addr = p.addr)
        let shows := ∃ u, received.bind (·.boostEnd) = some u ∧ atOrAfter u p.beacon = true
        (f.live ≠ e.live → left = [])
        ∧ (f.live = e.live → p.boostOrder.isSome = true → x.confirmed = false →
          (∀ u, confirms → p.boostOrder = some u → left = [⟨p.addr, u, true⟩]) ∧ (¬ confirms → left = []))
        ∧ (f.live = e.live → p.boostOrder.isSome = true → x.confirmed = true → left = [x])
        ∧ (f.live = e.live → p.boostOrder = none → x.confirmed = true →
          (received = none ∨ shows → left = [x]) ∧ (received ≠ none → ¬ shows → left = []))

/-- The LOST transition (R42, R158): the miss that brings a PRESENT entry to M_lost makes it LOST and sets TAG_LOST, and its
calendar entry, boost and grants go; the entry keeps all else. Its live change ends by its state (Table 8-2): QUEUED and SENDING
FAILED_UNREACHABLE, VERIFYING APPLIED_UNVERIFIED, WITHDRAWING WITHDRAW_UNCONFIRMED; STAGED is kept. Where it ends, its campaign
has one live record fewer, and no other record moves, but that what can pass does (R81, R82). -/
def Obligations.LostRule : Prop :=
  ∀ (c : Cell) (level : Byte) (p : Snapshot) (windows : Quad (Option Window)) (e : Entry) (s : State),
    s.powered = true → NextSlot s c p windows → DirectoryLaw s → TableLaw s → LiveLaw s →
    s.entryAt p.addr = some e → e.tagId = p.tagId → e.state = .present → s.store.working.missLimit ≤ e.misses + 1 →
    ∃ t live, exec (.slotEnd c none level) s = .next t
      ∧ t.dir = { s.dir with
          entries := s.dir.entries.map fun x =>
            if x.addr = p.addr then { e with state := .lost, misses := s.store.working.missLimit, live := live } else x
          grants := s.dir.grants.map fun l => l.filter fun g => decide (g.tagId ≠ p.tagId) }
      ∧ t.planner = { s.planner with
          calendar := s.planner.calendar.map fun l => l.filter fun x => decide (x.addr ≠ p.addr)
          boosts := s.planner.boosts.map fun l => l.filter fun x => decide (x.addr ≠ p.addr) }
      ∧ t.cells = { s.cells with windows := windows } ∧ t.line = s.line ∧ t.air = s.air ∧ t.store = s.store
      ∧ t.powered = s.powered ∧ t.handler.task = s.handler.task ∧ t.freeIndex = s.freeIndex ∧ t.pending = s.pending
      ∧ Flag.tagLost.isIn t.handler.flags = true
      ∧ (∀ f, f ≠ Flag.tagLost → f ≠ .outcomeBacklog → f.isIn t.handler.flags = f.isIn s.handler.flags)
      ∧ (let ends := fun (r : Change) (code : OutcomeCode) =>
          live = none ∧ FinishedAs t (r.finishedWith code s.air.beacon) ∧ t.pool = s.pool.release r.serial
            ∧ RecordEnds r code s t
        let kept := live = e.live ∧ t.table = s.table ∧ t.pool = s.pool ∧ t.campaigns = s.campaigns
        (s.liveRecord e = none → kept)
        ∧ ∀ r, s.liveRecord e = some r →
          (r.state = .queued ∨ r.state = .sending → ends r .failedUnreachable)
          ∧ (r.state = .verifying → ends r .appliedUnverified)
          ∧ (r.state = .withdrawing → ends r .withdrawUnconfirmed)
          ∧ (r.state = .staged → kept))

/-- JOIN_SLOT_END (R33 to R40, R152): the window ends; nothing heard, a collision, a frame that does not decode, or an invalid
tag id brings nothing else. A tag not enrolled, or with another site's code, is a stranger: a known one is heard again and goes
to the tail of the list, a new one joins the tail, the head leaving a full list, with the STRANGERS notice. A tag whose grant
waits at the cell, or that finds four there, is turned away. Any other join of an enrolled tag makes it PRESENT at the cell with
a grant queued, its link level kept only at its own cell, the ordered class believed; with work it is filed at its next class
wake, and without it is not. A hand-off takes its boost list entry to the cell's list, or drops it where that is full. -/
def Obligations.JoinSlotEndRule : Prop :=
  ∀ (c : Cell) (w : Window) (s : State), s.powered = true → DirectoryLaw s → s.cells.windows.get c = some w →
    (∀ x ∈ w.slots, x.ended = true) →
    let closed : State := { s with cells.windows := s.cells.windows.set c none }
    exec (.joinSlotEnd c .nothing) s = .next closed ∧ exec (.joinSlotEnd c .collided) s = .next closed
    ∧ (∀ bytes, decodeJoin bytes = none → exec (.joinSlotEnd c (.heard bytes)) s = .next closed)
    ∧ ∀ j : Join, (j.staged.serial = 0 ↔ j.staged.condition = .nil) →
      let outcome := exec (.joinSlotEnd c (.heard (joinFrame j))) s
      let valid := j.tagId ≠ 0 ∧ j.tagId ≠ 0xFFFFFFFF
      let stranger := s.entryOf j.tagId = none ∨ j.siteCode ≠ 0 ∧ j.siteCode ≠ s.store.working.siteCode
      let granted := ∃ g ∈ s.dir.grants.get c, g.tagId = j.tagId
      let others := s.dir.strangers.filter fun x => decide (x.tagId ≠ j.tagId)
      (¬ valid → outcome = .next closed)
      ∧ (valid → stranger → others = s.dir.strangers → outcome = .next { closed with
          dir.strangers := (if s.dir.strangers.length < 16 then s.dir.strangers else s.dir.strangers.drop 1)
            ++ [⟨j.tagId, c, w.beacon, 1⟩]
          handler.notices.strangers := true })
      ∧ (∀ x, valid → stranger → s.dir.strangers.find? (fun x => decide (x.tagId = j.tagId)) = some x →
        outcome = .next { closed with dir.strangers := others ++ [⟨j.tagId, c, w.beacon, min (x.joins + 1) 255⟩] })
      ∧ (valid → ¬ stranger → granted ∨ 4 ≤ (s.dir.grants.get c).length → outcome = .next closed)
      ∧ (∀ e, valid → ¬ stranger → ¬ granted → (s.dir.grants.get c).length < 4 → s.entryOf j.tagId = some e →
        let believed := e.commanded.getD e.believed
        let work := e.flash = true ∨ ∃ r, s.liveRecord e = some r ∧ r.state ≠ .staged ∧ r.state ≠ .finished
        let boosts := match e.state, s.boostOf e.addr with
          | .present, some (h, x) =>
            if e.home = some c ∨ h = c then s.planner.boosts
            else if (s.planner.boosts.get c).length < 16 then (placeBoost c x s).planner.boosts
            else (dropBoost e.addr s).planner.boosts
          | _, _ => s.planner.boosts
        ∃ calendar,
          (work → calendar = (placeCalendar c ⟨e.addr, nextWake believed e.tagId (s.planner.last.get c)⟩ s).planner.calendar)
          ∧ (¬ work → calendar = (dropCalendar e.addr s).planner.calendar)
          ∧ outcome = .next { closed with
            planner.calendar := calendar
            planner.boosts := boosts
            dir.grants := (s.dir.grants.map fun l => l.filter fun g => decide (g.tagId ≠ e.tagId)).modify c
              fun l => l ++ [⟨e.tagId, e.addr⟩]
            dir.entries := s.dir.entries.map fun x =>
              if x.addr = e.addr then
                { x with
                  state := .present, home := some c
                  link := if x.state ≠ .unseen ∧ x.home = some c then x.link else none
                  shown := some j.shown, staged := some j.staged
                  misses := 0, believed := believed, commanded := none }
              else x })

/-! ### Invariants that every step keeps -/

/-- Every step keeps the charge law of R107, under settings whose default allowance is legal. -/
def Obligations.ChargeLawKept : Prop :=
  ∀ s t : State, ChargeLaw s → SettingsLaw s → step s = .next t → ChargeLaw t

/-- Every step keeps the positions and ids of the directory (R21): short addresses that rise below 16,384, and distinct ids. -/
def Obligations.DirectoryLawKept : Prop :=
  ∀ s t : State, DirectoryLaw s → step s = .next t → DirectoryLaw t

/-- Every step keeps the bounds of the queues and lists, at most one grant of a tag across all grant queues, and at most one
stranger record of a tag (R38, R40, R82, R133, R167, R168). -/
def Obligations.QueueBoundsKept : Prop :=
  ∀ s t : State, QueueBounds s → step s = .next t → QueueBounds t

/-- Every step keeps the pool's free blocks and its blocks in use at 32,768 together, and the blocks in use as those of the
records not FINISHED, each with its block count (R56, R57, R59). -/
def Obligations.PoolLawKept : Prop :=
  ∀ s t : State, PoolLaw s → step s = .next t → PoolLaw t ∧ (TableLaw s → HoldingLaw s → HoldingLaw t)

/-- Every step keeps at most one wake calendar entry and at most one boost list entry for a tag (R120, R133); and, where the
directory, the table and the live changes are in order, every calendar entry in the calendar of its tag's home cell, and its tag
an enrolled PRESENT one with work (R120, R121). -/
def Obligations.OneFilingKept : Prop :=
  ∀ s t : State, OneFiling s → step s = .next t →
    OneFiling t ∧ (DirectoryLaw s → TableLaw s → LiveLaw s → FilingLaw s → FilingLaw t)

/-- Every step keeps the change table's bounds and the campaigns' accounts: admitted is the sum of the tallies and the records in
the table, and the live count is the number of its live records (R61, R64, R87, R94, R103). -/
def Obligations.AccountsKept : Prop :=
  ∀ s t : State, TableLaw s → CampaignLaw s → step s = .next t →
    TableLaw t ∧ CampaignLaw t ∧ (DirectoryLaw s → LiveLaw s → LiveCountLaw s → LiveCountLaw t)

/-- Every step keeps entries and live records in step: an entry's live change is a live record of its tag, and every live record
is the live change of the entry at its short address (R62). -/
def Obligations.LiveLawKept : Prop :=
  ∀ s t : State, DirectoryLaw s → TableLaw s → LiveLaw s → step s = .next t → LiveLaw t

/-- Every step keeps legal settings, a geometry in force that fits with the counter below its period, and QUIET under site
code 0 (R1, R16, R43, R176, R182). -/
def Obligations.SettingsLawKept : Prop :=
  ∀ s t : State, SettingsLaw s → SiteLaw s → step s = .next t → SettingsLaw t ∧ SiteLaw t
end

