-- ==== Sys2Proof/Laws/Bytes.lean ====
section
/-! SUPPORT. Little-endian fields (R185) read back what was written, frame bodies read back as the frame, and the lengths of the
layouts. -/

namespace Sys2Proof.Machine

@[simp] theorem le_length (n v : Nat) : (le n v).length = n := by
  induction n generalizing v with
  | zero => rfl
  | succ n ih => simp [le, ih]

/-- A field reads back as the number written, when it fits. -/
theorem leNat_le (n v : Nat) (h : v < 256 ^ n) : leNat (le n v) = v := by
  induction n generalizing v with
  | zero => simp_all [le, leNat]
  | succ n ih =>
    have h1 : v / 256 < 256 ^ n := by rw [Nat.div_lt_iff_lt_mul (by norm_num)]; rwa [pow_succ] at h
    simp only [le, leNat, ih _ h1, BitVec.toNat_ofNat]
    omega

/-- The number bytes spell is below 256 to their count. -/
theorem leNat_lt (bs : List Byte) : leNat bs < 256 ^ bs.length := by
  induction bs with
  | nil => simp [leNat]
  | cons b bs ih =>
    have hb := b.isLt
    simp only [leNat, List.length_cons, pow_succ]
    omega

/-- Bytes read and written back are the same bytes. -/
theorem le_leNat (bs : List Byte) : le bs.length (leNat bs) = bs := by
  induction bs with
  | nil => rfl
  | cons b bs ih =>
    have hb := b.isLt
    have h1 : (b.toNat + 256 * leNat bs) / 256 = leNat bs := by omega
    simp only [List.length_cons, leNat, le, h1, ih, List.cons.injEq, and_true]
    apply BitVec.eq_of_toNat_eq
    simp only [BitVec.toNat_ofNat]
    omega

@[simp] theorem crcBytes_length (bs : List Byte) : (crcBytes bs).length = 2 := by simp [crcBytes]

@[simp] theorem optField_length (n : Nat) (v : Option Nat) : (optField n v).length = n + 1 := by
  cases v <;> simp [optField]

@[simp] theorem cellSetting_value_length (c : CellSetting) : c.value.length = 4 := by simp [CellSetting.value]

/-- A frame body reads back as its frame (R160). -/
@[simp] theorem ofBody_body (f : Frame) : Frame.ofBody f.body = some f := rfl

theorem body_length (f : Frame) : f.body.length = 3 + f.payload.length := by
  simp [Frame.body]
  omega

/-- The codes of Table 11-1 read back as what they name. -/
@[simp] theorem condition_ofCode_code (c : Condition) : Condition.ofCode c.code.toNat = some c := by cases c <;> rfl

@[simp] theorem mode_ofCode_code (m : Mode) : Mode.ofCode m.code.toNat = some m := by cases m <;> rfl

@[simp] theorem resetKind_ofCode_code (k : ResetKind) : ResetKind.ofCode k.code.toNat = some k := by cases k <;> rfl

@[simp] theorem latePolicy_ofCode_code (p : LatePolicy) : LatePolicy.ofCode p.code.toNat = some p := by cases p <;> rfl

@[simp] theorem lineRate_ofValue_value (r : LineRate) : LineRate.ofValue r.value = some r := by cases r <;> rfl

end Sys2Proof.Machine
end

