-- ==== Sys2Proof/Laws/Quads.lean ====
section
/-! SUPPORT. Reading after writing one of four values. -/

namespace Sys2Proof

variable {α β : Type}

/-- A read gives what was written there, and leaves the other three alone. -/
theorem Quad.get_set (q : Quad α) (i j : Fin 4) (a : α) :
    (q.set i a).get j = if j = i then a else q.get j := by
  fin_cases i <;> fin_cases j <;> rfl

@[simp] theorem Quad.get_set_same (q : Quad α) (i : Fin 4) (a : α) : (q.set i a).get i = a := by
  simp [Quad.get_set]

theorem Quad.get_modify (q : Quad α) (i j : Fin 4) (f : α → α) :
    (q.modify i f).get j = if j = i then f (q.get j) else q.get j := by
  unfold Quad.modify
  rw [Quad.get_set]
  split <;> simp_all

@[simp] theorem Quad.get_map (q : Quad α) (i : Fin 4) (f : α → β) : (q.map f).get i = f (q.get i) := by
  fin_cases i <;> rfl

/-- Two collections that agree in every place are equal. -/
theorem Quad.ext_get {q r : Quad α} (h : ∀ i, q.get i = r.get i) : q = r := by
  obtain ⟨a, b, c, d⟩ := q
  obtain ⟨a', b', c', d'⟩ := r
  have h0 := h 0
  have h1 := h 1
  have h2 := h 2
  have h3 := h 3
  simp only [Quad.get] at h0 h1 h2 h3
  rw [h0, h1, h2, h3]

/-- The four values are the values of the four indexes. -/
theorem Quad.mem_toList (q : Quad α) (a : α) : a ∈ q.toList ↔ ∃ i, q.get i = a := by
  constructor
  · intro h
    simp only [Quad.toList, List.mem_cons, List.not_mem_nil, or_false] at h
    obtain rfl | rfl | rfl | rfl := h
    · exact ⟨0, rfl⟩
    · exact ⟨1, rfl⟩
    · exact ⟨2, rfl⟩
    · exact ⟨3, rfl⟩
  · rintro ⟨i, rfl⟩
    fin_cases i <;> simp [Quad.get, Quad.toList]

end Sys2Proof
end

