-- ==== Sys2Proof/Laws/State.lean ====
section
/-! SUPPORT. One lemma for each field of State under each named update: the field it changes where that has a short form, and every
other field as it was. All are true by definition, so that no later proof unfolds an update. -/

namespace Sys2Proof.Machine

variable (s : State)

/-! ### updEntry -/

@[simp] theorem updEntry_powered (a : Nat) (f : Entry → Entry) : (updEntry a f s).powered = s.powered := rfl
@[simp] theorem updEntry_store (a : Nat) (f : Entry → Entry) : (updEntry a f s).store = s.store := rfl
@[simp] theorem updEntry_air (a : Nat) (f : Entry → Entry) : (updEntry a f s).air = s.air := rfl
@[simp] theorem updEntry_dir (a : Nat) (f : Entry → Entry) :
    (updEntry a f s).dir = { s.dir with entries := s.dir.entries.map fun e => if e.addr = a then f e else e } := rfl
@[simp] theorem updEntry_pool (a : Nat) (f : Entry → Entry) : (updEntry a f s).pool = s.pool := rfl
@[simp] theorem updEntry_table (a : Nat) (f : Entry → Entry) : (updEntry a f s).table = s.table := rfl
@[simp] theorem updEntry_campaigns (a : Nat) (f : Entry → Entry) : (updEntry a f s).campaigns = s.campaigns := rfl
@[simp] theorem updEntry_planner (a : Nat) (f : Entry → Entry) : (updEntry a f s).planner = s.planner := rfl
@[simp] theorem updEntry_cells (a : Nat) (f : Entry → Entry) : (updEntry a f s).cells = s.cells := rfl
@[simp] theorem updEntry_line (a : Nat) (f : Entry → Entry) : (updEntry a f s).line = s.line := rfl
@[simp] theorem updEntry_handler (a : Nat) (f : Entry → Entry) : (updEntry a f s).handler = s.handler := rfl
@[simp] theorem updEntry_freeIndex (a : Nat) (f : Entry → Entry) : (updEntry a f s).freeIndex = s.freeIndex := rfl
@[simp] theorem updEntry_pending (a : Nat) (f : Entry → Entry) : (updEntry a f s).pending = s.pending := rfl

/-! ### updRecord -/

@[simp] theorem updRecord_powered (k : Serial) (f : Change → Change) : (updRecord k f s).powered = s.powered := rfl
@[simp] theorem updRecord_store (k : Serial) (f : Change → Change) : (updRecord k f s).store = s.store := rfl
@[simp] theorem updRecord_air (k : Serial) (f : Change → Change) : (updRecord k f s).air = s.air := rfl
@[simp] theorem updRecord_dir (k : Serial) (f : Change → Change) : (updRecord k f s).dir = s.dir := rfl
@[simp] theorem updRecord_pool (k : Serial) (f : Change → Change) : (updRecord k f s).pool = s.pool := rfl
@[simp] theorem updRecord_table (k : Serial) (f : Change → Change) :
    (updRecord k f s).table = { s.table with records := s.table.records.map fun r => if r.serial = k then f r else r } := rfl
@[simp] theorem updRecord_campaigns (k : Serial) (f : Change → Change) : (updRecord k f s).campaigns = s.campaigns := rfl
@[simp] theorem updRecord_planner (k : Serial) (f : Change → Change) : (updRecord k f s).planner = s.planner := rfl
@[simp] theorem updRecord_cells (k : Serial) (f : Change → Change) : (updRecord k f s).cells = s.cells := rfl
@[simp] theorem updRecord_line (k : Serial) (f : Change → Change) : (updRecord k f s).line = s.line := rfl
@[simp] theorem updRecord_handler (k : Serial) (f : Change → Change) : (updRecord k f s).handler = s.handler := rfl
@[simp] theorem updRecord_freeIndex (k : Serial) (f : Change → Change) : (updRecord k f s).freeIndex = s.freeIndex := rfl
@[simp] theorem updRecord_pending (k : Serial) (f : Change → Change) : (updRecord k f s).pending = s.pending := rfl

/-! ### clearLive -/

@[simp] theorem clearLive_powered (a : Nat) (k : Serial) : (clearLive a k s).powered = s.powered := rfl
@[simp] theorem clearLive_store (a : Nat) (k : Serial) : (clearLive a k s).store = s.store := rfl
@[simp] theorem clearLive_air (a : Nat) (k : Serial) : (clearLive a k s).air = s.air := rfl
@[simp] theorem clearLive_pool (a : Nat) (k : Serial) : (clearLive a k s).pool = s.pool := rfl
@[simp] theorem clearLive_table (a : Nat) (k : Serial) : (clearLive a k s).table = s.table := rfl
@[simp] theorem clearLive_campaigns (a : Nat) (k : Serial) : (clearLive a k s).campaigns = s.campaigns := rfl
@[simp] theorem clearLive_planner (a : Nat) (k : Serial) : (clearLive a k s).planner = s.planner := rfl
@[simp] theorem clearLive_cells (a : Nat) (k : Serial) : (clearLive a k s).cells = s.cells := rfl
@[simp] theorem clearLive_line (a : Nat) (k : Serial) : (clearLive a k s).line = s.line := rfl
@[simp] theorem clearLive_handler (a : Nat) (k : Serial) : (clearLive a k s).handler = s.handler := rfl
@[simp] theorem clearLive_freeIndex (a : Nat) (k : Serial) : (clearLive a k s).freeIndex = s.freeIndex := rfl
@[simp] theorem clearLive_pending (a : Nat) (k : Serial) : (clearLive a k s).pending = s.pending := rfl

/-! ### dropCalendar -/

@[simp] theorem dropCalendar_powered (a : Nat) : (dropCalendar a s).powered = s.powered := rfl
@[simp] theorem dropCalendar_store (a : Nat) : (dropCalendar a s).store = s.store := rfl
@[simp] theorem dropCalendar_air (a : Nat) : (dropCalendar a s).air = s.air := rfl
@[simp] theorem dropCalendar_dir (a : Nat) : (dropCalendar a s).dir = s.dir := rfl
@[simp] theorem dropCalendar_pool (a : Nat) : (dropCalendar a s).pool = s.pool := rfl
@[simp] theorem dropCalendar_table (a : Nat) : (dropCalendar a s).table = s.table := rfl
@[simp] theorem dropCalendar_campaigns (a : Nat) : (dropCalendar a s).campaigns = s.campaigns := rfl
@[simp] theorem dropCalendar_planner (a : Nat) :
    (dropCalendar a s).planner = { s.planner with
      calendar := s.planner.calendar.map fun l => l.filter fun x => decide (x.addr ≠ a) } := rfl
@[simp] theorem dropCalendar_cells (a : Nat) : (dropCalendar a s).cells = s.cells := rfl
@[simp] theorem dropCalendar_line (a : Nat) : (dropCalendar a s).line = s.line := rfl
@[simp] theorem dropCalendar_handler (a : Nat) : (dropCalendar a s).handler = s.handler := rfl
@[simp] theorem dropCalendar_freeIndex (a : Nat) : (dropCalendar a s).freeIndex = s.freeIndex := rfl
@[simp] theorem dropCalendar_pending (a : Nat) : (dropCalendar a s).pending = s.pending := rfl

/-! ### dropBoost -/

@[simp] theorem dropBoost_powered (a : Nat) : (dropBoost a s).powered = s.powered := rfl
@[simp] theorem dropBoost_store (a : Nat) : (dropBoost a s).store = s.store := rfl
@[simp] theorem dropBoost_air (a : Nat) : (dropBoost a s).air = s.air := rfl
@[simp] theorem dropBoost_dir (a : Nat) : (dropBoost a s).dir = s.dir := rfl
@[simp] theorem dropBoost_pool (a : Nat) : (dropBoost a s).pool = s.pool := rfl
@[simp] theorem dropBoost_table (a : Nat) : (dropBoost a s).table = s.table := rfl
@[simp] theorem dropBoost_campaigns (a : Nat) : (dropBoost a s).campaigns = s.campaigns := rfl
@[simp] theorem dropBoost_planner (a : Nat) :
    (dropBoost a s).planner = { s.planner with boosts := s.planner.boosts.map fun l => l.filter fun x => decide (x.addr ≠ a) } := rfl
@[simp] theorem dropBoost_cells (a : Nat) : (dropBoost a s).cells = s.cells := rfl
@[simp] theorem dropBoost_line (a : Nat) : (dropBoost a s).line = s.line := rfl
@[simp] theorem dropBoost_handler (a : Nat) : (dropBoost a s).handler = s.handler := rfl
@[simp] theorem dropBoost_freeIndex (a : Nat) : (dropBoost a s).freeIndex = s.freeIndex := rfl
@[simp] theorem dropBoost_pending (a : Nat) : (dropBoost a s).pending = s.pending := rfl

/-! ### placeCalendar -/

@[simp] theorem placeCalendar_powered (c : Cell) (x : CalendarEntry) : (placeCalendar c x s).powered = s.powered := rfl
@[simp] theorem placeCalendar_store (c : Cell) (x : CalendarEntry) : (placeCalendar c x s).store = s.store := rfl
@[simp] theorem placeCalendar_air (c : Cell) (x : CalendarEntry) : (placeCalendar c x s).air = s.air := rfl
@[simp] theorem placeCalendar_dir (c : Cell) (x : CalendarEntry) : (placeCalendar c x s).dir = s.dir := rfl
@[simp] theorem placeCalendar_pool (c : Cell) (x : CalendarEntry) : (placeCalendar c x s).pool = s.pool := rfl
@[simp] theorem placeCalendar_table (c : Cell) (x : CalendarEntry) : (placeCalendar c x s).table = s.table := rfl
@[simp] theorem placeCalendar_campaigns (c : Cell) (x : CalendarEntry) : (placeCalendar c x s).campaigns = s.campaigns := rfl
@[simp] theorem placeCalendar_cells (c : Cell) (x : CalendarEntry) : (placeCalendar c x s).cells = s.cells := rfl
@[simp] theorem placeCalendar_line (c : Cell) (x : CalendarEntry) : (placeCalendar c x s).line = s.line := rfl
@[simp] theorem placeCalendar_handler (c : Cell) (x : CalendarEntry) : (placeCalendar c x s).handler = s.handler := rfl
@[simp] theorem placeCalendar_freeIndex (c : Cell) (x : CalendarEntry) : (placeCalendar c x s).freeIndex = s.freeIndex := rfl
@[simp] theorem placeCalendar_pending (c : Cell) (x : CalendarEntry) : (placeCalendar c x s).pending = s.pending := rfl

/-! ### placeBoost -/

@[simp] theorem placeBoost_powered (c : Cell) (x : BoostEntry) : (placeBoost c x s).powered = s.powered := rfl
@[simp] theorem placeBoost_store (c : Cell) (x : BoostEntry) : (placeBoost c x s).store = s.store := rfl
@[simp] theorem placeBoost_air (c : Cell) (x : BoostEntry) : (placeBoost c x s).air = s.air := rfl
@[simp] theorem placeBoost_dir (c : Cell) (x : BoostEntry) : (placeBoost c x s).dir = s.dir := rfl
@[simp] theorem placeBoost_pool (c : Cell) (x : BoostEntry) : (placeBoost c x s).pool = s.pool := rfl
@[simp] theorem placeBoost_table (c : Cell) (x : BoostEntry) : (placeBoost c x s).table = s.table := rfl
@[simp] theorem placeBoost_campaigns (c : Cell) (x : BoostEntry) : (placeBoost c x s).campaigns = s.campaigns := rfl
@[simp] theorem placeBoost_cells (c : Cell) (x : BoostEntry) : (placeBoost c x s).cells = s.cells := rfl
@[simp] theorem placeBoost_line (c : Cell) (x : BoostEntry) : (placeBoost c x s).line = s.line := rfl
@[simp] theorem placeBoost_handler (c : Cell) (x : BoostEntry) : (placeBoost c x s).handler = s.handler := rfl
@[simp] theorem placeBoost_freeIndex (c : Cell) (x : BoostEntry) : (placeBoost c x s).freeIndex = s.freeIndex := rfl
@[simp] theorem placeBoost_pending (c : Cell) (x : BoostEntry) : (placeBoost c x s).pending = s.pending := rfl

/-! ### raiseFlag -/

@[simp] theorem raiseFlag_powered (f : Flag) : (raiseFlag f s).powered = s.powered := rfl
@[simp] theorem raiseFlag_store (f : Flag) : (raiseFlag f s).store = s.store := rfl
@[simp] theorem raiseFlag_air (f : Flag) : (raiseFlag f s).air = s.air := rfl
@[simp] theorem raiseFlag_dir (f : Flag) : (raiseFlag f s).dir = s.dir := rfl
@[simp] theorem raiseFlag_pool (f : Flag) : (raiseFlag f s).pool = s.pool := rfl
@[simp] theorem raiseFlag_table (f : Flag) : (raiseFlag f s).table = s.table := rfl
@[simp] theorem raiseFlag_campaigns (f : Flag) : (raiseFlag f s).campaigns = s.campaigns := rfl
@[simp] theorem raiseFlag_planner (f : Flag) : (raiseFlag f s).planner = s.planner := rfl
@[simp] theorem raiseFlag_cells (f : Flag) : (raiseFlag f s).cells = s.cells := rfl
@[simp] theorem raiseFlag_line (f : Flag) : (raiseFlag f s).line = s.line := rfl
@[simp] theorem raiseFlag_handler (f : Flag) :
    (raiseFlag f s).handler = s.handler.raise s.store.working.enableMask f := rfl
@[simp] theorem raiseFlag_freeIndex (f : Flag) : (raiseFlag f s).freeIndex = s.freeIndex := rfl
@[simp] theorem raiseFlag_pending (f : Flag) : (raiseFlag f s).pending = s.pending := rfl

/-! ### placeOutcomesReady -/

@[simp] theorem placeOutcomesReady_powered : (placeOutcomesReady s).powered = s.powered := rfl
@[simp] theorem placeOutcomesReady_store : (placeOutcomesReady s).store = s.store := rfl
@[simp] theorem placeOutcomesReady_air : (placeOutcomesReady s).air = s.air := rfl
@[simp] theorem placeOutcomesReady_dir : (placeOutcomesReady s).dir = s.dir := rfl
@[simp] theorem placeOutcomesReady_pool : (placeOutcomesReady s).pool = s.pool := rfl
@[simp] theorem placeOutcomesReady_table : (placeOutcomesReady s).table = s.table := rfl
@[simp] theorem placeOutcomesReady_campaigns : (placeOutcomesReady s).campaigns = s.campaigns := rfl
@[simp] theorem placeOutcomesReady_planner : (placeOutcomesReady s).planner = s.planner := rfl
@[simp] theorem placeOutcomesReady_cells : (placeOutcomesReady s).cells = s.cells := rfl
@[simp] theorem placeOutcomesReady_line : (placeOutcomesReady s).line = s.line := rfl
@[simp] theorem placeOutcomesReady_freeIndex : (placeOutcomesReady s).freeIndex = s.freeIndex := rfl
@[simp] theorem placeOutcomesReady_pending : (placeOutcomesReady s).pending = s.pending := rfl

/-! ### placeStrangers -/

@[simp] theorem placeStrangers_powered : (placeStrangers s).powered = s.powered := rfl
@[simp] theorem placeStrangers_store : (placeStrangers s).store = s.store := rfl
@[simp] theorem placeStrangers_air : (placeStrangers s).air = s.air := rfl
@[simp] theorem placeStrangers_dir : (placeStrangers s).dir = s.dir := rfl
@[simp] theorem placeStrangers_pool : (placeStrangers s).pool = s.pool := rfl
@[simp] theorem placeStrangers_table : (placeStrangers s).table = s.table := rfl
@[simp] theorem placeStrangers_campaigns : (placeStrangers s).campaigns = s.campaigns := rfl
@[simp] theorem placeStrangers_planner : (placeStrangers s).planner = s.planner := rfl
@[simp] theorem placeStrangers_cells : (placeStrangers s).cells = s.cells := rfl
@[simp] theorem placeStrangers_line : (placeStrangers s).line = s.line := rfl
@[simp] theorem placeStrangers_freeIndex : (placeStrangers s).freeIndex = s.freeIndex := rfl
@[simp] theorem placeStrangers_pending : (placeStrangers s).pending = s.pending := rfl

/-! ### takeHead -/

@[simp] theorem takeHead_powered : (takeHead s).powered = s.powered := rfl
@[simp] theorem takeHead_store : (takeHead s).store = s.store := rfl
@[simp] theorem takeHead_air : (takeHead s).air = s.air := rfl
@[simp] theorem takeHead_dir : (takeHead s).dir = s.dir := rfl
@[simp] theorem takeHead_pool : (takeHead s).pool = s.pool := rfl
@[simp] theorem takeHead_table : (takeHead s).table = s.table := rfl
@[simp] theorem takeHead_campaigns : (takeHead s).campaigns = s.campaigns := rfl
@[simp] theorem takeHead_planner : (takeHead s).planner = s.planner := rfl
@[simp] theorem takeHead_cells : (takeHead s).cells = s.cells := rfl
@[simp] theorem takeHead_handler : (takeHead s).handler = s.handler := rfl
@[simp] theorem takeHead_freeIndex : (takeHead s).freeIndex = s.freeIndex := rfl
@[simp] theorem takeHead_pending : (takeHead s).pending = s.pending := rfl

/-! ### placeFrame -/

@[simp] theorem placeFrame_powered (f : Frame) : (placeFrame f s).powered = s.powered := rfl
@[simp] theorem placeFrame_store (f : Frame) : (placeFrame f s).store = s.store := rfl
@[simp] theorem placeFrame_air (f : Frame) : (placeFrame f s).air = s.air := rfl
@[simp] theorem placeFrame_dir (f : Frame) : (placeFrame f s).dir = s.dir := rfl
@[simp] theorem placeFrame_pool (f : Frame) : (placeFrame f s).pool = s.pool := rfl
@[simp] theorem placeFrame_table (f : Frame) : (placeFrame f s).table = s.table := rfl
@[simp] theorem placeFrame_campaigns (f : Frame) : (placeFrame f s).campaigns = s.campaigns := rfl
@[simp] theorem placeFrame_planner (f : Frame) : (placeFrame f s).planner = s.planner := rfl
@[simp] theorem placeFrame_cells (f : Frame) : (placeFrame f s).cells = s.cells := rfl
@[simp] theorem placeFrame_line (f : Frame) :
    (placeFrame f s).line = { s.line with outbound := s.line.outbound ++ [f] } := rfl
@[simp] theorem placeFrame_handler (f : Frame) : (placeFrame f s).handler = s.handler := rfl
@[simp] theorem placeFrame_freeIndex (f : Frame) : (placeFrame f s).freeIndex = s.freeIndex := rfl
@[simp] theorem placeFrame_pending (f : Frame) : (placeFrame f s).pending = s.pending := rfl

/-! ### huntAgain -/

@[simp] theorem huntAgain_powered : (huntAgain s).powered = s.powered := rfl
@[simp] theorem huntAgain_store : (huntAgain s).store = s.store := rfl
@[simp] theorem huntAgain_air : (huntAgain s).air = s.air := rfl
@[simp] theorem huntAgain_dir : (huntAgain s).dir = s.dir := rfl
@[simp] theorem huntAgain_pool : (huntAgain s).pool = s.pool := rfl
@[simp] theorem huntAgain_table : (huntAgain s).table = s.table := rfl
@[simp] theorem huntAgain_campaigns : (huntAgain s).campaigns = s.campaigns := rfl
@[simp] theorem huntAgain_planner : (huntAgain s).planner = s.planner := rfl
@[simp] theorem huntAgain_cells : (huntAgain s).cells = s.cells := rfl
@[simp] theorem huntAgain_line :
    (huntAgain s).line = { s.line with rx := .hunt, partials := [] } := rfl
@[simp] theorem huntAgain_handler : (huntAgain s).handler = s.handler := rfl
@[simp] theorem huntAgain_freeIndex : (huntAgain s).freeIndex = s.freeIndex := rfl
@[simp] theorem huntAgain_pending : (huntAgain s).pending = s.pending := rfl

/-! ### putSettings -/

@[simp] theorem putSettings_powered (w : Settings) : (putSettings w s).powered = s.powered := rfl
@[simp] theorem putSettings_air (w : Settings) : (putSettings w s).air = s.air := rfl
@[simp] theorem putSettings_dir (w : Settings) : (putSettings w s).dir = s.dir := rfl
@[simp] theorem putSettings_pool (w : Settings) : (putSettings w s).pool = s.pool := rfl
@[simp] theorem putSettings_table (w : Settings) : (putSettings w s).table = s.table := rfl
@[simp] theorem putSettings_campaigns (w : Settings) : (putSettings w s).campaigns = s.campaigns := rfl
@[simp] theorem putSettings_planner (w : Settings) : (putSettings w s).planner = s.planner := rfl
@[simp] theorem putSettings_cells (w : Settings) : (putSettings w s).cells = s.cells := rfl
@[simp] theorem putSettings_line (w : Settings) : (putSettings w s).line = s.line := rfl
@[simp] theorem putSettings_handler (w : Settings) : (putSettings w s).handler = s.handler := rfl
@[simp] theorem putSettings_freeIndex (w : Settings) : (putSettings w s).freeIndex = s.freeIndex := rfl
@[simp] theorem putSettings_pending (w : Settings) : (putSettings w s).pending = s.pending := rfl

/-! ### dropGrants -/

@[simp] theorem dropGrants_powered (id : TagId) : (dropGrants id s).powered = s.powered := rfl
@[simp] theorem dropGrants_store (id : TagId) : (dropGrants id s).store = s.store := rfl
@[simp] theorem dropGrants_air (id : TagId) : (dropGrants id s).air = s.air := rfl
@[simp] theorem dropGrants_pool (id : TagId) : (dropGrants id s).pool = s.pool := rfl
@[simp] theorem dropGrants_table (id : TagId) : (dropGrants id s).table = s.table := rfl
@[simp] theorem dropGrants_campaigns (id : TagId) : (dropGrants id s).campaigns = s.campaigns := rfl
@[simp] theorem dropGrants_planner (id : TagId) : (dropGrants id s).planner = s.planner := rfl
@[simp] theorem dropGrants_cells (id : TagId) : (dropGrants id s).cells = s.cells := rfl
@[simp] theorem dropGrants_line (id : TagId) : (dropGrants id s).line = s.line := rfl
@[simp] theorem dropGrants_handler (id : TagId) : (dropGrants id s).handler = s.handler := rfl
@[simp] theorem dropGrants_freeIndex (id : TagId) : (dropGrants id s).freeIndex = s.freeIndex := rfl
@[simp] theorem dropGrants_pending (id : TagId) : (dropGrants id s).pending = s.pending := rfl

/-! ### dropStranger -/

@[simp] theorem dropStranger_powered (id : TagId) : (dropStranger id s).powered = s.powered := rfl
@[simp] theorem dropStranger_store (id : TagId) : (dropStranger id s).store = s.store := rfl
@[simp] theorem dropStranger_air (id : TagId) : (dropStranger id s).air = s.air := rfl
@[simp] theorem dropStranger_pool (id : TagId) : (dropStranger id s).pool = s.pool := rfl
@[simp] theorem dropStranger_table (id : TagId) : (dropStranger id s).table = s.table := rfl
@[simp] theorem dropStranger_campaigns (id : TagId) : (dropStranger id s).campaigns = s.campaigns := rfl
@[simp] theorem dropStranger_planner (id : TagId) : (dropStranger id s).planner = s.planner := rfl
@[simp] theorem dropStranger_cells (id : TagId) : (dropStranger id s).cells = s.cells := rfl
@[simp] theorem dropStranger_line (id : TagId) : (dropStranger id s).line = s.line := rfl
@[simp] theorem dropStranger_handler (id : TagId) : (dropStranger id s).handler = s.handler := rfl
@[simp] theorem dropStranger_freeIndex (id : TagId) : (dropStranger id s).freeIndex = s.freeIndex := rfl
@[simp] theorem dropStranger_pending (id : TagId) : (dropStranger id s).pending = s.pending := rfl

/-! ### placeEntry -/

@[simp] theorem placeEntry_powered (e : Entry) : (placeEntry e s).powered = s.powered := rfl
@[simp] theorem placeEntry_store (e : Entry) : (placeEntry e s).store = s.store := rfl
@[simp] theorem placeEntry_air (e : Entry) : (placeEntry e s).air = s.air := rfl
@[simp] theorem placeEntry_pool (e : Entry) : (placeEntry e s).pool = s.pool := rfl
@[simp] theorem placeEntry_table (e : Entry) : (placeEntry e s).table = s.table := rfl
@[simp] theorem placeEntry_campaigns (e : Entry) : (placeEntry e s).campaigns = s.campaigns := rfl
@[simp] theorem placeEntry_planner (e : Entry) : (placeEntry e s).planner = s.planner := rfl
@[simp] theorem placeEntry_cells (e : Entry) : (placeEntry e s).cells = s.cells := rfl
@[simp] theorem placeEntry_line (e : Entry) : (placeEntry e s).line = s.line := rfl
@[simp] theorem placeEntry_handler (e : Entry) : (placeEntry e s).handler = s.handler := rfl
@[simp] theorem placeEntry_freeIndex (e : Entry) : (placeEntry e s).freeIndex = s.freeIndex := rfl
@[simp] theorem placeEntry_pending (e : Entry) : (placeEntry e s).pending = s.pending := rfl

/-! ### beginInstant -/

@[simp] theorem beginInstant_powered (c : Cell) (b : Beacon) : (beginInstant c b s).powered = s.powered := rfl
@[simp] theorem beginInstant_store (c : Cell) (b : Beacon) : (beginInstant c b s).store = s.store := rfl
@[simp] theorem beginInstant_air (c : Cell) (b : Beacon) : (beginInstant c b s).air = s.air := rfl
@[simp] theorem beginInstant_dir (c : Cell) (b : Beacon) : (beginInstant c b s).dir = s.dir := rfl
@[simp] theorem beginInstant_pool (c : Cell) (b : Beacon) : (beginInstant c b s).pool = s.pool := rfl
@[simp] theorem beginInstant_table (c : Cell) (b : Beacon) : (beginInstant c b s).table = s.table := rfl
@[simp] theorem beginInstant_campaigns (c : Cell) (b : Beacon) : (beginInstant c b s).campaigns = s.campaigns := rfl
@[simp] theorem beginInstant_cells (c : Cell) (b : Beacon) : (beginInstant c b s).cells = s.cells := rfl
@[simp] theorem beginInstant_line (c : Cell) (b : Beacon) : (beginInstant c b s).line = s.line := rfl
@[simp] theorem beginInstant_handler (c : Cell) (b : Beacon) : (beginInstant c b s).handler = s.handler := rfl
@[simp] theorem beginInstant_freeIndex (c : Cell) (b : Beacon) : (beginInstant c b s).freeIndex = s.freeIndex := rfl
@[simp] theorem beginInstant_pending (c : Cell) (b : Beacon) : (beginInstant c b s).pending = s.pending := rfl

/-! ### breakLine -/

@[simp] theorem breakLine_powered : (breakLine s).powered = s.powered := rfl
@[simp] theorem breakLine_store : (breakLine s).store = s.store := rfl
@[simp] theorem breakLine_air : (breakLine s).air = s.air := rfl
@[simp] theorem breakLine_dir : (breakLine s).dir = s.dir := rfl
@[simp] theorem breakLine_pool : (breakLine s).pool = s.pool := rfl
@[simp] theorem breakLine_table : (breakLine s).table = s.table := rfl
@[simp] theorem breakLine_campaigns : (breakLine s).campaigns = s.campaigns := rfl
@[simp] theorem breakLine_planner : (breakLine s).planner = s.planner := rfl
@[simp] theorem breakLine_cells : (breakLine s).cells = s.cells := rfl
@[simp] theorem breakLine_handler : (breakLine s).handler = s.handler := rfl
@[simp] theorem breakLine_freeIndex : (breakLine s).freeIndex = s.freeIndex := rfl
@[simp] theorem breakLine_pending : (breakLine s).pending = s.pending := rfl

end Sys2Proof.Machine
end

