-- ==== Sys2Proof/Laws/Ops.lean ====
section
/-! SUPPORT. What the shared operations can do, each said once: orders and choices only rearrange, a filing touches the calendars
alone, and the finishing of a record leaves all that `SameBase` and `SameTags` name. -/

namespace Sys2Proof.Machine

/-! ### Orders and free choices -/

section lists
variable {α : Type}

theorem insertBy_perm (lt : α → α → Bool) (x : α) (xs : List α) : (insertBy lt x xs).Perm (x :: xs) := by
  induction xs with
  | nil => exact .refl _
  | cons y ys ih =>
    simp only [insertBy]
    split
    · exact (List.Perm.cons y ih).trans (List.Perm.swap x y ys)
    · exact .refl _

theorem sortBy_perm (lt : α → α → Bool) (xs : List α) : (sortBy lt xs).Perm xs := by
  induction xs with
  | nil => exact .refl _
  | cons x xs ih => exact (insertBy_perm lt x _).trans (List.Perm.cons x ih)

@[simp] theorem insertBy_length (lt : α → α → Bool) (x : α) (xs : List α) :
    (insertBy lt x xs).length = xs.length + 1 := (insertBy_perm lt x xs).length_eq

theorem pickAt_perm (n : Nat) (xs : List α) (x : α) (rest : List α) (h : pickAt n xs = some (x, rest)) :
    xs.Perm (x :: rest) := by
  induction xs generalizing n rest with
  | nil => simp [pickAt] at h
  | cons y ys ih =>
    cases n with
    | zero =>
      simp only [pickAt, Option.some.injEq, Prod.mk.injEq] at h
      obtain ⟨rfl, rfl⟩ := h
      exact .refl _
    | succ n =>
      simp only [pickAt, Option.map_eq_some_iff, Prod.mk.injEq] at h
      obtain ⟨⟨a, l⟩, h1, rfl, rfl⟩ := h
      exact (List.Perm.cons y (ih n l h1)).trans (List.Perm.swap a y l)

/-- A free order is an order of the same elements, whatever the free values are. -/
theorem freeOrder_perm (n k : Nat) (xs : List α) : (freeOrder n k xs).Perm xs := by
  induction n generalizing k xs with
  | zero =>
    match xs with
    | [] => exact .refl _
    | [_] => exact .refl _
    | _ :: _ :: _ => exact .refl _
  | succ n ih =>
    match xs with
    | [] => exact .refl _
    | [_] => exact .refl _
    | x :: y :: zs =>
      simp only [freeOrder]
      split
      · exact .refl _
      · next z rest h => exact (List.Perm.cons z (ih (k + 1) rest)).trans (pickAt_perm _ _ _ _ h).symm

end lists

/-! ### What is left alone -/

theorem SameBase.rfl {s : State} : SameBase s s := ⟨.refl _, .refl _, .refl _, .refl _, .refl _, .refl _, .refl _, .refl _⟩

theorem SameBase.trans {s t u : State} (h : SameBase s t) (k : SameBase t u) : SameBase s u :=
  ⟨k.1.trans h.1, k.2.trans h.2, k.3.trans h.3, k.4.trans h.4, k.5.trans h.5, k.6.trans h.6, k.7.trans h.7,
    k.8.trans h.8⟩

theorem SameBase.after {s t u : State} (k : SameBase t u) (h : SameBase s t) : SameBase s u := h.trans k

theorem SameTags.rfl {s : State} : SameTags s s := ⟨.refl _, .refl _, .refl _⟩

theorem SameTags.trans {s t u : State} (h : SameTags s t) (k : SameTags t u) : SameTags s u :=
  ⟨k.1.trans h.1, k.2.trans h.2, k.3.trans h.3⟩

/-- A run over a list keeps what each of its steps keeps. -/
theorem foldl_keeps {α : Type} (P : State → State → Prop) (hr : ∀ s, P s s) (ht : ∀ s t u, P s t → P t u → P s u)
    (f : State → α → State) (hf : ∀ s a, P s (f s a)) (xs : List α) (s : State) : P s (xs.foldl f s) := by
  induction xs generalizing s with
  | nil => exact hr s
  | cons x xs ih => exact ht _ _ _ (hf s x) (ih (f s x))

/-! ### Flags -/

/-- A raised flag is set, and the others are as they were (R170). -/
theorem raise_flags (h : RecordHandler) (m : FlagSet) (f : Flag) : (h.raise m f).flags = h.flags ||| f.bit := by
  unfold RecordHandler.raise
  split
  · next hf =>
    unfold Flag.isIn at hf
    apply BitVec.eq_of_getLsbD_eq
    intro i hi
    have hb : f.bit.getLsbD i = decide (i = f.number) := by
      unfold Flag.bit
      cases f <;> simp only [Flag.number] <;> interval_cases i <;> rfl
    rw [BitVec.getLsbD_or, hb]
    by_cases hif : i = f.number
    · subst hif
      simp [hf]
    · simp [hif]
  · rfl

/-- Raising a flag leaves the request in progress, the latch and the timer, and every notice but EVENT. -/
theorem raise_rest (h : RecordHandler) (m : FlagSet) (f : Flag) :
    (h.raise m f).task = h.task ∧ (h.raise m f).latch = h.latch ∧ (h.raise m f).timer = h.timer
      ∧ (h.raise m f).notices.outcomesReady = h.notices.outcomesReady
      ∧ (h.raise m f).notices.campaignDone = h.notices.campaignDone
      ∧ (h.raise m f).notices.strangers = h.notices.strangers := by
  unfold RecordHandler.raise
  split <;> simp

/-- A flag already set is left as it is and nothing more is done (R170). -/
theorem raise_set (h : RecordHandler) (m : FlagSet) (f : Flag) (hf : f.isIn h.flags = true) : h.raise m f = h := by
  simp [RecordHandler.raise, hf]

theorem raiseFlag_base (f : Flag) (s : State) : SameBase s (raiseFlag f s) :=
  ⟨rfl, rfl, rfl, rfl, rfl, (raise_rest _ _ _).1, rfl, rfl⟩

/-! ### Calendars -/

/-- A filing touches the wake calendars alone (R122). -/
theorem fileTag_eq (a : Nat) (s : State) :
    fileTag a s = s ∨ ∃ e h, s.entryAt a = some e ∧ e.home = some h
      ∧ fileTag a s = placeCalendar h ⟨a, s.fileDue e h⟩ s := by
  unfold fileTag
  split
  · exact .inl rfl
  · next e he =>
    split
    · exact .inl rfl
    · next h hh => exact .inr ⟨e, h, he, hh, rfl⟩

/-- A work notice files the tag, drops its entry, or does nothing (Table 7-2). -/
theorem workNotice_eq (a : Nat) (s : State) :
    workNotice a s = s ∨ workNotice a s = fileTag a s ∨ workNotice a s = dropCalendar a s := by
  unfold workNotice
  split
  · exact .inl rfl
  · split
    · split
      · split
        · exact .inl rfl
        · exact .inr (.inl rfl)
      · exact .inr (.inr rfl)
    · exact .inl rfl

theorem fileTag_planner (a : Nat) (s : State) : ∃ cal, fileTag a s = { s with planner.calendar := cal } := by
  obtain h | ⟨e, c, _, _, h⟩ := fileTag_eq a s
  · exact ⟨s.planner.calendar, h⟩
  · rw [h]; exact ⟨_, rfl⟩

/-- A work notice touches the wake calendars alone (R123). -/
theorem workNotice_planner (a : Nat) (s : State) : ∃ cal, workNotice a s = { s with planner.calendar := cal } := by
  obtain h | h | h := workNotice_eq a s
  · exact ⟨s.planner.calendar, h⟩
  · rw [h]; exact fileTag_planner a s
  · rw [h]; exact ⟨_, rfl⟩

theorem fileTag_base (a : Nat) (s : State) : SameBase s (fileTag a s) := by
  obtain ⟨_, h⟩ := fileTag_planner a s
  rw [h]; exact ⟨rfl, rfl, rfl, rfl, rfl, rfl, rfl, rfl⟩

theorem workNotice_base (a : Nat) (s : State) : SameBase s (workNotice a s) := by
  obtain ⟨_, h⟩ := workNotice_planner a s
  rw [h]; exact ⟨rfl, rfl, rfl, rfl, rfl, rfl, rfl, rfl⟩

theorem workNotice_tags (a : Nat) (s : State) : SameTags s (workNotice a s) := by
  obtain ⟨_, h⟩ := workNotice_planner a s
  rw [h]; exact ⟨rfl, rfl, rfl⟩

/-! ### The pool -/

/-- Releasing a change's blocks keeps the sum of the free blocks and those in use (R56, R59). -/
theorem release_sum (p : Pool) (k : Serial) : (p.release k).free + (p.release k).used = p.free + p.used := by
  obtain ⟨n, held⟩ := p
  simp only [Pool.release, Pool.used, Pool.heldBy]
  induction held with
  | nil => simp
  | cons x xs ih =>
    by_cases hx : x.serial = k
    · simp [hx] at ih ⊢
      omega
    · simp [hx] at ih ⊢
      omega

/-- Taking blocks that are free keeps that sum (R57). -/
theorem take_sum (p : Pool) (k : Serial) (blocks : List (List Byte)) (h : blocks.length ≤ p.free) :
    (p.take k blocks).free + (p.take k blocks).used = p.free + p.used := by
  simp only [Pool.take, Pool.used, List.map_append, List.sum_append, List.map_cons, List.map_nil, List.sum_cons,
    List.sum_nil]
  omega

/-! ### Counting and the outcome list -/

/-- Done detection does nothing or makes the campaign DONE with its notice (R103). -/
theorem doneCheck_eq (i : CampaignIndex) (s : State) :
    doneCheck i s = s
      ∨ ((s.campaigns.get i).state = .cut ∧ (s.campaigns.get i).admitted = (s.campaigns.get i).tallies.sum
        ∧ ∃ d, d = { s.campaigns.get i with state := .done, doneBeacon := some s.air.beacon }
          ∧ doneCheck i s = { s with
              campaigns := s.campaigns.set i d
              handler.notices.campaignDone := s.handler.notices.campaignDone.set i (some d) }) := by
  by_cases h : (s.campaigns.get i).state = .cut ∧ (s.campaigns.get i).admitted = (s.campaigns.get i).tallies.sum
  · exact .inr ⟨h.1, h.2, _, rfl, if_pos h⟩
  · exact .inl (if_neg h)

theorem doneCheck_base (i : CampaignIndex) (s : State) : SameBase s (doneCheck i s) := by
  obtain h | ⟨_, _, d, _, h⟩ := doneCheck_eq i s <;> rw [h]
  · exact .rfl
  · exact ⟨rfl, rfl, rfl, rfl, rfl, rfl, rfl, rfl⟩

theorem doneCheck_dir (i : CampaignIndex) (s : State) :
    (doneCheck i s).dir = s.dir ∧ (doneCheck i s).pool = s.pool ∧ (doneCheck i s).table = s.table
      ∧ (doneCheck i s).planner = s.planner ∧ (doneCheck i s).handler.flags = s.handler.flags := by
  obtain h | ⟨_, _, d, _, h⟩ := doneCheck_eq i s <;> rw [h] <;> simp

theorem updCampaign_base (i : Option CampaignIndex) (f : Campaign → Campaign) (s : State) :
    SameBase s (updCampaign i f s) := by
  cases i
  · exact .rfl
  · exact ⟨rfl, rfl, rfl, rfl, rfl, rfl, rfl, rfl⟩

theorem updCampaign_dir (i : Option CampaignIndex) (f : Campaign → Campaign) (s : State) :
    (updCampaign i f s).dir = s.dir ∧ (updCampaign i f s).pool = s.pool ∧ (updCampaign i f s).table = s.table
      ∧ (updCampaign i f s).planner = s.planner ∧ (updCampaign i f s).handler = s.handler := by
  cases i <;> simp [updCampaign]

theorem tallyOutcome_base (i : Option CampaignIndex) (code : OutcomeCode) (s : State) :
    SameBase s (tallyOutcome i code s) := by
  cases i
  · exact .rfl
  · exact (doneCheck_base _ _).after ⟨rfl, rfl, rfl, rfl, rfl, rfl, rfl, rfl⟩

theorem tallyOutcome_dir (i : Option CampaignIndex) (code : OutcomeCode) (s : State) :
    (tallyOutcome i code s).dir = s.dir ∧ (tallyOutcome i code s).pool = s.pool
      ∧ (tallyOutcome i code s).table = s.table ∧ (tallyOutcome i code s).planner = s.planner
      ∧ (tallyOutcome i code s).handler.flags = s.handler.flags := by
  cases i
  · simp [tallyOutcome]
  · exact doneCheck_dir _ _

theorem latchTrigger_base (s : State) : SameBase s (latchTrigger s) := by
  unfold latchTrigger
  split <;> exact ⟨rfl, rfl, rfl, rfl, rfl, rfl, rfl, rfl⟩

theorem latchTrigger_dir (s : State) :
    (latchTrigger s).dir = s.dir ∧ (latchTrigger s).pool = s.pool ∧ (latchTrigger s).table = s.table
      ∧ (latchTrigger s).planner = s.planner ∧ (latchTrigger s).campaigns = s.campaigns
      ∧ (latchTrigger s).handler.flags = s.handler.flags := by
  unfold latchTrigger
  split <;> simp [placeOutcomesReady]

/-- The passing of a record at the head of the retire queue leaves the directory, the pool and the planner alone (R82). -/
theorem passHead_frame (s : State) :
    SameBase s (passHead s) ∧ (passHead s).dir = s.dir ∧ (passHead s).pool = s.pool
      ∧ (passHead s).planner = s.planner ∧ (passHead s).handler.flags = s.handler.flags := by
  unfold passHead
  split
  · exact ⟨.rfl, rfl, rfl, rfl, rfl⟩
  · split
    · exact ⟨⟨rfl, rfl, rfl, rfl, rfl, rfl, rfl, rfl⟩, rfl, rfl, rfl, rfl⟩
    · have hl := latchTrigger_dir
      have ht := tallyOutcome_dir
      refine ⟨(latchTrigger_base _).after ((tallyOutcome_base _ _ _).after ?_), ?_, ?_, ?_, ?_⟩
      · exact ⟨rfl, rfl, rfl, rfl, rfl, rfl, rfl, rfl⟩
      · rw [(hl _).1, (ht _ _ _).1]
      · rw [(hl _).2.1, (ht _ _ _).2.1]
      · rw [(hl _).2.2.2.1, (ht _ _ _).2.2.2.1]
      · rw [(hl _).2.2.2.2.2, (ht _ _ _).2.2.2.2]

/-- What passing a record does to the table: the head leaves the retire queue; a FINISHED record leaves the table and joins
the outcome list with its outcome (R82, R83). -/
theorem passHead_table (s : State) (k : Serial) (rest : List Serial) (h : s.table.retire = k :: rest) :
    (passHead s).table = { s.table with retire := rest }
      ∨ ∃ r o, s.recordOf k = some r ∧ r.outcomeRecord = some o
        ∧ (passHead s).table = { s.table with
            retire := rest
            records := s.table.records.filter fun r => decide (r.serial ≠ k)
            outcomes := s.table.outcomes ++ [o] } := by
  unfold passHead
  rw [h]
  dsimp only
  split
  · exact .inl rfl
  · next o ho =>
    obtain ⟨r, hr, hro⟩ := Option.bind_eq_some_iff.mp ho
    refine .inr ⟨r, o, hr, hro, ?_⟩
    rw [(latchTrigger_dir _).2.2.1, (tallyOutcome_dir _ _ _).2.2.1]

/-- Records pass with the same frame however many do. -/
theorem passRecords_frame (n : Nat) (s : State) :
    SameBase s (passRecords n s) ∧ (passRecords n s).dir = s.dir ∧ (passRecords n s).pool = s.pool
      ∧ (passRecords n s).planner = s.planner ∧ (passRecords n s).handler.flags = s.handler.flags := by
  induction n generalizing s with
  | zero => exact ⟨.rfl, rfl, rfl, rfl, rfl⟩
  | succ n ih =>
    unfold passRecords
    split
    · exact ⟨.rfl, rfl, rfl, rfl, rfl⟩
    · have h1 := passHead_frame s
      have h2 := ih (passHead s)
      exact ⟨h1.1.trans h2.1, h2.2.1.trans h1.2.1, h2.2.2.1.trans h1.2.2.1, h2.2.2.2.1.trans h1.2.2.2.1,
        h2.2.2.2.2.trans h1.2.2.2.2⟩

/-- The outcome list never holds more than 1,024 records when it did not before (R82). -/
theorem passRecords_bound (n : Nat) (s : State) (h : s.table.outcomes.length ≤ 1024) :
    (passRecords n s).table.outcomes.length ≤ 1024 := by
  induction n generalizing s with
  | zero => exact h
  | succ n ih =>
    unfold passRecords
    split
    · exact h
    · next hc =>
      apply ih
      push Not at hc
      obtain ⟨k, rest, hr⟩ := List.exists_cons_of_ne_nil hc.1
      obtain h1 | ⟨r, o, _, _, h1⟩ := passHead_table s k rest hr <;> rw [h1]
      · exact h
      · simp only [List.length_append, List.length_cons, List.length_nil]
        omega

/-- A record joining the retire queue leaves the directory, the pool and the planner alone (R82). -/
theorem joinRetire_frame (k : Serial) (s : State) :
    SameBase s (joinRetire k s) ∧ (joinRetire k s).dir = s.dir ∧ (joinRetire k s).pool = s.pool
      ∧ (joinRetire k s).planner = s.planner := by
  have h := passRecords_frame (s.table.retire ++ [k]).length { s with table.retire := s.table.retire ++ [k] }
  have hb : SameBase s { s with table.retire := s.table.retire ++ [k] } := ⟨rfl, rfl, rfl, rfl, rfl, rfl, rfl, rfl⟩
  unfold joinRetire passAll
  dsimp only
  split
  · exact ⟨(hb.trans h.1).trans (raiseFlag_base _ _), h.2.1, h.2.2.1, h.2.2.2.1⟩
  · exact ⟨hb.trans h.1, h.2.1, h.2.2.1, h.2.2.2.1⟩

/-! ### Finishing -/

theorem clearLive_tags (a : Nat) (k : Serial) (s : State) : SameTags s (clearLive a k s) := by
  refine ⟨rfl, rfl, ?_⟩
  simp only [clearLive, updEntry, List.map_map]
  apply List.map_congr_left
  intro e _
  simp only [Function.comp]
  split
  · split <;> rfl
  · rfl

/-- The finishing of a record leaves all that `SameBase` names, and of the directory all but live changes; the pool has the
record's blocks back (R81). -/
theorem finish_frame (k : Serial) (code : OutcomeCode) (within : Bool) (s : State) :
    SameBase s (finish k code within s) ∧ SameTags s (finish k code within s)
      ∧ (finish k code within s).pool = (if (s.recordOf k).isSome then s.pool.release k else s.pool) := by
  unfold finish
  split
  · next h => simp only [h]; exact ⟨.rfl, .rfl, rfl⟩
  · next r h =>
    simp only [h, Option.isSome_some, if_true]
    set s1 : State := { updRecord k (fun r => { r with
      state := .finished, outcome := some code, finalBeacon := some s.air.beacon }) s with
      pool := s.pool.release k } with hs1
    have b1 : SameBase s s1 := ⟨rfl, rfl, rfl, rfl, rfl, rfl, rfl, rfl⟩
    have t1 : SameTags s s1 := ⟨rfl, rfl, rfl⟩
    have key : ∀ s2 : State, SameBase s s2 → SameTags s s2 → s2.pool = s.pool.release k →
        SameBase s (joinRetire k (updCampaign r.campaign (fun c => { c with live := c.live - 1 }) s2))
        ∧ SameTags s (joinRetire k (updCampaign r.campaign (fun c => { c with live := c.live - 1 }) s2))
        ∧ (joinRetire k (updCampaign r.campaign (fun c => { c with live := c.live - 1 }) s2)).pool
          = s.pool.release k := by
      intro s2 hb ht hp
      have j := joinRetire_frame k (updCampaign r.campaign (fun c => { c with live := c.live - 1 }) s2)
      have c := updCampaign_dir r.campaign (fun c => { c with live := c.live - 1 }) s2
      refine ⟨(hb.trans (updCampaign_base _ _ _)).trans j.1, ?_, ?_⟩
      · refine ht.trans ⟨?_, ?_, ?_⟩ <;> rw [j.2.1, c.1]
      · rw [j.2.2.1, c.2.1, hp]
    cases within with
    | true => exact key s1 b1 t1 rfl
    | false =>
      have w := workNotice_planner r.addr (dropBoost r.addr (clearLive r.addr k s1))
      have wb := workNotice_base r.addr (dropBoost r.addr (clearLive r.addr k s1))
      have wt := workNotice_tags r.addr (dropBoost r.addr (clearLive r.addr k s1))
      have cb : SameBase s1 (dropBoost r.addr (clearLive r.addr k s1)) := ⟨rfl, rfl, rfl, rfl, rfl, rfl, rfl, rfl⟩
      have ct : SameTags s1 (dropBoost r.addr (clearLive r.addr k s1)) :=
        ⟨rfl, rfl, (clearLive_tags r.addr k s1).3⟩
      refine key _ ((b1.trans cb).trans wb) ((t1.trans ct).trans wt) ?_
      obtain ⟨_, w⟩ := w
      exact congrArg State.pool w

/-- A record moved between states leaves all that `SameBase` names, the directory and the pool (R63). -/
theorem moveRecord_frame (k : Serial) (f : Change → Change) (s : State) :
    SameBase s (moveRecord k f s) ∧ (moveRecord k f s).dir = s.dir ∧ (moveRecord k f s).pool = s.pool := by
  unfold moveRecord
  split
  · exact ⟨.rfl, rfl, rfl⟩
  · dsimp only
    split
    · exact ⟨⟨rfl, rfl, rfl, rfl, rfl, rfl, rfl, rfl⟩, rfl, rfl⟩
    · obtain ⟨_, h⟩ := workNotice_planner _ (updRecord k f s)
      rw [h]
      exact ⟨⟨rfl, rfl, rfl, rfl, rfl, rfl, rfl, rfl⟩, rfl, rfl⟩

/-- A debit changes the remaining charge of one entry and the charge spent of its live change alone (R112, R115). -/
theorem debit_frame (a cost : Nat) (s : State) :
    SameBase s (debit a cost s) ∧ (debit a cost s).pool = s.pool ∧ (debit a cost s).campaigns = s.campaigns
      ∧ (debit a cost s).planner = s.planner ∧ (debit a cost s).handler = s.handler
      ∧ (debit a cost s).dir = (updEntry a (fun e => { e with remaining := e.remaining - cost }) s).dir := by
  unfold debit
  dsimp only
  split <;> exact ⟨⟨rfl, rfl, rfl, rfl, rfl, rfl, rfl, rfl⟩, rfl, rfl, rfl, rfl, rfl⟩

/-- A refresh leaves all that `SameBase` names (R116). -/
theorem refresh_base (s : State) : SameBase s (refresh s) := by
  unfold refresh
  refine SameBase.trans (t := { s with dir.entries := s.dir.entries.map Entry.renewed })
    ⟨rfl, rfl, rfl, rfl, rfl, rfl, rfl, rfl⟩ ?_
  exact foldl_keeps SameBase (fun _ => .rfl) (fun _ _ _ => SameBase.trans)
    (fun s (x : Serial × OutcomeCode) => finish x.1 x.2 false s) (fun s x => (finish_frame x.1 x.2 false s).1) _ _

/-- A cut leaves all that `SameBase` names (R95). -/
theorem cutRecord_base (i : CampaignIndex) (p : LatePolicy) (k : Serial) (s : State) :
    SameBase s (cutRecord i p k s) := by
  unfold cutRecord
  split
  · exact .rfl
  · next r _ =>
    have hd : SameBase s (cutDelivery i p r s) := by
      unfold cutDelivery
      have h1 : SameBase s (if r.displaced.isSome then
          raiseFlag .staleCut (updCampaign (some i) (fun c => { c with staleCount := c.staleCount + 1 })
            (updRecord r.serial (fun r => { r with staleCut := true }) s)) else s) := by
        split
        · exact (raiseFlag_base _ _).after ((updCampaign_base _ _ _).after ⟨rfl, rfl, rfl, rfl, rfl, rfl, rfl, rfl⟩)
        · exact .rfl
      dsimp only
      split
      · exact h1.trans ⟨rfl, rfl, rfl, rfl, rfl, rfl, rfl, rfl⟩
      · exact h1.trans (finish_frame _ _ _ _).1
    split
    · exact hd
    · exact hd
    · exact (moveRecord_frame _ _ _).1
    · exact (finish_frame _ _ _ _).1
    · exact .rfl
    · exact .rfl

theorem cutCampaign_base (i : CampaignIndex) (s : State) : SameBase s (cutCampaign i s) := by
  unfold cutCampaign
  split
  · exact .rfl
  · exact SameBase.trans (SameBase.trans (foldl_keeps SameBase (fun _ => .rfl) (fun _ _ _ => SameBase.trans) _
      (fun s k => cutRecord_base i _ k s) _ _) (updCampaign_base _ _ _)) (doneCheck_base _ _)

end Sys2Proof.Machine
end

