-- ==== Sys2Proof/Laws/PerInstr.lean ====
section
/-! SUPPORT. The per-constructor family: the frame that carries a well-formed request row has a body the receiver takes,
3..1,100 bytes (R160), and a status byte of 0. -/

namespace Sys2Proof.Laws.CarriedByFrame

/-- What the family says of a command. -/
def Statement (i : Instr) : Prop :=
  i.wellFormed = true → ∀ f, Machine.requestOf i = some f →
    3 ≤ f.body.length ∧ f.body.length ≤ 1100 ∧ f.status = 0

/-- A request frame whose payload fits. -/
theorem of_fits (kind num : Byte) (payload : List Byte) (h : payloadFits payload = true) (f : Machine.Frame)
    (hf : some (Machine.requestFrame kind num payload) = some f) :
    3 ≤ f.body.length ∧ f.body.length ≤ 1100 ∧ f.status = 0 := by
  cases hf
  simp only [payloadFits, decide_eq_true_eq] at h
  simp only [Machine.requestFrame, Machine.Frame.body, List.length_cons, and_true]
  omega

theorem powerOn (heads : BitVec 4) : Statement (.powerOn heads) :=
  fun _ _ hf => nomatch hf

theorem status (num : Byte) (payload : List Byte) : Statement (.status num payload) :=
  fun h f hf => of_fits _ num payload h f hf

theorem setClock (num : Byte) (payload : List Byte) : Statement (.setClock num payload) :=
  fun h f hf => of_fits _ num payload h f hf

theorem setBeacon (num : Byte) (payload : List Byte) : Statement (.setBeacon num payload) :=
  fun h f hf => of_fits _ num payload h f hf

theorem setMode (num : Byte) (payload : List Byte) : Statement (.setMode num payload) :=
  fun h f hf => of_fits _ num payload h f hf

theorem configSet (num : Byte) (payload : List Byte) : Statement (.configSet num payload) :=
  fun h f hf => of_fits _ num payload h f hf

theorem configGet (num : Byte) (payload : List Byte) : Statement (.configGet num payload) :=
  fun h f hf => of_fits _ num payload h f hf

theorem saveSettings (num : Byte) (payload : List Byte) : Statement (.saveSettings num payload) :=
  fun h f hf => of_fits _ num payload h f hf

theorem settingsWriteEnd (completed : Bool) : Statement (.settingsWriteEnd completed) :=
  fun _ _ hf => nomatch hf

theorem resetCold (num : Byte) (payload : List Byte) : Statement (.resetCold num payload) :=
  fun h f hf => of_fits _ num payload (Bool.and_eq_true _ _ ▸ h).1 f hf

theorem resetWarm (num : Byte) (payload : List Byte) : Statement (.resetWarm num payload) :=
  fun h f hf => of_fits _ num payload (Bool.and_eq_true _ _ ▸ h).1 f hf

theorem resetActs : Statement .resetActs :=
  fun _ _ hf => nomatch hf

theorem setLine (num : Byte) (payload : List Byte) : Statement (.setLine num payload) :=
  fun h f hf => of_fits _ num payload h f hf

theorem lineRateChange : Statement .lineRateChange :=
  fun _ _ hf => nomatch hf

theorem setNotices (num : Byte) (payload : List Byte) : Statement (.setNotices num payload) :=
  fun h f hf => of_fits _ num payload h f hf

theorem clearEvents (num : Byte) (payload : List Byte) : Statement (.clearEvents num payload) :=
  fun h f hf => of_fits _ num payload h f hf

theorem enrol (num : Byte) (payload : List Byte) : Statement (.enrol num payload) :=
  fun h f hf => of_fits _ num payload h f hf

theorem remove (num : Byte) (payload : List Byte) : Statement (.remove num payload) :=
  fun h f hf => of_fits _ num payload h f hf

theorem setWakeTag (num : Byte) (payload : List Byte) : Statement (.setWakeTag num payload) :=
  fun h f hf => of_fits _ num payload (Bool.and_eq_true _ _ ▸ h).1 f hf

theorem setWakeZone (num : Byte) (payload : List Byte) : Statement (.setWakeZone num payload) :=
  fun h f hf => of_fits _ num payload (Bool.and_eq_true _ _ ▸ h).1 f hf

theorem setAllowance (num : Byte) (payload : List Byte) : Statement (.setAllowance num payload) :=
  fun h f hf => of_fits _ num payload h f hf

theorem locate (num : Byte) (payload : List Byte) : Statement (.locate num payload) :=
  fun h f hf => of_fits _ num payload h f hf

theorem queryTag (num : Byte) (payload : List Byte) : Statement (.queryTag num payload) :=
  fun h f hf => of_fits _ num payload h f hf

theorem listStrangers (num : Byte) (payload : List Byte) : Statement (.listStrangers num payload) :=
  fun h f hf => of_fits _ num payload h f hf

theorem refreshBudgets (num : Byte) (payload : List Byte) : Statement (.refreshBudgets num payload) :=
  fun h f hf => of_fits _ num payload h f hf

theorem openCampaign (num : Byte) (payload : List Byte) : Statement (.openCampaign num payload) :=
  fun h f hf => of_fits _ num payload h f hf

theorem queryCampaign (num : Byte) (payload : List Byte) : Statement (.queryCampaign num payload) :=
  fun h f hf => of_fits _ num payload h f hf

theorem releaseCampaign (num : Byte) (payload : List Byte) : Statement (.releaseCampaign num payload) :=
  fun h f hf => of_fits _ num payload h f hf

theorem postChange (num : Byte) (payload : List Byte) : Statement (.postChange num payload) :=
  fun h f hf => of_fits _ num payload h f hf

theorem cancelChange (num : Byte) (payload : List Byte) : Statement (.cancelChange num payload) :=
  fun h f hf => of_fits _ num payload h f hf

theorem queryChange (num : Byte) (payload : List Byte) : Statement (.queryChange num payload) :=
  fun h f hf => of_fits _ num payload h f hf

theorem fetchOutcomes (num : Byte) (payload : List Byte) : Statement (.fetchOutcomes num payload) :=
  fun h f hf => of_fits _ num payload h f hf

theorem outcomesReadyTimeout : Statement .outcomesReadyTimeout :=
  fun _ _ hf => nomatch hf

theorem hostByteReceived (byte : Byte) (faulty : Bool) : Statement (.hostByteReceived byte faulty) :=
  fun _ _ hf => nomatch hf

theorem idleGap : Statement .idleGap :=
  fun _ _ hf => nomatch hf

theorem lineBreak : Statement .lineBreak :=
  fun _ _ hf => nomatch hf

theorem hold : Statement .hold :=
  fun _ _ hf => nomatch hf

theorem go : Statement .go :=
  fun _ _ hf => nomatch hf

theorem outboundFrameSent : Statement .outboundFrameSent :=
  fun _ _ hf => nomatch hf

theorem noticeMove : Statement .noticeMove :=
  fun _ _ hf => nomatch hf

theorem headLost (c : Cell) : Statement (.headLost c) :=
  fun _ _ hf => nomatch hf

theorem headReturned (c : Cell) : Statement (.headReturned c) :=
  fun _ _ hf => nomatch hf

theorem beaconStart : Statement .beaconStart :=
  fun _ _ hf => nomatch hf

theorem refreshCrossing : Statement .refreshCrossing :=
  fun _ _ hf => nomatch hf

theorem cellBeaconInstant (c : Cell) (order : InstantOrder) : Statement (.cellBeaconInstant c order) :=
  fun _ _ hf => nomatch hf

theorem slotEnd (c : Cell) (received : Option (List Byte)) (level : Byte) : Statement (.slotEnd c received level) :=
  fun _ _ hf => nomatch hf

theorem joinSlotEnd (c : Cell) (heard : JoinHeard) : Statement (.joinSlotEnd c heard) :=
  fun _ _ hf => nomatch hf

theorem unknownKind (kind : Byte) (num : Byte) (payload : List Byte) : Statement (.unknownKind kind num payload) :=
  fun h f hf => of_fits _ num payload (Bool.and_eq_true _ _ ▸ h).1 f hf

theorem powerLoss : Statement .powerLoss :=
  fun _ _ hf => nomatch hf

end Sys2Proof.Laws.CarriedByFrame
end

