-- ==== Sys2Proof/Laws/Requests.lean ====
section
/-! SUPPORT. What offering a frame, taking a request and sending can do. The provers cite `request_ready`, `request_head` and
`event_powered` instead of unfolding the ways a request row runs. -/

namespace Sys2Proof.Machine

/-! ### Flow control -/

/-- A count that does not move the flow-control state leaves the line as it is. -/
@[simp] theorem withFlow_self (l : HostLine) : l.withFlow l.flow = l := if_pos rfl

/-- The flow-control state that a move leaves. -/
@[simp] theorem withFlow_flow (l : HostLine) (f : Flow) : (l.withFlow f).flow = f := by
  unfold HostLine.withFlow
  split
  · next h => exact h.symm
  · rfl

/-- A move of the flow-control state changes nothing but it and the free position. -/
theorem withFlow_eq (l : HostLine) (f : Flow) : ∃ free, l.withFlow f = { l with flow := f, flowFree := free } := by
  unfold HostLine.withFlow
  split
  · next h => exact ⟨l.flowFree, by rw [h]⟩
  · exact ⟨_, rfl⟩

@[simp] theorem flow_due_sent (f : Flow) : f.sent.due = false := by cases f <;> rfl

/-- Only the twelfth frame moves the flow-control state on a rise (Table 9-1). -/
theorem onRise_of_ne {n : Nat} (h : n ≠ 12) (f : Flow) : f.onRise n = f := by cases f <;> simp [Flow.onRise, h]

/-- Only a count of 4 moves the flow-control state on a fall (Table 9-1). -/
theorem onFall_of_ne {n : Nat} (h : n ≠ 4) (f : Flow) : f.onFall n = f := by cases f <;> simp [Flow.onFall, h]

/-! ### Offering and taking -/

/-- A frame offered to the queue joins it, or is discarded with INBOUND_OVERRUN (R164). -/
theorem offerFrame_eq (f : Frame) (s : State) :
    (s.line.inbound.length < 16 ∧ offerFrame f s = { s with
        line := ({ s.line with inbound := s.line.inbound ++ [f] } : HostLine).withFlow
          (s.line.flow.onRise (s.line.inbound.length + 1)) })
      ∨ (16 ≤ s.line.inbound.length ∧ offerFrame f s = raiseFlag .inboundOverrun s) := by
  by_cases h : s.line.inbound.length < 16
  · exact .inl ⟨h, if_pos h⟩
  · exact .inr ⟨not_lt.mp h, if_neg h⟩

/-- A frame that finds room joins the queue as Table 9-1 moves flow control. -/
theorem offerFrame_joins (f : Frame) (s : State) (h : s.line.inbound.length < 16) :
    offerFrame f s = { s with line := s.line.withJoined f } := by
  obtain ⟨powered, store, air, dir, pool, table, campaigns, planner, cells, line, handler, freeIndex, pending⟩ := s
  obtain ⟨rx, partials, inbound, outbound, flow, flowFree, rate, rateDue, lineOut⟩ := line
  simp only at h
  by_cases hn : inbound.length = 11 <;> cases flow <;>
    simp [offerFrame, HostLine.withJoined, HostLine.withFlow, Flow.onRise, Flow.due, h, hn]

/-- The head taken moves flow control as Table 9-1 says. -/
theorem takeHead_taken {g : Frame} {rest : List Frame} (s : State) (h : s.line.inbound = g :: rest) :
    takeHead s = { s with line := s.line.withTaken rest } := by
  obtain ⟨powered, store, air, dir, pool, table, campaigns, planner, cells, line, handler, freeIndex, pending⟩ := s
  obtain ⟨rx, partials, inbound, outbound, flow, flowFree, rate, rateDue, lineOut⟩ := line
  simp only at h
  subst h
  by_cases hn : rest.length = 4 <;> cases flow <;>
    simp [takeHead, HostLine.withTaken, HostLine.withFlow, Flow.onFall, Flow.due, hn]

/-- A frame offered and taken again from an empty queue leaves the state as it was. -/
theorem takeHead_offerFrame (f : Frame) (s : State) (h : s.line.inbound = []) : takeHead (offerFrame f s) = s := by
  obtain ⟨powered, store, air, dir, pool, table, campaigns, planner, cells, line, handler, freeIndex, pending⟩ := s
  obtain ⟨rx, partials, inbound, outbound, flow, flowFree, rate, rateDue, lineOut⟩ := line
  simp only at h
  subst h
  cases flow <;> rfl

theorem offerFrame_canTake (f : Frame) (s : State) (h : s.line.inbound = []) :
    (offerFrame f s).canTake = s.canTake := by
  obtain ⟨powered, store, air, dir, pool, table, campaigns, planner, cells, line, handler, freeIndex, pending⟩ := s
  obtain ⟨rx, partials, inbound, outbound, flow, flowFree, rate, rateDue, lineOut⟩ := line
  simp only at h
  subst h
  cases flow <;> rfl

@[simp] theorem sameRequest_self (kind num : Byte) (payload : List Byte) :
    (requestFrame kind num payload).sameRequest (requestFrame kind num payload) = true := by
  simp [Frame.sameRequest]

theorem Ready.canTake {s : State} (h : Ready s) : s.canTake = true := by
  have := h.place
  simp [State.canTake, State.freePlaces, h.task, Task.claimed]
  omega

/-- A request of a part that is ready is answered at once (R169). -/
theorem request_ready {s : State} (h : Ready s) (kind num : Byte) (payload : List Byte) (act : State → Answer) :
    request kind num payload act s = answerWith kind num (act s) := by
  have hi := h.inbound
  unfold request
  rw [if_pos h.powered, hi]
  dsimp only
  unfold takeAndAnswer
  rw [offerFrame_canTake _ _ hi, h.canTake, takeHead_offerFrame _ _ hi]
  rfl

/-- The request at the head of the inbound queue is taken when the Record Handler may take it, and otherwise it waits
(R169). -/
theorem request_head {s : State} (hp : s.powered = true) (kind num : Byte) (payload : List Byte) (act : State → Answer)
    (g : Frame) (rest : List Frame) (hi : s.line.inbound = g :: rest)
    (hg : g.sameRequest (requestFrame kind num payload) = true) :
    request kind num payload act s = if s.canTake then answerWith kind num (act (takeHead s)) else s := by
  unfold request
  rw [if_pos hp, hi]
  dsimp only
  rw [if_pos hg]
  rfl

/-- A request row whose frame does not stand at the head joins the queue behind the others (R164, log entry 1). -/
theorem request_joins {s : State} (hp : s.powered = true) (kind num : Byte) (payload : List Byte) (act : State → Answer)
    (g : Frame) (rest : List Frame) (hi : s.line.inbound = g :: rest)
    (hg : g.sameRequest (requestFrame kind num payload) = false) :
    request kind num payload act s = offerFrame (requestFrame kind num payload) s := by
  unfold request
  rw [if_pos hp, hi]
  dsimp only
  rw [hg]
  rfl

/-- Without supply a request does nothing. -/
theorem request_off {s : State} (hp : s.powered = false) (kind num : Byte) (payload : List Byte) (act : State → Answer) :
    request kind num payload act s = s := by
  simp [request, hp]

theorem event_powered {s : State} (hp : s.powered = true) (act : State → State) : event act s = act s := by
  simp [event, hp]

theorem event_off {s : State} (hp : s.powered = false) (act : State → State) : event act s = s := by
  simp [event, hp]

@[simp] theorem answerWith_okWith (kind num : Byte) (data : List Byte) (s : State) :
    answerWith kind num (okWith data s) = placeFrame (replyFrame kind num .ok data) s := rfl

@[simp] theorem answerWith_refuse (kind num : Byte) (code : ResultCode) (s : State) :
    answerWith kind num (refuse code s) = placeFrame (replyFrame kind num code []) s := rfl

@[simp] theorem answerWith_postAnswer (kind num : Byte) (code : ResultCode) (p : PostReply) (s : State) :
    answerWith kind num (postAnswer code p s) = placeFrame (replyFrame kind num code p.bytes) s := rfl

theorem ofLength_right (n : Nat) (payload : List Byte) (act : State → Answer) (s : State) (h : payload.length = n) :
    ofLength n payload act s = act s := if_pos h

theorem ofLength_wrong (n : Nat) (payload : List Byte) (act : State → Answer) (s : State) (h : payload.length ≠ n) :
    ofLength n payload act s = refuse .badLength s := if_neg h

/-- A sending only takes frames off the outbound queue. -/
theorem afterFirst_suffix (p : Frame → Bool) (fs : List Frame) (f : Frame) (rest : List Frame)
    (h : afterFirst p fs = some (f, rest)) : ∃ sent, fs = sent ++ f :: rest ∧ p f = true := by
  induction fs with
  | nil => simp [afterFirst] at h
  | cons g gs ih =>
    simp only [afterFirst] at h
    split at h
    · next hg =>
      simp only [Option.some.injEq, Prod.mk.injEq] at h
      obtain ⟨rfl, rfl⟩ := h
      exact ⟨[], rfl, hg⟩
    · obtain ⟨sent, hs, hp⟩ := ih h
      exact ⟨g :: sent, by rw [hs]; rfl, hp⟩

/-- What a sending leaves: everything but the outbound queue, the flow-control byte due, the rate and those still to be taken,
and the bytes put on the line. -/
theorem sendThrough_eq (p : Frame → Bool) (s : State) :
    sendThrough p s = s ∨ ∃ sent f rest flow free rate due, s.line.outbound = sent ++ f :: rest ∧ p f = true
      ∧ sendThrough p s = { s with
          line.outbound := rest, line.flow := flow, line.flowFree := free, line.rate := rate, line.rateDue := due
          line.lineOut := f.bytes } := by
  unfold sendThrough
  split
  · exact .inl rfl
  · next f rest h =>
    obtain ⟨sent, hs, hp⟩ := afterFirst_suffix p _ f rest h
    exact .inr ⟨sent, f, rest, _, _, _, _, hs, hp, rfl⟩

/-- A rate change is due where fewer SET-LINE replies wait than rates. -/
theorem rateChangeDue_iff (s : State) :
    s.rateChangeDue = true ↔ okReplies 0x09 s.line.outbound < s.line.rateDue.length := by
  have h : isSetLineReply = fun f : Frame => decide (f.kind = 0x09 + 0x80 ∧ f.status = 0) := by
    funext f; simp [isSetLineReply]
  simp only [State.rateChangeDue, State.setLineReplies, okReplies, h, decide_eq_true_eq]

/-- A reset is due where one was accepted and no reply to it waits. -/
theorem resetDue_iff (s : State) :
    s.resetDue = true ↔ (∃ k, s.handler.task = .resetting k) ∧ okReplies 0x08 s.line.outbound = 0 := by
  unfold State.resetDue okReplies
  cases s.handler.task <;> simp [isResetReply]

/-- The line may send where neither is due. -/
theorem lineFree_iff (s : State) : s.lineFree = true ↔ ¬ s.lineChanges := by
  unfold State.lineFree State.lineChanges
  rw [← rateChangeDue_iff, ← resetDue_iff]
  simp

/-- What the end of a frame's sending leaves: nothing changed, or the head frame gone from the queue, its bytes on the line. -/
theorem frameSent_eq (s : State) :
    frameSent s = s ∨ ∃ f rest, s.line.outbound = f :: rest ∧ ¬ s.lineChanges ∧ frameSent s = { s with
      line.outbound := rest, line.flowFree := s.line.flow.due, line.lineOut := f.bytes } := by
  unfold frameSent
  split
  · exact .inl rfl
  · next f rest h =>
    split
    · exact .inl rfl
    · next hf =>
      refine .inr ⟨f, rest, h, (lineFree_iff s).mp ?_, rfl⟩
      exact (Bool.not_eq_false _).mp fun h => hf (.inr h)

/-! ### The order of due events -/

/-- Behind the first event for which `p` holds only kept ones follow; nothing is added and no two change places. -/
theorem keepBehind_sublist (p keep : Instr → Bool) (l : List Instr) : (keepBehind p keep l).Sublist l := by
  induction l with
  | nil => exact .refl _
  | cons i rest ih =>
    simp only [keepBehind]
    split
    · exact List.filter_sublist.cons_cons i
    · exact ih.cons_cons i

/-- The events that are left of an order stand in it in the same order. -/
theorem settled_sublist (order : List Instr) : (settled order).Sublist order :=
  (keepBehind_sublist _ _ _).trans (keepBehind_sublist _ _ _)

theorem keepBehind_self (p keep : Instr → Bool) (l : List Instr) (h : ∀ i ∈ l, p i = true → ∀ j ∈ l, keep j = true) :
    keepBehind p keep l = l := by
  induction l with
  | nil => rfl
  | cons i rest ih =>
    simp only [keepBehind]
    split
    · next hp =>
      rw [List.filter_eq_self.mpr fun j hj => h i List.mem_cons_self hp j (List.mem_cons_of_mem i hj)]
    · rw [ih fun a ha hp b hb => h a (List.mem_cons_of_mem i ha) hp b (List.mem_cons_of_mem i hb)]

/-- Without a reset and a time-out among them, every event of an order is left. -/
theorem settled_self (order : List Instr) (hr : .resetActs ∉ order) (ht : .outcomesReadyTimeout ∉ order) :
    settled order = order := by
  unfold settled
  rw [keepBehind_self _ _ order fun i _ _ j hj => by
    simp only [ne_eq, decide_eq_true_eq]
    rintro rfl
    exact ht hj]
  refine keepBehind_self _ _ _ fun i hi hp => ?_
  simp only [decide_eq_true_eq] at hp
  exact absurd (hp ▸ hi) hr

end Sys2Proof.Machine
end

