-- ==== Sys2Proof/Tests/Slice0.lean ====
section
/-! SUPPORT. Tests: the smoke test of the well-formedness checks, the spec's worked examples and tables, one step of each
command, and for every statement of Certificates/Slice0/Obligations.lean with hypotheses a state and operands that meet
them. Expected values are the spec's own, or read from its tables by hand. -/

namespace Sys2Proof.Tests

open Sys2Proof.Machine

set_option Elab.async false

/-! ### Helpers -/

/-- The state after a command. -/
def after (c : Instr) (s : State) : State :=
  match exec c s with
  | .next t => t
  | .fault _ => State.reset
  | .refused _ => State.reset

/-- The status byte and the payload of the last frame placed by a command. -/
def answered (c : Instr) (s : State) : Option (Byte × List Byte) :=
  (after c s).line.outbound.getLast?.map fun f => (f.status, f.payload)

/-- A settings record with a site code and cell 1 enabled at offset 400. -/
def floor : Settings := { Settings.defaults with
  siteCode := 0x1234, capacityDay := 3, cells := ⟨⟨true, 0, 0⟩, ⟨true, 0, 400⟩, ⟨false, 0, 0⟩, ⟨false, 0, 0⟩⟩ }

/-- The entry of a PRESENT tag homed on cell 1. -/
def entry (addr : Nat) (id : TagId) (w : WakeClass) (link : Byte) (r : Nat) (live : Option Serial) : Entry :=
  { addr := addr, tagId := id, zone := 3, pageClass := 3, state := .present, home := some 1, believed := w
    commanded := none, boostEnd := none, flash := live.isNone, shown := some 1077, staged := some ⟨0, .nil⟩
    link := some link, battery := some 6, allowance := 1200, effective := 1200, remaining := r, misses := 0, live := live }

/-- A live change record. -/
def change (k : Serial) (seq : Sequence) (addr : Nat) (id : TagId) (campaign : Option CampaignIndex) (n : Nat)
    (state : ChangeState) : Change :=
  { serial := k, sequence := seq, addr := addr, tagId := id, campaign := campaign, blockCount := n, checksum := 0x7C1E
    acked := 0, state := state, late := false, staleCut := false, displaced := none, failures := 0, calls := 0, spent := 0
    outcome := none, finalBeacon := none }

/-- Blocks in the pool for a change. -/
def blocks (k : Serial) (n : Nat) : PoolEntry := ⟨k, List.replicate n (List.replicate 32 0)⟩

/-- The part of the example of chapter 7 (Tables 7-8 to 7-10) just before cell 1's instant of beacon 56,485; the tag ids
other than tag 57's are chosen for the phases the example gives. -/
def shop : State := { State.reset with
  store.working := floor
  store.mode := .day
  air := ⟨1647, ⟨2048, floor.cells, 10, 3⟩, 56485, none, 110459392, true⟩
  dir.entries := [entry 57 0x0A317C45 3 96 1200 (some 1305), entry 77 0x65 5 120 400 none,
    entry 212 0x0D 3 120 300 (some 1290), entry 330 0x03 1 120 500 (some 1260),
    entry 641 0x15 4 170 900 (some 1301), entry 905 0x28 0 60 12 (some 1299)]
  pool := ⟨32728, [blocks 1260 3, blocks 1290 4, blocks 1299 1, blocks 1301 10, blocks 1305 22]⟩
  table := ⟨[change 1260 9390 330 0x03 none 3 .sending, change 1290 9392 212 0x0D (some 0) 4 .withdrawing,
    change 1299 9400 905 0x28 none 1 .queued, change 1301 9401 641 0x15 (some 1) 10 .queued,
    change 1305 9402 57 0x0A317C45 (some 0) 22 .queued], [], [], 1306, 9403⟩
  campaigns := ⟨{ Campaign.freeEntry with state := .opened, activation := some ⟨108000, 56550, .apply⟩, admitted := 2, live := 2 },
    { Campaign.freeEntry with state := .opened, activation := some ⟨108900, 57000, .drop⟩, admitted := 1, live := 1 },
    Campaign.freeEntry, Campaign.freeEntry⟩
  planner := ⟨⟨[], [⟨57, 56485⟩, ⟨77, 56485⟩, ⟨212, 56485⟩, ⟨330, 56485⟩, ⟨641, 56485⟩, ⟨905, 56485⟩], [], []⟩,
    ⟨56484, 56484, 56484, 56484⟩, ⟨[], (List.range 9).map fun i => ⟨1000 + i, 56600, true⟩, [], []⟩⟩
  cells.heads := ⟨true, true, false, false⟩ }

/-- The slot snapshot of tag 57 in Table 7-10, in a window of its own. -/
def snapshot57 : Snapshot :=
  { cell := 1, beacon := 56485, slot := 0, addr := 57, tagId := 0x0A317C45, serial := 1305
    change := some ⟨22, 0x7C1E, 0, some 56550⟩, first := 0, carried := 2
    blocks := [List.replicate 32 0, List.replicate 32 0], wakeOrder := none, boostOrder := some 56549, withdraw := false
    verify := false, flash := false, debit := 22 }

/-- The report of tag 57 in the example of chapter 8. -/
def report57 : Report :=
  { tagId := 0x0A317C45, shown := 1077, staged := ⟨1305, .partly⟩, nextBlock := 2, wakeClass := 3, boostEnd := some 56549
    battery := 6, flashDone := false }

/-- A part with tag 57 alone, called in the window of cell 1 (Table 8-1, before the slot end). -/
def called57 : State := { shop with
  dir.entries := [entry 57 0x0A317C45 3 96 1178 (some 1305)]
  pool := ⟨32746, [blocks 1305 22]⟩
  table := ⟨[{ change 1305 9402 57 0x0A317C45 (some 0) 22 .sending with calls := 1, spent := 22 }], [], [], 1306, 9403⟩
  campaigns := ⟨{ Campaign.freeEntry with state := .opened, activation := some ⟨108000, 56550, .apply⟩, admitted := 1, live := 1 },
    Campaign.freeEntry, Campaign.freeEntry, Campaign.freeEntry⟩
  planner := ⟨⟨[], [], [], []⟩, ⟨56485, 56485, 56484, 56484⟩, ⟨[], [⟨57, 56549, false⟩], [], []⟩⟩
  cells.windows := ⟨none, some ⟨56485, .day, [], none, [⟨snapshot57, slotDownlink snapshot57, false⟩]⟩, none, none⟩ }

/-- The same part with its slot ended, listening in the join slot. -/
def listening : State := { called57 with
  cells.windows := ⟨none, some ⟨56485, .day, [], none, [⟨snapshot57, slotDownlink snapshot57, true⟩]⟩, none, none⟩ }

/-- The part of the worked case of chapter 5 (Table 5-3): beacon 41,250 started at site tick 79,258,112. -/
def evening : State := { State.reset with
  air := ⟨2047, ⟨2048, Settings.defaults.cells, 10, 2⟩, 41250, none, 79258112, true⟩ }

/-- A part with two outcome records. -/
def outcomes : State := { State.reset with
  table.outcomes := [⟨7, 0x65, none, .applied, false, false, 900, 3, 48⟩, ⟨8, 0x66, some 1, .droppedLate, true, false, 901, 0, 0⟩] }

/-- The posted image of Table 3-3. -/
def coffee : List Byte :=
  [1, 0, 4, 0]
    ++ [1, 0, 6, 0, 16, 0] ++ le 4 349 ++ [2, 1]
    ++ [2, 0, 6, 0, 28, 0] ++ le 4 429 ++ [2, 1]
    ++ [3, 0, 7, 0, 41, 0] ++ le 4 750 ++ [1] ++ le 2 1000
    ++ [5, 0, 18, 0, 68, 0] ++ List.replicate 18 0x41 ++ [0, 0, 0]
    ++ [8, 0, 1, 0, 0, 0, 2]

/-- The fault of an image, if it has one. -/
def faultOf (img : List Byte) : Option (SubReason × Nat) :=
  match checkImage img with
  | .ok _ => none
  | .error e => some (e.reason, e.offset)

/-- The derived unit price of an image, if it has one. -/
def unitPriceIn (img : List Byte) : Option UnitPrice :=
  match imageResult img with
  | .ok f => f.unitPrice
  | .error _ => none

/-! ### Well-formedness: what each check refuses -/

theorem test_wellFormed_payload_too_long :
    (Instr.status 0 (List.replicate 1098 0)).wellFormed = false ∧ (Instr.status 0 (List.replicate 1097 0)).wellFormed = true := by
  decide +kernel

theorem test_wellFormed_resetCold_naming_warm :
    (Instr.resetCold 0 [2]).wellFormed = false ∧ (Instr.resetCold 0 [1]).wellFormed = true := by decide

theorem test_wellFormed_resetWarm_naming_cold :
    (Instr.resetWarm 0 [1]).wellFormed = false ∧ (Instr.resetWarm 0 [2]).wellFormed = true := by decide

theorem test_wellFormed_setWakeTag_zone_form :
    (Instr.setWakeTag 0 [1, 0, 0, 0, 0, 0]).wellFormed = false ∧ (Instr.setWakeTag 0 [0, 0, 0, 0, 0, 0]).wellFormed = true := by
  decide

theorem test_wellFormed_setWakeZone_tag_form :
    (Instr.setWakeZone 0 [0, 0, 0, 0, 0, 0]).wellFormed = false ∧ (Instr.setWakeZone 0 [1, 0, 0, 0, 0, 0]).wellFormed = true := by
  decide

theorem test_wellFormed_unknownKind_known :
    (Instr.unknownKind 0x1A 0 []).wellFormed = false ∧ (Instr.unknownKind 0x1B 0 []).wellFormed = true
      ∧ (Instr.unknownKind 0 0 []).wellFormed = true := by decide

/-! ### Commands and words -/

theorem test_no_word_spells_a_command : decodeTableWord 8 0xC3 = none ∧ State.reset.withFetchWord 8 0xC3 = State.reset := by
  decide

theorem test_commandOf_kinds :
    commandOf 0x17 5 [1] = .postChange 5 [1] ∧ commandOf 0x08 5 [2] = .resetWarm 5 [2]
      ∧ commandOf 0x08 5 [1] = .resetCold 5 [1] ∧ commandOf 0x0E 5 [1, 0, 0, 0, 0, 0] = .setWakeZone 5 [1, 0, 0, 0, 0, 0]
      ∧ commandOf 0x1B 5 [] = .unknownKind 0x1B 5 [] := by decide

/-! ### The spec's tables and examples -/

/-- Table 1-1. -/
theorem test_table_1_1 :
    beaconDiff 56550 41250 = 15300 ∧ beaconDiff 41250 56550 = -15300 ∧ beaconDiff 5 16777210 = 11
      ∧ beaconDiff 56546 56565 = -19 ∧ beaconDiff 8388608 0 = -8388608
      ∧ isAfter 56550 41250 = true ∧ isBefore 41250 56550 = true ∧ isAfter 5 16777210 = true
      ∧ isBefore 56546 56565 = true ∧ atOrAfter 8388608 0 = false ∧ isBefore 8388608 0 = false := by decide

/-- Table 1-7. -/
theorem test_table_1_7 :
    (List.finRange 8).map (fun w => phase w 0x0A317C45) = [0, 1, 1, 5, 5, 5, 5, 69] := by decide

/-- Table 1-8. -/
theorem test_table_1_8 :
    nextWake 3 0x0A317C45 55900 = 55901 ∧ nextWake 3 0x0A317C45 56480 = 56485 ∧ nextWake 5 0x0A317C45 55900 = 55909
      ∧ nextWake 7 0x0A317C45 55900 = 56005 ∧ nextWake 3 0x0A317C45 16777215 = 5 := by decide

/-- Table 1-6 and the requests after it. -/
theorem test_table_1_6 :
    windowsFit 2048 10 ⟨⟨true, 0, 0⟩, ⟨true, 0, 400⟩, ⟨true, 1, 0⟩, ⟨true, 1, 1700⟩⟩ = true
      ∧ windowsFit 2048 12 ⟨⟨true, 0, 0⟩, ⟨true, 0, 400⟩, ⟨true, 1, 0⟩, ⟨true, 1, 1700⟩⟩ = false
      ∧ windowsFit 2048 12 ⟨⟨true, 0, 0⟩, ⟨true, 0, 400⟩, ⟨true, 1, 0⟩, ⟨true, 1, 1600⟩⟩ = true
      ∧ windowsFit 1536 12 ⟨⟨true, 0, 0⟩, ⟨true, 0, 400⟩, ⟨true, 1, 0⟩, ⟨true, 1, 1600⟩⟩ = false := by decide

/-- The check values of R54. -/
theorem test_check_values :
    crc16 [0x31, 0x32, 0x33, 0x34, 0x35, 0x36, 0x37, 0x38, 0x39] = 0x29B1 ∧ crc16 [0x00] = 0xE1F0 ∧ crc16 [] = 0xFFFF := by
  decide +kernel

/-- Tables 3-3 and 3-4. -/
theorem test_table_3_4 :
    faultOf coffee = none
      ∧ faultOf (overwrite 2 [6, 0] coffee) = some (.badHeader, 0)
      ∧ faultOf (overwrite 43 [70, 0] coffee) = some (.fieldLength, 41)
      ∧ faultOf (overwrite 20 [20, 0] coffee) = some (.badOffset, 16)
      ∧ faultOf (overwrite 72 [76, 0] coffee) = some (.overrun, 76)
      ∧ faultOf (overwrite 38 [5] coffee) = some (.range, 28)
      ∧ faultOf (overwrite 41 [4] coffee) = some (.unitPricePosted, 41)
      ∧ faultOf (overwrite 22 (le 4 300) coffee) = some (.oldNotHigher, 16)
      ∧ faultOf (overwrite 4 [5] coffee) = some (.missingPrice, 0)
      ∧ faultOf (overwrite 16 [1] coffee) = some (.duplicate, 16) := by decide +kernel

/-- Table 3-5, before the limit, and the unit price of Table 3-3. -/
theorem test_table_3_5 :
    unitPriceExact 349 750 1000 = 465 ∧ unitPriceExact 5 2 1 = 3 ∧ unitPriceExact 0 40 100 = 0
      ∧ unitPriceExact 1299 3 1 = 433 ∧ unitPriceExact 9999999 1 1000 = 9999999000
      ∧ unitPriceIn coffee = some ⟨465, 1, 1000, false⟩ := by decide +kernel

/-- Table 3-6. -/
theorem test_table_3_6 :
    blockCountOf 16 = 1 ∧ blockCountOf 89 = 3 ∧ blockCountOf 128 = 4 ∧ blockCountOf 700 = 22 ∧ blockCountOf 1024 = 32 := by
  decide

/-- The boost cost of the example of chapter 6. -/
theorem test_boost_cost : boostCost 56485 56549 3 0x0A317C45 2 = 112 := by decide

/-- The frame layouts of chapter 11: a request frame, a report and a join. -/
theorem test_frame_layouts :
    (Frame.bytes ⟨0x02, 7, 0, le 4 71990⟩).take 10 = [0xC3, 7, 0, 0x02, 7, 0, 0x36, 0x19, 0x01, 0x00]
      ∧ (Frame.bytes ⟨0x02, 7, 0, le 4 71990⟩).length = 12
      ∧ (reportFrame report57).take 17
        = [0xB4, 0x45, 0x7C, 0x31, 0x0A, 0x35, 0x04, 0x19, 0x05, 1, 2, 3, 0xE5, 0xDC, 0x00, 6, 2]
      ∧ (joinFrame ⟨0x65, 0x1234, 1077, ⟨0, .nil⟩⟩).take 12 = [0xB5, 0x65, 0, 0, 0, 0x34, 0x12, 0x35, 0x04, 0, 0, 0] := by
  decide +kernel

/-- A flipped bit of a report is not decoded (R188). -/
theorem test_damaged_report :
    decodeReport (overwrite 10 [3] (reportFrame report57)) = none ∧ decodeReport (reportFrame report57) = some report57 := by
  decide +kernel

/-! ### One step of each command -/

theorem test_powerOn :
    (after (.powerOn 0x5) { called57 with powered := false, store.stored := .damaged }).cells = ⟨⟨true, false, true, false⟩, ⟨none, none, none, none⟩⟩
      ∧ (after (.powerOn 0x5) { called57 with powered := false, store.stored := .damaged }).handler.flags = 0x008 := by
  decide +kernel

theorem test_status : (answered (.status 1 []) shop).map (fun r => (r.1, r.2.length)) = some (0x00, 41) := by decide +kernel

/-- Table 1-2: the clock holds 71,990 seconds after SET-CLOCK. -/
theorem test_setClock :
    (after (.setClock 1 (le 4 71990)) State.reset).air.clock = 73717760
      ∧ (after (.setClock 1 (le 4 71990)) State.reset).air.clockSet = true := by decide +kernel

theorem test_setBeacon :
    (after (.setBeacon 1 [0x39, 0x30, 0]) State.reset).air.preset = some 12345
      ∧ answered (.setBeacon 1 [0x39, 0x30, 0]) shop = some (0x18, []) := by decide +kernel

theorem test_setMode :
    answered (.setMode 1 [1]) State.reset = some (0x15, []) ∧ (after (.setMode 1 [1]) shop).store.mode = .night := by
  decide +kernel

/-- The floor's cell 1 at offset 400: the cells of group 0 clash at offset 300 (R16), and an item 4 is taken at 500. -/
theorem test_configSet :
    answered (.configSet 1 [1, 4, 1, 0, 0x2C, 0x01]) shop = some (0x17, [])
      ∧ answered (.configSet 1 [1, 4, 1, 0, 0xF4, 0x01]) shop = some (0x00, [1, 4, 1, 0, 0xF4, 0x01]) := by decide +kernel

/-- A new period is refused while a campaign is OPEN (R88). -/
theorem test_configSet_locked : answered (.configSet 1 [1, 2, 0, 16, 0, 0]) shop = some (0x18, []) := by decide +kernel

theorem test_configGet :
    (answered (.configGet 1 []) State.reset).map (fun r => (r.1, r.2.length, r.2.take 8, r.2.drop 80))
      = some (0x00, 82, [0, 0, 0, 0, 0, 8, 0, 0], [1, 1]) := by decide +kernel

theorem test_saveSettings : (after (.saveSettings 9 []) shop).handler.task = .saving 9 floor := by decide +kernel

theorem test_settingsWriteEnd :
    (after (.settingsWriteEnd true) { shop with handler.task := .saving 9 floor }).store.unsaved = false
      ∧ answered (.settingsWriteEnd true) { shop with handler.task := .saving 9 floor } = some (0x00, [])
      ∧ (after (.settingsWriteEnd false) { shop with handler.task := .saving 9 floor }).store.stored = .damaged := by
  decide +kernel

theorem test_resetCold :
    (after (.resetCold 1 [1]) shop).handler.task = .resetting .cold ∧ answered (.resetCold 1 [0]) shop = some (0x03, []) := by
  decide +kernel

theorem test_resetWarm : (after (.resetWarm 1 [2]) shop).handler.task = .resetting .warm := by decide +kernel

theorem test_resetActs_warm :
    (after .resetActs { shop with handler.task := .resetting .warm }).table = ⟨[], [], [], 1306, 9403⟩
      ∧ (after .resetActs { shop with handler.task := .resetting .warm }).planner.calendar.c1 = [⟨77, 56485⟩] := by
  decide +kernel

theorem test_resetActs_cold :
    (after .resetActs { shop with handler.task := .resetting .cold }).air.beacon = 0
      ∧ (after .resetActs { shop with handler.task := .resetting .cold }).dir.entries = [] := by decide +kernel

theorem test_setLine :
    answered (.setLine 1 (le 4 921600)) State.reset = some (0x00, le 4 921600)
      ∧ (after (.setLine 1 (le 4 921600)) State.reset).line.rate = .r115200 := by decide +kernel

theorem test_lineRateChange :
    (after .lineRateChange { State.reset with line.rateDue := [.r921600] }).line.rate = .r921600 := by decide +kernel

/-- T_o is clamped to 1..64 (R172). -/
theorem test_setNotices :
    answered (.setNotices 1 [0xFF, 0xFF, 0]) State.reset = some (0x00, [0xFF, 0x0F, 1])
      ∧ answered (.setNotices 1 [0, 0, 200]) State.reset = some (0x00, [0, 0, 64]) := by decide +kernel

/-- SETTINGS_DEFAULTED, flag 3, cleared (Table 9-4). -/
theorem test_clearEvents : answered (.clearEvents 1 [0x08, 0]) State.reset = some (0x00, [0, 0]) := by decide +kernel

theorem test_enrol :
    answered (.enrol 1 (le 4 0x99 ++ [3, 2, 9] ++ [0xFF, 0xFF])) shop = some (0x00, [0, 0])
      ∧ ((after (.enrol 1 (le 4 0x99 ++ [3, 2, 9] ++ [0xFF, 0xFF])) shop).entryOf 0x99).map
          (fun e => (e.believed, e.allowance, e.state)) = some (7, 1200, .unseen) := by decide +kernel

theorem test_remove :
    answered (.remove 1 (le 4 0x0D)) shop = some (0x07, [])
      ∧ ((after (.remove 1 (le 4 0x0A317C45)) shop).table.outcomes.map fun o => (o.serial, o.code)) = [(1305, .cancelled)] := by
  decide +kernel

theorem test_setWakeTag :
    ((after (.setWakeTag 1 (0 :: le 4 0x0A317C45 ++ [5])) shop).entryAt 57).map (·.commanded) = some (some 5)
      ∧ ((after (.setWakeTag 1 (0 :: le 4 0x0A317C45 ++ [3])) shop).entryAt 57).map (·.commanded) = some none := by
  decide +kernel

/-- Five of the six entries of zone 3 run a class other than 0. -/
theorem test_setWakeZone : answered (.setWakeZone 1 [1, 3, 0, 0, 0, 0]) shop = some (0x00, [5, 0]) := by decide +kernel

theorem test_setAllowance :
    answered (.setAllowance 1 (le 4 0x65 ++ le 2 300)) shop = some (0x00, le 2 300 ++ le 2 300 ++ le 2 300) := by
  decide +kernel

theorem test_locate :
    ((after (.locate 1 (le 4 0x0A317C45)) shop).entryAt 57).map (·.flash) = some true
      ∧ answered (.locate 1 (le 4 0x77)) shop = some (0x04, []) := by decide +kernel

theorem test_queryTag :
    (answered (.queryTag 1 (le 4 0x0A317C45)) shop).map (fun r => (r.2.length, r.2.take 9, r.2.drop 37))
      = some (47, [0x45, 0x7C, 0x31, 0x0A, 57, 0, 3, 3, 1], [1, 0x19, 0x05, 3, 1, 1, 0xA5, 0xDC, 0, 0]) := by decide +kernel

theorem test_listStrangers :
    answered (.listStrangers 1 []) { State.reset with dir.strangers := [⟨0x77, 2, 300, 4⟩] }
      = some (0x00, [1, 0x77, 0, 0, 0, 2, 0x2C, 0x01, 0, 4]) := by decide +kernel

/-- Table 6-4: battery 3 halves the allowance of 1,200 at a refresh. -/
theorem test_refreshBudgets :
    (((after (.refreshBudgets 1 []) { shop with
        dir.entries := [{ entry 77 0x65 5 120 400 none with battery := some 3 }] }).entryAt 77).map
          fun e => (e.effective, e.remaining)) = some (600, 600) := by decide +kernel

/-- Table 6-5: a QUEUED change of a tag with battery 0 finishes FAILED_BUDGET. -/
theorem test_refreshCrossing :
    ((after .refreshCrossing { called57 with
        dir.entries := [{ entry 57 0x0A317C45 3 96 1178 (some 1305) with battery := some 0 }] }).table.outcomes.map
          fun o => (o.serial, o.code, o.spent)) = [(1305, .failedBudget, 22)] := by decide +kernel

/-- Table 5-3: E = 56,550, d = 15,300, lead 512. -/
theorem test_openCampaign :
    answered (.openCampaign 1 (1 :: le 4 108000 ++ [0])) evening = some (0x00, le 3 56550 ++ le 3 15300 ++ le 2 512) := by
  decide +kernel

/-- Table 5-4. -/
theorem test_openCampaign_table_5_4 :
    answered (.openCampaign 1 (1 :: le 4 77400 ++ [0])) evening = some (0x0F, [])
      ∧ answered (.openCampaign 1 (1 :: le 4 77401 ++ [0])) evening = some (0x00, le 3 41251 ++ le 3 1 ++ le 2 1536)
      ∧ answered (.openCampaign 1 (1 :: le 4 77402 ++ [0])) evening = some (0x00, le 3 41251 ++ le 3 1 ++ le 2 512)
      ∧ answered (.openCampaign 1 (1 :: le 4 8466008 ++ [0])) evening
        = some (0x00, le 3 4235554 ++ le 3 4194304 ++ le 2 512)
      ∧ answered (.openCampaign 1 (1 :: le 4 8466009 ++ [0])) evening = some (0x10, [])
      ∧ answered (.openCampaign 1 (1 :: le 4 108000 ++ [0])) { evening with store.working.period := 1024 }
        = some (0x00, le 3 71849 ++ le 3 30599 ++ le 2 512) := by decide +kernel

theorem test_queryCampaign :
    (answered (.queryCampaign 1 [1]) shop).map (fun r => (r.2.length, r.2.take 3, (r.2.drop 73).take 4))
      = some (89, [1, 1, 1], [1, 65, 0, 0]) := by decide +kernel

theorem test_releaseCampaign : answered (.releaseCampaign 1 [1]) shop = some (0x0E, []) := by decide +kernel

/-- The coffee image of 89 final bytes is 3 blocks with the unit price 465 (Table 3-3). -/
theorem test_postChange :
    (answered (.postChange 1 (le 4 0x65 ++ [0, 0] ++ le 2 75 ++ coffee)) shop).map (fun r => (r.1, r.2.take 11))
        = some (0x00, le 2 1306 ++ [3] ++ le 2 0 ++ [1] ++ le 4 465 ++ [0])
      ∧ (after (.postChange 1 (le 4 0x65 ++ [0, 0] ++ le 2 75 ++ coffee)) shop).pool.free = 32725 := by decide +kernel

theorem test_postChange_refused :
    (answered (.postChange 1 (le 4 0x0D ++ [1, 0] ++ le 2 75 ++ coffee)) shop).map (·.1) = some 0x07
      ∧ (answered (.postChange 1 (le 4 0x65 ++ [3, 0] ++ le 2 75 ++ coffee)) shop).map (·.1) = some 0x0E := by decide +kernel

theorem test_cancelChange :
    answered (.cancelChange 1 (le 2 1305)) shop = some (0x00, [5])
      ∧ answered (.cancelChange 1 (le 2 1290)) shop = some (0x13, []) := by decide +kernel

theorem test_queryChange :
    (answered (.queryChange 1 (le 2 1305)) shop).map (fun r => (r.2.length, r.2.take 18))
      = some (35, le 2 1305 ++ le 4 9402 ++ le 2 57 ++ le 4 0x0A317C45 ++ [1, 22] ++ le 2 0x7C1E ++ [0, 0]) := by decide +kernel

theorem test_fetchOutcomes :
    (answered (.fetchOutcomes 1 []) outcomes).map (fun r => (r.1, r.2.length)) = some (0x00, 31)
      ∧ (after (.fetchOutcomes 1 []) outcomes).table.outcomes = [] := by decide +kernel

theorem test_outcomesReadyTimeout :
    (after .outcomesReadyTimeout outcomes).handler.notices.outcomesReady = true
      ∧ (after .outcomesReadyTimeout outcomes).handler.latch = .spent := by decide +kernel

theorem test_hostByteReceived :
    (after (.hostByteReceived 0xC3 false) State.reset).line.rx = .length
      ∧ (after (.hostByteReceived 0xC2 false) State.reset).line.rx = .hunt := by decide +kernel

/-- FRAME_DROPPED by a gap within a frame. -/
theorem test_idleGap :
    (after .idleGap { State.reset with line.rx := .length }).line.rx = .hunt
      ∧ Flag.frameDropped.isIn (after .idleGap { State.reset with line.rx := .length }).handler.flags = true := by decide +kernel

theorem test_lineBreak :
    (after .lineBreak { State.reset with line.inbound := [⟨1, 0, 0, []⟩], line.flow := .held }).line
      = State.reset.line := by decide +kernel

theorem test_hold : (after .hold { State.reset with line.flow := .holdDue, line.flowFree := true }).line.lineOut = [0x91] := by
  decide +kernel

theorem test_go : (after .go { State.reset with line.flow := .goDue, line.flowFree := true }).line.lineOut = [0x92] := by
  decide +kernel

theorem test_outboundFrameSent :
    (after .outboundFrameSent { State.reset with line.outbound := [⟨0x82, 7, 0, []⟩] }).line.outbound = []
      ∧ (after .outboundFrameSent { State.reset with line.outbound := [⟨0x82, 7, 0, []⟩] }).line.lineOut.take 6
        = [0xC3, 3, 0, 0x82, 7, 0] := by decide +kernel

/-- Between the SET-LINE reply's last byte and the rate change nothing is sent (R166). -/
theorem test_nothing_sent_before_rateChange :
    let s : State := { State.reset with
      line.rateDue := [.r921600], line.outbound := [⟨0x82, 7, 0, []⟩], line.flow := .holdDue, line.flowFree := true }
    after .hold s = s ∧ after .outboundFrameSent { s with line.flow := .flowOpen } = { s with line.flow := .flowOpen }
      ∧ (after .hold (after .lineRateChange s)).line.rate = .r921600
      ∧ (after .hold (after .lineRateChange s)).line.lineOut = [0x91] := by decide +kernel

theorem test_noticeMove :
    (after .noticeMove { State.reset with handler.notices := ⟨some 0x008, true, ⟨none, none, none, none⟩, true⟩ }).line.outbound
      = [⟨0xE0, 0, 0, [8, 0, 8, 0]⟩] := by decide +kernel

/-- R12: the slot not ended is a missed report; CELL_DOWN is set and the window is gone. -/
theorem test_headLost :
    ((after (.headLost 1) called57).entryAt 57).map (·.misses) = some 1
      ∧ (after (.headLost 1) called57).cells.windows.c1 = none
      ∧ Flag.cellDown.isIn (after (.headLost 1) called57).handler.flags = true := by decide +kernel

theorem test_headReturned :
    (after (.headReturned 2) State.reset).cells.heads = ⟨false, false, true, false⟩
      ∧ (after (.headReturned 2) State.reset).handler.flags = 0x008 := by decide +kernel

theorem test_beaconStart :
    (after .beaconStart { shop with air.beacon := 16777215 }).air.beacon = 0
      ∧ (after .beaconStart shop).air.counter = 2047 := by decide +kernel

/-- The cut of campaign 1 at its activation beacon: its WITHDRAWING record is CANCEL_TOO_LATE, its QUEUED one LATE. -/
theorem test_beaconStart_cut :
    ((after .beaconStart { shop with air.beacon := 56549 }).table.outcomes.map fun o => (o.serial, o.code)) = [(1290, .cancelTooLate)]
      ∧ ((after .beaconStart { shop with air.beacon := 56549 }).recordOf 1305).map (·.late) = some true := by decide +kernel

/-- Tables 7-9 and 7-10: the called tags with their blocks, debits and boost orders. -/
theorem test_cellBeaconInstant :
    ((after (.cellBeaconInstant 1 .afterStart) shop).cells.windows.c1.map fun w => w.slots.map fun x =>
        (x.snapshot.addr, x.snapshot.carried, x.snapshot.debit, x.snapshot.boostOrder))
      = some [(212, 0, 16, none), (330, 2, 22, none), (57, 2, 22, some 56549)] := by decide +kernel

/-- After the instant of the example: the calendar, and BUDGET_SHORT by tag 905. -/
theorem test_cellBeaconInstant_files :
    (after (.cellBeaconInstant 1 .afterStart) shop).planner.calendar.c1 = [⟨77, 56517⟩, ⟨641, 56501⟩, ⟨905, 56486⟩]
      ∧ (after (.cellBeaconInstant 1 .afterStart) shop).planner.boosts.c1.length = 10
      ∧ Flag.budgetShort.isIn (after (.cellBeaconInstant 1 .afterStart) shop).handler.flags = true := by decide +kernel

/-- Table 8-1: the report of tag 57. -/
theorem test_slotEnd :
    ((after (.slotEnd 1 (some (reportFrame report57)) 101) called57).entryAt 57).map
        (fun e => (e.link, e.staged, e.boostEnd, e.remaining)) = some (some 101, some ⟨1305, .partly⟩, some 56549, 1066)
      ∧ ((after (.slotEnd 1 (some (reportFrame report57)) 101) called57).recordOf 1305).map (fun r => (r.acked, r.spent))
        = some (2, 134)
      ∧ (after (.slotEnd 1 (some (reportFrame report57)) 101) called57).planner.calendar.c1 = [⟨57, 56486⟩] := by decide +kernel

/-- The report lost, as the text after Table 8-1 has it. -/
theorem test_slotEnd_missed :
    ((after (.slotEnd 1 none 0) called57).entryAt 57).map (·.misses) = some 1
      ∧ (after (.slotEnd 1 none 0) called57).planner.calendar.c1 = [⟨57, 56493⟩]
      ∧ (after (.slotEnd 1 none 0) called57).planner.boosts.c1 = [] := by decide +kernel

theorem test_joinSlotEnd_stranger :
    (after (.joinSlotEnd 1 (.heard (joinFrame ⟨0x88, 0, 0, ⟨0, .nil⟩⟩))) listening).dir.strangers = [⟨0x88, 1, 56485, 1⟩] := by
  decide +kernel

theorem test_joinSlotEnd_collided : (after (.joinSlotEnd 1 .collided) listening).cells.windows.c1 = none := by decide +kernel

theorem test_unknownKind : answered (.unknownKind 0x1B 4 []) State.reset = some (0x01, []) := by decide +kernel

theorem test_powerLoss :
    (after .powerLoss { shop with handler.task := .saving 9 floor }).store.stored = .damaged
      ∧ (after .powerLoss shop).powered = false := by decide +kernel

/-! ### Witnesses: states and operands that meet the hypotheses of the statements -/

theorem reset_ready : Ready State.reset := ⟨rfl, rfl, rfl, by decide⟩

theorem shop_ready : Ready shop := ⟨rfl, rfl, rfl, by decide⟩

theorem evening_ready : Ready evening := ⟨rfl, rfl, rfl, by decide⟩

theorem outcomes_ready : Ready outcomes := ⟨rfl, rfl, rfl, by decide⟩

/-- The invariants of the busy part `shop`, one by one. -/
theorem shop_chargeLaw : ChargeLaw shop := by unfold ChargeLaw; decide +kernel

theorem shop_directoryLaw : DirectoryLaw shop := by unfold DirectoryLaw; decide +kernel

theorem shop_queueBounds : QueueBounds shop := by unfold QueueBounds; decide +kernel

theorem shop_poolLaw : PoolLaw shop := by unfold PoolLaw; decide +kernel

theorem shop_oneFiling : OneFiling shop := by unfold OneFiling; decide +kernel

theorem shop_filingLaw : FilingLaw shop := by unfold FilingLaw; decide +kernel

theorem shop_tableLaw : TableLaw shop := by unfold TableLaw; decide +kernel

theorem shop_campaignLaw : CampaignLaw shop := by unfold CampaignLaw; decide +kernel

theorem shop_liveLaw : LiveLaw shop := by simp [LiveLaw, shop, entry, change]

theorem shop_holdingLaw : HoldingLaw shop := by unfold HoldingLaw; decide +kernel

theorem shop_liveCountLaw : LiveCountLaw shop := by unfold LiveCountLaw; decide +kernel

theorem floor_legal : floor.Legal := by constructor <;> decide +kernel

theorem shop_settingsLaw : SettingsLaw shop := ⟨floor_legal, by decide +kernel, by decide +kernel⟩

theorem shop_siteLaw : SiteLaw shop := by unfold SiteLaw; decide +kernel

/-- The busy part with cell 1's instant waiting. -/
def shopQueued : State := { shop with pending := [.cellBeaconInstant 1 .afterStart] }

/-- A part without work, five ticks before its beacon's end, and the same part at the end. -/
def quietPart (counter : Nat) : State := { State.reset with air.counter := counter }

/-- A part with `n` frames waiting. -/
def waiting (n : Nat) : State := { State.reset with line.inbound := List.replicate n ⟨1, 0, 0, []⟩ }

/-- The same part one tick before the second of the refresh time begins, with the clock SET. -/
def crossingPart : State := { quietPart 1 with
  air.clockSet := true, air.clock := BitVec.ofNat 42 (1024 * (86400 + State.reset.store.working.refreshTime) - 1) }

/-- The quiet part at its beacon's end, with a window of that beacon open. -/
def endingPart : State := { quietPart 0 with
  cells.windows := ⟨none, some ⟨0, .day, [], none, []⟩, none, none⟩
  air.geometry.cells := ⟨⟨false, 0, 0⟩, ⟨true, 0, 2022⟩, ⟨false, 0, 0⟩, ⟨false, 0, 0⟩⟩ }

/-- Nothing is due in a part without work whose windows end later and whose instants fall at other ticks. -/
theorem quiet_nothing_due (s : State) (hl : s.line = State.reset.line) (hn : s.handler = State.reset.handler)
    (ht : s.table.outcomes = []) (hi : ∀ c : Cell, s.ticksElapsed ≠ (s.air.geometry.cells.get c).offset)
    (hw : ∀ c : Cell, (s.cells.windows.get c).all (fun w => decide (w.beacon = s.air.beacon
      ∧ s.ticksElapsed < (s.air.geometry.cells.get c).offset + w.ticksToEnd)) = true) : ∀ i, ¬ s.isDue i := by
  rintro i (⟨f, rest, h, -⟩ | ⟨-, -, h⟩ | ⟨-, ⟨k, h⟩, -⟩ | ⟨-, h⟩ | ⟨-, h, -⟩ | ⟨-, h, -⟩ | ⟨-, -, -, h, -⟩ | ⟨c, w, h, -, hb⟩
    | ⟨c, -, h, -⟩)
  · rw [hl] at h; cases h
  · rw [hn] at h; revert h; decide
  · rw [hn] at h; cases h
  · rw [hl] at h; cases h
  · rw [hl] at h; cases h
  · rw [hl] at h; cases h
  · exact h ht
  · have := hw c
    rw [h] at this
    simp only [Option.all_some, decide_eq_true_eq] at this
    exact hb.elim (fun h => by omega) fun h => h.1 this.1
  · exact hi c h

theorem nothing_due :
    (∀ i, ¬ (quietPart 1).isDue i) ∧ (∀ i, ¬ (quietPart 0).isDue i) ∧ (∀ i, ¬ crossingPart.isDue i) ∧ ∀ i, ¬ endingPart.isDue i := by
  refine ⟨?_, ?_, ?_, ?_⟩ <;> exact quiet_nothing_due _ rfl rfl rfl (by decide +kernel) (by decide +kernel)

theorem witness_EmptyQueueTicks_counting :
    (quietPart 1).powered = true ∧ (quietPart 1).pending = [] ∧ (∀ i, ¬ (quietPart 1).isDue i)
      ∧ (quietPart 1).air.clockSet = false ∧ 0 < (quietPart 1).air.counter :=
  ⟨rfl, rfl, nothing_due.1, rfl, by decide⟩

theorem witness_EmptyQueueTicks_crossing :
    crossingPart.powered = true ∧ crossingPart.pending = [] ∧ (∀ i, ¬ crossingPart.isDue i) ∧ 0 < crossingPart.air.counter
      ∧ crossingPart.air.clockSet = true ∧ (crossingPart.air.clock + 1).toNat % 1024 = 0
      ∧ (crossingPart.air.clock + 1).toNat / 1024 % 86400 = crossingPart.store.working.refreshTime :=
  ⟨rfl, rfl, nothing_due.2.2.1, by decide, rfl, by decide +kernel, by decide +kernel⟩

theorem witness_EmptyQueueTicks_underflow :
    endingPart.powered = true ∧ endingPart.pending = [] ∧ (∀ i, ¬ endingPart.isDue i) ∧ endingPart.air.counter = 0
      ∧ (endingPart.store.working.cells.get 0).offset = 0
      ∧ (∃ w, endingPart.cells.windows.get 1 = some w ∧ w.beacon = endingPart.air.beacon)
      ∧ (∀ i, ¬ (quietPart 0).isDue i) ∧ (({ quietPart 0 with store.working := floor } : State).store.working.cells.get 1).offset ≠ 0 :=
  ⟨rfl, rfl, nothing_due.2.2.2, rfl, rfl, ⟨_, rfl, rfl⟩, nothing_due.2.1, by decide⟩

/-- A request waiting; the slot end of tag 57's call, 46 ticks after the instant at 400; the time-out; a rate change; and cell 1's
instant at offset 400. -/
theorem witness_EmptyQueueTicks_due :
    (waiting 1).powered = true ∧ (waiting 1).pending = [] ∧ (waiting 1).isDue (.status 0 [])
      ∧ ({ called57 with air.counter := 1601 } : State).isDue (.slotEnd 1 none 0)
      ∧ ({ listening with air.counter := 1591 } : State).isDue (.joinSlotEnd 1 .nothing)
      ∧ ({ outcomes with handler.timer := 4096 } : State).isDue .outcomesReadyTimeout
      ∧ ({ State.reset with line.rateDue := [.r57600] } : State).isDue .lineRateChange
      ∧ shop.isDue (.cellBeaconInstant 1 .afterStart) := by
  refine ⟨rfl, rfl, .inl ⟨_, _, rfl, rfl, by decide, rfl⟩, ?_, ?_, ?_, .inr (.inr (.inr (.inl ⟨rfl, by decide⟩))), ?_⟩
  · exact .inr (.inr (.inr (.inr (.inr (.inr (.inr (.inl ⟨1, _, rfl, rfl, .inl ⟨rfl, by decide +kernel⟩⟩)))))))
  · exact .inr (.inr (.inr (.inr (.inr (.inr (.inr (.inl ⟨1, _, rfl, rfl, .inl ⟨rfl, by decide +kernel⟩⟩)))))))
  · exact .inr (.inr (.inr (.inr (.inr (.inr (.inl ⟨rfl, by decide, rfl, by decide, by decide⟩))))))
  · exact .inr (.inr (.inr (.inr (.inr (.inr (.inr (.inr ⟨1, rfl, by decide +kernel, by decide, rfl⟩)))))))

theorem witness_SupplyRule_unpowered :
    ({ shop with powered := false } : State).powered = false ∧ ∀ heads, Instr.beaconStart ≠ .powerOn heads := by
  constructor
  · rfl
  · intro heads h; cases h

theorem witness_SupplyRule_saving :
    shop.powered = true ∧ ∃ num copied, ({ shop with handler.task := .saving 9 floor } : State).handler.task = .saving num copied :=
  ⟨rfl, 9, floor, rfl⟩

theorem witness_SupplyRule_not_saving : shop.powered = true ∧ ∀ num copied, shop.handler.task ≠ .saving num copied :=
  ⟨rfl, fun _ _ h => (nomatch h)⟩

theorem witness_BadRequestsAnswered_kind :
    Ready State.reset ∧ knownKind 0x00 = false ∧ knownKind 0x1B = false := ⟨reset_ready, by decide, by decide⟩

theorem witness_BadRequestsAnswered_length :
    Ready State.reset ∧ knownKind 0x01 = true ∧ knownKind 0x1A = true ∧ ¬ lengthRight 0x01 [0] ∧ ¬ lengthRight 0x1A [0] :=
  ⟨reset_ready, by decide, by decide, by simp [lengthRight], by simp [lengthRight]⟩

theorem witness_RequestTakenOrWaits_room :
    (waiting 15).powered = true ∧ (∃ g rest, (waiting 15).line.inbound = g :: rest ∧ (g.kind, g.num, g.payload) ≠ (2, 0, []))
      ∧ (waiting 15).line.inbound.length < 16 := ⟨rfl, ⟨⟨1, 0, 0, []⟩, _, rfl, by decide⟩, by decide⟩

theorem witness_RequestTakenOrWaits_hold :
    (∃ g rest, (waiting 11).line.inbound = g :: rest ∧ (g.kind, g.num, g.payload) ≠ (2, 0, []))
      ∧ (waiting 11).line.inbound.length = 11 ∧ (waiting 11).line.flow = .flowOpen := ⟨⟨⟨1, 0, 0, []⟩, _, rfl, by decide⟩, rfl, rfl⟩

theorem witness_RequestTakenOrWaits_full :
    (∃ g rest, (waiting 16).line.inbound = g :: rest ∧ (g.kind, g.num, g.payload) ≠ (2, 0, []))
      ∧ 16 ≤ (waiting 16).line.inbound.length := ⟨⟨⟨1, 0, 0, []⟩, _, rfl, by decide⟩, by decide⟩

theorem witness_RequestTakenOrWaits_busy :
    ({ shop with handler.task := .saving 9 floor } : State).handler.task ≠ .idle ∧ shop.line.inbound = []
      ∧ 8 ≤ (List.replicate 8 (⟨0x82, 0, 0, []⟩ : Frame)).length
      ∧ (∃ g rest, (waiting 1).line.inbound = g :: rest ∧ (g.kind, g.num, g.payload) = (1, 0, [])) :=
  ⟨fun h => (nomatch h), rfl, by decide, _, _, rfl, rfl⟩

/-- A STATUS request taken with 4 frames behind it, and a SET-CLOCK request with 4 behind it while HOLD has been sent. -/
theorem witness_RequestTakenOrWaits_taken :
    (waiting 5).handler.task = .idle ∧ (waiting 5).line.outbound.length < 8
      ∧ (∃ g rest, (waiting 5).line.inbound = g :: rest ∧ (g.kind, g.num, g.payload) = (1, 0, []) ∧ rest.length = 4)
      ∧ ∃ g rest, ({ waiting 4 with
            line.inbound := ⟨2, 7, 0, le 4 5⟩ :: (waiting 4).line.inbound, line.flow := .held } : State).line.inbound = g :: rest
          ∧ (g.kind, g.num, g.payload) = (2, 7, le 4 5) ∧ rest.length = 4 ∧ g.kind ≠ 0x01 :=
  ⟨rfl, by decide, ⟨_, _, rfl, rfl, rfl⟩, _, _, rfl, rfl, rfl, by decide⟩

theorem witness_FrameReceivedByteByByte :
    shop.powered = true ∧ shop.line.rx = .hunt ∧ shop.line.partials = [] ∧ (⟨2, 7, 0, le 4 5⟩ : Frame).payload.length ≤ 1097
      ∧ (waiting 16).line.rx = .hunt ∧ (waiting 16).line.partials = [] ∧ ¬ (waiting 16).line.inbound.length < 16 := by
  decide +kernel

theorem witness_ReceiverDiscards_hunt :
    State.reset.powered = true ∧ State.reset.line.rx = .hunt ∧ State.reset.line.partials = [] ∧ (0x00 : Byte) ≠ 0xC3 := by decide

theorem witness_ReceiverDiscards_in_frame :
    ({ State.reset with line.rx := .body } : State).powered = true ∧ ({ State.reset with line.rx := .body } : State).line.rx ≠ .hunt := by
  decide

theorem witness_ReceiverDiscards_lengths : (2 : BitVec 16).toNat < 3 ∧ 1100 < (1101 : BitVec 16).toNat := by decide

theorem witness_ReceiverDiscards_check :
    ([0, 0] : List Byte) ≠ le 2 (crc16 (le 2 3 ++ [1, 0, 0])).toNat := by decide +kernel

theorem witness_RequestAgreesWithItsBytes :
    requestOf (.status 7 []) = some ⟨0x01, 7, 0, []⟩ ∧ (Instr.status 7 []).wellFormed = true ∧ shop.powered = true
      ∧ shop.line.rx = .hunt ∧ shop.line.partials = [] ∧ shop.line.inbound = []
      ∧ (waiting 16).line.rx = .hunt ∧ (waiting 16).line.partials = []
      ∧ ∃ g rest, (waiting 16).line.inbound = g :: rest ∧ (g.kind, g.num, g.payload) ≠ (0x01, 7, []) :=
  ⟨rfl, by decide, rfl, rfl, rfl, rfl, rfl, rfl, _, _, rfl, by decide⟩

theorem witness_LineBreakRule :
    shop.powered = true ∧ (∀ k, shop.handler.task ≠ .resetting k)
      ∧ ({ shop with handler.task := .resetting .warm } : State).handler.task = .resetting .warm :=
  ⟨rfl, fun _ h => (nomatch h), rfl⟩

/-- A part with a flow-control byte due or not, its position free or not, and one frame in the outbound queue. -/
def sending (flow : Flow) (free : Bool) : State := { State.reset with
  line.flow := flow, line.flowFree := free, line.outbound := [⟨0x82, 7, 0, []⟩] }

/-- A rate change due, with the frame behind its reply waiting, and a reset due. -/
theorem witness_SendingRule_changes :
    ({ sending .holdDue true with line.rateDue := [.r57600] } : State).lineChanges
      ∧ ({ sending .goDue true with handler.task := .resetting .warm } : State).lineChanges
      ∧ ¬ (sending .holdDue true).lineChanges ∧ ¬ (sending .goDue true).lineChanges ∧ ¬ (sending .holdDue false).lineChanges := by
  simp [State.lineChanges, okReplies, sending, State.reset]

theorem witness_SendingRule :
    (sending .holdDue true).powered = true ∧ (sending .holdDue true).line.flow = .holdDue ∧ (sending .holdDue true).line.flowFree = true
      ∧ (sending .holdDue false).line.flowFree = false ∧ (sending .held false).line.flow ≠ .goDue
      ∧ (sending .goDue true).line.flow = .goDue ∧ (sending .goDue true).line.owesByte ∧ State.reset.line.outbound = []
      ∧ ∃ f rest, (sending .holdDue false).line.outbound = f :: rest
          ∧ ¬ ((sending .holdDue false).line.owesByte ∧ (sending .holdDue false).line.flowFree = true) :=
  ⟨rfl, rfl, rfl, rfl, by decide, rfl, .inr rfl, rfl, _, _, rfl, fun h => (nomatch h.2)⟩

theorem witness_SetLineRule_request :
    Ready shop ∧ (∀ r : LineRate, (9600 : BitVec 32).toNat ≠ r.value) := ⟨shop_ready, fun r => by cases r <;> decide⟩

theorem witness_SetLineRule_change :
    let s : State := { shop with line.rateDue := [.r57600] }
    s.powered = true ∧ s.line.rateDue = .r57600 :: []
      ∧ s.line.outbound.countP (fun f => decide (f.kind = 0x89 ∧ f.status = 0x00)) ≤ ([] : List LineRate).length
      ∧ shop.line.rateDue = [] := ⟨rfl, rfl, by decide, rfl⟩

theorem witness_SetLineRule_reply_sent :
    let s : State := { shop with
      line.rateDue := [.r57600], line.outbound := [⟨0x82, 6, 0, []⟩, ⟨0x89, 7, 0, le 4 57600⟩, ⟨0x82, 8, 0, []⟩] }
    ([] : List LineRate).length < s.line.outbound.countP (fun f => decide (f.kind = 0x89 ∧ f.status = 0x00))
      ∧ ∃ before f later, s.line.outbound = before ++ f :: later ∧ f.okReplyTo 0x09 ∧ ∀ g ∈ before, ¬ g.okReplyTo 0x09 := by
  refine ⟨by decide, [⟨0x82, 6, 0, []⟩], ⟨0x89, 7, 0, le 4 57600⟩, [⟨0x82, 8, 0, []⟩], rfl, ⟨rfl, rfl⟩, ?_⟩
  unfold Frame.okReplyTo
  decide

/-- A part with some notices waiting. -/
def noticing (n : NoticeSet) : State := { State.reset with handler.notices := n }

theorem witness_NoticesMoveInOrder_event :
    (noticing ⟨some 0x008, true, ⟨none, none, none, none⟩, true⟩).powered = true
      ∧ (noticing ⟨some 0x008, true, ⟨none, none, none, none⟩, true⟩).line.outbound.length
        + (noticing ⟨some 0x008, true, ⟨none, none, none, none⟩, true⟩).handler.task.claimed ≤ 6
      ∧ (noticing ⟨some 0x008, true, ⟨none, none, none, none⟩, true⟩).handler.notices.event = some 0x008 := by decide

theorem witness_NoticesMoveInOrder_done :
    (noticing ⟨none, true, ⟨none, some Campaign.freeEntry, none, none⟩, true⟩).handler.notices.event = none
      ∧ (noticing ⟨none, true, ⟨none, some Campaign.freeEntry, none, none⟩, true⟩).handler.notices.campaignDone.get 1
        = some Campaign.freeEntry
      ∧ ∀ j, j < 1 → (noticing ⟨none, true, ⟨none, some Campaign.freeEntry, none, none⟩, true⟩).handler.notices.campaignDone.get j
        = none := by decide

theorem witness_NoticesMoveInOrder_others :
    (noticing ⟨none, true, ⟨none, none, none, none⟩, true⟩).handler.notices.outcomesReady = true
      ∧ (noticing ⟨none, false, ⟨none, none, none, none⟩, true⟩).handler.notices.strangers = true
      ∧ (∀ i, (noticing ⟨none, true, ⟨none, none, none, none⟩, true⟩).handler.notices.campaignDone.get i = none)
      ∧ 6 < ({ State.reset with line.outbound := List.replicate 7 ⟨0x82, 0, 0, []⟩ } : State).line.outbound.length
        + ({ State.reset with line.outbound := List.replicate 7 ⟨0x82, 0, 0, []⟩ } : State).handler.task.claimed := by decide

/-- A flag clear under the mask, one clear outside it, and one set. -/
theorem witness_FlagRequestsRule_causes :
    let s : State := { State.reset with store.working.enableMask := 0x002 }
    s.handler.flags.getLsbD Flag.frameDropped.number = false ∧ s.store.working.enableMask.getLsbD Flag.frameDropped.number = true
      ∧ s.store.working.enableMask.getLsbD Flag.staleCut.number = false
      ∧ s.handler.flags.getLsbD Flag.settingsDefaulted.number = true := by decide

theorem witness_FlagRequestsRule :
    Ready (noticing ⟨some 0x008, false, ⟨none, none, none, none⟩, false⟩)
      ∧ (noticing ⟨some 0x008, false, ⟨none, none, none, none⟩, false⟩).handler.notices.event = some 0x008
      ∧ State.reset.handler.notices.event = none ∧ Ready outcomes ∧ outcomes.handler.latch = .armed
      ∧ max 1 (min (2 : Byte).toNat 64) ≤ outcomes.table.outcomes.length :=
  ⟨⟨rfl, rfl, rfl, by decide⟩, rfl, rfl, outcomes_ready, rfl, by decide⟩

theorem witness_StatusReportsState :
    Ready shop ∧ shop.dir.entries.length ≤ 16384 ∧ shop.dir.strangers.length ≤ 16 ∧ shop.table.records.length ≤ 4096
      ∧ shop.table.retire.length ≤ 4096 ∧ shop.table.outcomes.length ≤ 1024 ∧ shop.pool.free ≤ 32768
      ∧ shop.store.working.outcomeTrigger ≤ 64 :=
  ⟨shop_ready, by decide +kernel, by decide +kernel, by decide +kernel, by decide +kernel, by decide +kernel, by decide +kernel,
    by decide +kernel⟩

theorem witness_ConfigGetRule : Ready shop := shop_ready

/-- Each of the five tests fails in turn for the busy part: no item 0; a period of 511; a new site code; a new period; and cell 1
at offset 300 beside cell 0. Item 14, the miss limit, given as 5 passes them all. -/
theorem witness_ConfigSetWholeOrNothing :
    Ready shop ∧ [((14 : Byte), (5 : BitVec 32))].length ≤ 219 ∧ ¬ 1 ≤ (0 : Byte).toNat
      ∧ ¬ 512 ≤ (511 : BitVec 32).toNat
      ∧ BitVec.ofNat 16 (0x4321 : BitVec 32).toNat ≠ shop.store.working.siteCode ∧ shop.dir.entries ≠ []
      ∧ (4096 : BitVec 32).toNat ≠ shop.store.working.period ∧ (shop.campaigns.get 0).state = .opened
      ∧ (floor.withItems [(4, le 4 0x012C0001)]).fits = false
      ∧ configRefusal [(14, le 4 5)] (floor.withItems [(14, le 4 5)]) shop = none :=
  ⟨shop_ready, by decide, by decide, by decide, by decide +kernel, by decide, by decide +kernel, rfl, by decide +kernel,
    by decide +kernel⟩

theorem witness_SaveSettingsRule :
    Ready shop ∧ ({ shop with handler.task := .saving 9 floor } : State).powered = true
      ∧ ({ shop with handler.task := .saving 9 floor } : State).handler.task = .saving 9 floor := ⟨shop_ready, rfl, rfl⟩

theorem witness_RoundTrips :
    floor.Legal ∧ report57.Sendable ∧ ({ report57 with nextBlock := 32, staged := ⟨0, .nil⟩ } : Report).Sendable :=
  ⟨floor_legal, by unfold Report.Sendable; decide, by unfold Report.Sendable; decide⟩

theorem witness_SetModeRule :
    Ready State.reset ∧ State.reset.store.working.siteCode = 0 ∧ Ready shop ∧ shop.store.working.siteCode ≠ 0
      ∧ (∃ c, (shop.store.working.cells.get c).enabled = true) :=
  ⟨reset_ready, rfl, shop_ready, by decide, 0, rfl⟩

theorem witness_SetModeRule_no_cells :
    ∀ c, (({ floor with cells := ⟨⟨false, 0, 0⟩, ⟨false, 0, 0⟩, ⟨false, 0, 0⟩, ⟨false, 0, 0⟩⟩ } : Settings).cells.get c).enabled = false := by
  decide

theorem witness_ResetRule :
    Ready shop ∧ (0 : Byte) ≠ 1 ∧ (0 : Byte) ≠ 2 ∧ ({ shop with handler.task := .resetting .cold } : State).powered = true
      ∧ ({ shop with handler.task := .resetting .cold } : State).handler.task = .resetting .cold
      ∧ ∀ c : Cell, ({ shop with handler.task := .resetting .cold } : State).cells.heads.get c = (0x3 : BitVec 4).getLsbD c.val :=
  ⟨shop_ready, by decide, by decide, rfl, rfl, by decide⟩

/-- With the RESET reply sent, and with it still behind another frame. -/
theorem witness_ResetWarmRule :
    let s : State := { shop with handler.task := .resetting .warm }
    let u : State := { s with line.outbound := [⟨0x82, 6, 0, []⟩, ⟨0x88, 7, 0, [2]⟩] }
    s.powered = true ∧ s.handler.task = .resetting .warm ∧ (s.dir.entries.map (·.addr)).Nodup
      ∧ (∀ f ∈ s.line.outbound, ¬ f.okReplyTo 0x08)
      ∧ ∃ before f later, u.line.outbound = before ++ f :: later ∧ f.okReplyTo 0x08 ∧ ∀ g ∈ before, ¬ g.okReplyTo 0x08 := by
  refine ⟨rfl, rfl, by decide, ?_, [⟨0x82, 6, 0, []⟩], ⟨0x88, 7, 0, [2]⟩, [], rfl, ⟨rfl, rfl⟩, ?_⟩ <;> unfold Frame.okReplyTo <;>
    decide

theorem witness_SupplyRule_start :
    (({ shop with powered := false } : State).powered = false) ∧ (∀ num copied, shop.handler.task ≠ .saving num copied)
      ∧ floor.Legal ∧ ({ shop with store.stored := .written floor.storedBytes } : State).store.stored = .written floor.storedBytes
      ∧ shop.store.stored = .unwritten := ⟨rfl, fun _ _ h => (nomatch h), floor_legal, rfl, rfl⟩

theorem witness_SetClockRule : Ready shop := shop_ready

theorem witness_SetBeaconRule :
    Ready State.reset ∧ State.reset.table.records = [] ∧ (∀ i, (State.reset.campaigns.get i).state = .free)
      ∧ (∀ e ∈ State.reset.dir.entries, ∀ u, e.boostEnd = some u → isAfter u State.reset.air.beacon = false)
      ∧ Ready shop ∧ shop.table.records ≠ [] := ⟨reset_ready, rfl, by decide, by simp [State.reset], shop_ready, by decide +kernel⟩

theorem witness_BeaconStartRule_plain :
    shop.powered = true ∧ shop.air.preset = none
      ∧ ∀ i a, (shop.campaigns.get i).state = .opened → (shop.campaigns.get i).activation = some a →
        a.beacon ≠ shop.air.beacon + 1 := by
  refine ⟨rfl, rfl, ?_⟩
  intro i a h ha
  fin_cases i <;> simp [shop, Quad.get, Campaign.freeEntry] at h ha <;> subst ha <;> decide

theorem witness_BeaconStartRule_preset :
    ({ State.reset with air.preset := some 5 } : State).air.preset = some 5
      ∧ ¬ (({ State.reset with air.preset := some 5 } : State).table.records ≠ []
        ∨ (∃ i, (({ State.reset with air.preset := some 5 } : State).campaigns.get i).state ≠ .free)
        ∨ ∃ e ∈ ({ State.reset with air.preset := some 5 } : State).dir.entries, ∃ u, e.boostEnd = some u
          ∧ isAfter u ({ State.reset with air.preset := some 5 } : State).air.beacon = true) := by
  refine ⟨rfl, ?_⟩
  rintro (h | ⟨i, h⟩ | ⟨e, h, -⟩)
  · exact h rfl
  · revert h; revert i; decide
  · cases h

theorem witness_CutRule :
    let s : State := { shop with air.beacon := 56549 }
    s.powered = true ∧ CampaignLaw s ∧ TableLaw s ∧ (s.campaigns.get 0).state = .opened
      ∧ (s.campaigns.get 0).activation = some ⟨108000, 56550, .apply⟩ ∧ (56550 : Beacon) = s.air.beacon + 1
      ∧ (∃ r ∈ s.table.records, r.campaign = some 0 ∧ r.state = .queued)
      ∧ (∃ r ∈ s.table.records, r.campaign = some 0 ∧ r.state = .withdrawing) ∧ (∀ r ∈ s.table.records, r.displaced = none)
      ∧ DirectoryLaw s ∧ LiveLaw s ∧ (s.campaigns.get 1).state = .opened ∧ (s.campaigns.get 1).activation = some ⟨108900, 57000, .drop⟩
      ∧ ∃ r ∈ s.table.records, r.campaign = some 1 ∧ s.cutPolicy r = none :=
  ⟨rfl, shop_campaignLaw, shop_tableLaw, rfl, rfl, by decide, by decide +kernel, by decide +kernel, by decide +kernel,
    shop_directoryLaw, shop_liveLaw, rfl, rfl, by decide +kernel⟩

/-- The same part with campaign 1 under DROP: a WITHDRAWING record, of an unfiled tag with a flash order, admitted before a QUEUED one
that holds a displaced version, of a filed and boosted tag; a STAGED one of an unfiled tag, and a VERIFYING one. The last record
of campaign 2, which is CUT, waits in the retire queue. -/
def dropping : State := { shop with
  air.beacon := 56549
  dir.entries := [entry 57 0x0A317C45 3 96 1200 (some 1305), entry 77 0x65 5 120 400 none,
    { entry 212 0x0D 3 120 300 (some 1290) with flash := true }, entry 641 0x15 4 170 900 (some 1301),
    entry 905 0x28 0 60 12 (some 1299)]
  campaigns.c0 := { Campaign.freeEntry with state := .opened, activation := some ⟨108000, 56550, .drop⟩, admitted := 4, live := 4 }
  campaigns.c1 := { Campaign.freeEntry with state := .cut, activation := some ⟨106000, 55550, .drop⟩, admitted := 1 }
  table.records := [change 1290 9392 212 0x0D (some 0) 4 .withdrawing,
    { change 1305 9402 57 0x0A317C45 (some 0) 22 .queued with displaced := some 1300 },
    change 1301 9401 641 0x15 (some 0) 10 .staged, change 1299 9400 905 0x28 (some 0) 1 .verifying,
    { change 1260 9390 330 0x03 (some 1) 3 .finished with outcome := some .applied, finalBeacon := some 55560 }]
  table.retire := [1260]
  planner.calendar.c1 := [⟨57, 56557⟩, ⟨77, 56581⟩, ⟨905, 56550⟩]
  planner.boosts.c1 := [⟨57, 56560, true⟩] }

/-- A preset pending at the cut, the accounts in order, and nothing left to finish: an OPEN campaign whose one record is WITHDRAWING. -/
theorem witness_CutRule_done :
    let s : State := { shop with
      air.beacon := 56549, air.preset := some 12
      table.records := [change 1290 9392 212 0x0D (some 0) 4 .withdrawing]
      campaigns := ⟨{ Campaign.freeEntry with state := .opened, activation := some ⟨108000, 56550, .apply⟩, admitted := 1, live := 1 },
        Campaign.freeEntry, Campaign.freeEntry, Campaign.freeEntry⟩ }
    s.air.preset = some 12 ∧ TableLaw s ∧ CampaignLaw s ∧ (s.campaigns.get 0).state = .opened
      ∧ ((after .beaconStart s).campaigns.get 0).state = .done
      ∧ (after .beaconStart s).air.preset = none :=
  ⟨rfl, by unfold TableLaw; decide +kernel, by unfold CampaignLaw; decide +kernel, rfl, by decide +kernel,
    by decide +kernel⟩

theorem witness_CutRule_drop :
    dropping.powered = true ∧ dropping.air.preset = none ∧ TableLaw dropping ∧ (dropping.campaigns.get 0).state = .opened
      ∧ (dropping.campaigns.get 0).activation = some ⟨108000, 56550, .drop⟩ ∧ (56550 : Beacon) = dropping.air.beacon + 1
      ∧ (∃ q ∈ dropping.table.records, ∃ r ∈ dropping.table.records, q.state = .withdrawing ∧ r.state = .queued
        ∧ r.displaced.isSome = true
        ∧ (dropping.table.nextSequence - r.sequence).toNat < (dropping.table.nextSequence - q.sequence).toNat)
      ∧ (∃ r ∈ dropping.table.records, r.state = .staged) ∧ ∃ r ∈ dropping.table.records, r.state = .verifying :=
  ⟨rfl, rfl, by unfold TableLaw; decide +kernel, rfl, rfl, by decide, by decide +kernel, by decide +kernel, by decide +kernel⟩

/-- The tags of that part: one whose record ends and that is filed, one that is unfiled with a flash order, and one whose STAGED
record turns, unfiled; and a record of another, CUT campaign that passes. -/
theorem witness_CutRule_told :
    DirectoryLaw dropping ∧ LiveLaw dropping ∧ CampaignLaw dropping
      ∧ (dropping.recordOf 1305).map dropping.endsAtCut = some true ∧ (dropping.recordOf 1290).map dropping.endsAtCut = some true
      ∧ (dropping.recordOf 1301).bind dropping.cutPolicy = some .drop
      ∧ (∃ y ∈ dropping.planner.calendar.get 1, y.addr = 57)
      ∧ (∀ d, ∀ y ∈ dropping.planner.calendar.get d, y.addr ≠ 212 ∧ y.addr ≠ 641)
      ∧ (dropping.entryAt 212).map (·.flash) = some true ∧ (dropping.entryAt 641).map (·.home) = some (some 1)
      ∧ (dropping.campaigns.get 1).state = .cut
      ∧ (∃ o ∈ (after .beaconStart dropping).table.outcomes, o.campaign = some 1) :=
  ⟨by unfold DirectoryLaw; decide +kernel, by simp [LiveLaw, dropping, entry, change], by unfold CampaignLaw; decide +kernel,
    by decide +kernel, by decide +kernel, by decide +kernel, by decide +kernel, by decide +kernel, by decide +kernel, by decide +kernel, rfl,
    by decide +kernel⟩

theorem witness_EnrolRule :
    Ready shop ∧ (0x99 : TagId) ≠ 0 ∧ (0x99 : TagId) ≠ 0xFFFFFFFF ∧ (¬ ∃ e ∈ shop.dir.entries, e.tagId = 0x99)
      ∧ (∃ e ∈ shop.dir.entries, e.tagId = 0x65) ∧ (∀ e ∈ shop.dir.entries, e.addr ≠ 0)
      ∧ ∀ p, p < 0 → ∃ e ∈ shop.dir.entries, e.addr = p :=
  ⟨shop_ready, by decide, by decide, by decide +kernel, by decide +kernel, by decide +kernel, fun _ h => absurd h (by omega)⟩

/-- A part whose directory holds every position. -/
def fullDirectory : State := { State.reset with
  dir.entries := (List.range 16384).map fun a => entry a (BitVec.ofNat 32 (a + 1)) 0 0 0 none }

theorem witness_EnrolRule_full :
    Ready fullDirectory ∧ (¬ ∃ e ∈ fullDirectory.dir.entries, e.tagId = 0x99999)
      ∧ ∀ p, p < 16384 → ∃ e ∈ fullDirectory.dir.entries, e.addr = p := by
  refine ⟨⟨by simp only [fullDirectory, State.reset], by simp only [fullDirectory, State.reset],
    by simp only [fullDirectory, State.reset], by simp only [fullDirectory, State.reset]; decide⟩, ?_, ?_⟩
  · simp only [fullDirectory]
    rintro ⟨e, he, h⟩
    obtain ⟨a, ha, rfl⟩ := List.mem_map.mp he
    have ha := List.mem_range.mp ha
    simp only [entry] at h
    bv_omega
  · simp only [fullDirectory]
    intro p hp
    exact ⟨_, List.mem_map.mpr ⟨p, List.mem_range.mpr hp, rfl⟩, rfl⟩

theorem witness_RemoveRule :
    Ready shop ∧ shop.entryOf 0x99 = none
      ∧ (∃ e, shop.entryOf 0x65 = some e ∧ shop.liveRecord e = none)
      ∧ (∃ e r, shop.entryOf 0x28 = some e ∧ shop.liveRecord e = some r ∧ r.state = .queued)
      ∧ ∃ e r, shop.entryOf 0x0D = some e ∧ shop.liveRecord e = some r ∧ r.state ≠ .queued :=
  ⟨shop_ready, by decide +kernel, ⟨_, rfl, rfl⟩, ⟨_, _, rfl, rfl, rfl⟩, _, _, rfl, rfl, by decide⟩

theorem witness_OrderRule_neither : Ready shop ∧ 1 < (2 : Byte).toNat := ⟨shop_ready, by decide⟩

/-- Table 7-2: a filed tag with work, an unfiled one, one without work, and one not PRESENT. -/
theorem witness_OrderRule_table_7_2 :
    let unfiled : State := { shop with planner.calendar := ⟨[], [], [], []⟩ }
    (∃ e, shop.entryAt 77 = some e ∧ e.state = .present ∧ e.flash = true) ∧ (⟨77, 56485⟩ : CalendarEntry) ∈ shop.planner.calendar.get 1
      ∧ (∃ e, unfiled.entryAt 77 = some e ∧ e.home = some 1) ∧ (∀ d, unfiled.planner.calendar.get d = [])
      ∧ (∃ e, ({ shop with dir.entries := [{ entry 77 0x65 5 120 400 none with flash := false }] } : State).entryAt 77 = some e
        ∧ e.commanded = none ∧ e.flash = false ∧ e.live = none)
      ∧ (∃ e, ({ shop with dir.entries := [{ entry 77 0x65 5 120 400 none with state := .lost }] } : State).entryAt 77 = some e
        ∧ e.state ≠ .present) ∧ shop.entryAt 5 = none :=
  ⟨⟨_, rfl, rfl, rfl⟩, by decide, ⟨_, rfl, rfl⟩, by decide, ⟨_, rfl, rfl, rfl, rfl⟩, ⟨_, rfl, by decide⟩, by decide +kernel⟩

theorem witness_OrderRule :
    Ready shop ∧ (∃ e, shop.entryOf 0x65 = some e ∧ e.flash = true) ∧ (∃ e, shop.entryOf 0x0A317C45 = some e ∧ e.flash = false)
      ∧ shop.entryOf 0x99 = none ∧ (shop.dir.entries.map (·.addr)).Nodup :=
  ⟨shop_ready, ⟨_, rfl, rfl⟩, ⟨_, rfl, rfl⟩, by decide +kernel, by decide +kernel⟩

theorem witness_SetAllowanceRule : Ready shop ∧ (∃ e, shop.entryOf 0x65 = some e) ∧ shop.entryOf 0x99 = none :=
  ⟨shop_ready, ⟨_, rfl⟩, by decide +kernel⟩

theorem witness_QueriesChangeNothing :
    Ready shop ∧ OneFiling shop ∧ (∃ e, shop.entryOf 0x65 = some e) ∧ shop.entryOf 0x99 = none
      ∧ (∃ i : CampaignIndex, (4 : Byte).toNat = i.val + 1) ∧ 4 < (5 : Byte).toNat ∧ (∃ r, shop.recordOf 1305 = some r)
      ∧ shop.recordOf 9 = none :=
  ⟨shop_ready, shop_oneFiling, ⟨_, rfl⟩, by decide +kernel, ⟨3, rfl⟩, by decide, ⟨_, rfl⟩, by decide +kernel⟩

theorem witness_ListStrangersRule : Ready { shop with dir.strangers := [⟨0x77, 2, 300, 4⟩] } := ⟨rfl, rfl, rfl, by decide⟩

theorem witness_RefreshRule : shop.powered = true ∧ shop.air.clockSet = true ∧ State.reset.air.clockSet = false ∧ Ready shop :=
  ⟨rfl, rfl, rfl, shop_ready⟩

theorem witness_OpenCampaignRule :
    Ready evening ∧ (evening.campaigns.get 0).state = .free ∧ evening.air.clockSet = true ∧ 0 < evening.store.working.period
      ∧ evening.air.startTick < (1024 * (108000 : BitVec 32).toNat : Int)
      ∧ evening.air.startTick < (1024 * (8466009 : BitVec 32).toNat : Int) :=
  ⟨evening_ready, rfl, rfl, by decide, by decide +kernel, by decide +kernel⟩

theorem witness_OpenCampaignRule_refused :
    4 < (5 : Byte).toNat ∧ (1 : Byte).toNat = (0 : CampaignIndex).val + 1 ∧ 1 < (2 : Byte).toNat ∧ Ready shop
      ∧ (shop.campaigns.get 0).state ≠ .free ∧ Ready State.reset ∧ (State.reset.campaigns.get 0).state = .free
      ∧ State.reset.air.clockSet = false ∧ (1024 * (77400 : BitVec 32).toNat : Int) ≤ evening.air.startTick :=
  ⟨by decide, rfl, by decide, shop_ready, by decide, reset_ready, rfl, rfl, by decide +kernel⟩

theorem witness_ReleaseCampaignRule :
    Ready shop ∧ (∃ i : CampaignIndex, (4 : Byte).toNat = i.val + 1 ∧ (shop.campaigns.get i).state ≠ .done)
      ∧ (({ shop with campaigns.c3.state := .done } : State).campaigns.get 3).state = .done ∧ 4 < (5 : Byte).toNat :=
  ⟨shop_ready, ⟨3, rfl, by decide⟩, rfl, by decide⟩

theorem witness_ActivationKept :
    ∃ t, step shopQueued = .next t ∧ (shopQueued.campaigns.get 0).state = .opened ∧ (t.campaigns.get 0).state ≠ .free :=
  ⟨after (.cellBeaconInstant 1 .afterStart) shop, rfl, rfl, by decide +kernel⟩

theorem witness_PostChangeAdmits :
    Ready shop ∧ TableLaw shop
      ∧ (∃ e, shop.entryOf 0x65 = some e ∧ shop.entryAt e.addr = some e ∧ shop.liveRecord e = none ∧ pageCapacity e.pageClass = 1024)
      ∧ (∀ i, (some 0 : Option CampaignIndex) = some i → (shop.campaigns.get i).state = .opened)
      ∧ (∃ final, imageResult coffee = .ok final ∧ final.bytes.length ≤ 1024 ∧ (final.bytes.length + 31) / 32 ≤ shop.pool.free)
      ∧ shop.table.records.length < 4096 := by
  refine ⟨shop_ready, shop_tableLaw, ⟨_, rfl, rfl, rfl, rfl⟩, ?_, ⟨_, rfl, by decide +kernel, by decide +kernel⟩, by decide +kernel⟩
  intro i h
  cases h
  rfl

/-- A QUEUED change superseded in its campaign while the pool is empty but for the superseded record's blocks; and a STAGED
one. -/
theorem witness_PostChangeAdmits_supersedes :
    let s : State := { shop with pool.free := 0 }
    Ready s ∧ TableLaw s
      ∧ (∃ e r, s.entryOf 0x0A317C45 = some e ∧ s.entryAt e.addr = some e ∧ s.liveRecord e = some r ∧ r.campaign = some 0
        ∧ r.state = .queued ∧ s.pool.heldBy r.serial = 22)
      ∧ ∃ e r, ({ s with table.records := [change 1305 9402 57 0x0A317C45 (some 0) 22 .staged] } : State).liveRecord e = some r
        ∧ r.state = .staged :=
  ⟨⟨rfl, rfl, rfl, by decide⟩, shop_tableLaw, ⟨_, _, rfl, rfl, rfl, rfl, rfl, rfl⟩, entry 57 0x0A317C45 3 96 1200 (some 1305), _, rfl, rfl⟩

theorem witness_PostChangeRefusedWhole : Ready shop ∧ lengthRight 0x17 (le 4 0x99 ++ [0, 0] ++ le 2 0) :=
  ⟨shop_ready, by show 8 ≤ _ ∧ _; decide⟩

/-- What each of the seven tests of R66 refuses: a tag not held; a campaign 5 and campaign 3, FREE; an image without PRICE; an
image of 148 bytes for a page of 128; tag 212's change of campaign 1, WITHDRAWING, named outside its campaign and in it; a
table of 4,096 records; and an empty pool. -/
theorem witness_PostChangeRefusedWhole_tests :
    let s : State := { shop with pool.free := 0 }
    let texts : List Byte := [1, 0, 4, 0] ++ [1, 0, 6, 0, 16, 0] ++ le 4 349 ++ [2, 1]
      ++ [5, 0, 60, 0, 82, 0] ++ List.replicate 60 0x41 ++ [5, 0, 60, 0, 0, 0] ++ List.replicate 60 0x42
    let full : State := { shop with table.records := List.replicate 4096 (change 9 0 57 0x99 none 1 .finished) }
    Ready s ∧ coffee.length ≤ 1089 ∧ s.entryOf 0x99 = none ∧ (∃ e, s.entryOf 0x65 = some e ∧ s.liveRecord e = none)
      ∧ 4 < (5 : Byte).toNat ∧ (3 : Byte).toNat = (2 : CampaignIndex).val + 1 ∧ (s.campaigns.get 2).state ≠ .opened
      ∧ (∃ fault, imageResult (overwrite 4 [5] coffee) = .error fault)
      ∧ (∃ final, imageResult coffee = .ok final ∧ s.pool.free < (final.bytes.length + 31) / 32)
      ∧ (match imageResult texts with | .ok final => decide (pageCapacity 0 < final.bytes.length) | .error _ => false) = true
      ∧ (∃ e r, s.entryOf 0x0D = some e ∧ s.liveRecord e = some r ∧ r.campaign ≠ none ∧ r.campaign = some 0
        ∧ r.state = .withdrawing ∧ (s.campaigns.get 0).state = .opened)
      ∧ ¬ full.table.records.length < 4096 := by
  refine ⟨⟨rfl, rfl, rfl, by decide⟩, by decide, by decide +kernel, ⟨_, rfl, rfl⟩, by decide, rfl, by decide, ⟨_, rfl⟩,
    ⟨_, rfl, by decide +kernel⟩, by decide +kernel, ⟨_, _, rfl, rfl, by decide, rfl, rfl, rfl⟩, ?_⟩
  simp only [List.length_replicate]
  omega

/-- The walk of the coffee image: its five fields, which pass their tests, an OLD_PRICE above the PRICE and a UNIT_BASIS. -/
theorem coffee_walk : Walk coffee [4, 16, 28, 41] 68 := by
  have h0 : firstFailing coffee [] 4 = none := by decide +kernel
  have h1 : firstFailing coffee [4] 16 = none := by decide +kernel
  have h2 : firstFailing coffee [4, 16] 28 = none := by decide +kernel
  have h3 : firstFailing coffee [4, 16, 28] 41 = none := by decide +kernel
  exact .next (.next (.next (.next .start h0 (by decide +kernel)) h1 (by decide +kernel)) h2 (by decide +kernel)) h3 (by decide +kernel)

theorem witness_ImageCheckerRule :
    badHeader [] ∧ badHeader (overwrite 2 [6, 0] coffee) ∧ ¬ badHeader coffee ∧ Walk coffee [4, 16, 28, 41] 68
      ∧ firstFailing coffee [4, 16, 28, 41] 68 = none ∧ nextField coffee 68 = 0 ∧ fieldType coffee 4 = 1 ∧ fieldType coffee 16 = 2
      ∧ priceRaised coffee 16 4 ∧ fieldType coffee 28 = 3 ∧ (∀ u ∈ [4, 16, 41, 68], fieldType coffee u ≠ 3) :=
  ⟨by unfold badHeader; decide, by unfold badHeader; decide +kernel, by unfold badHeader; decide +kernel, coffee_walk,
    by decide +kernel, by decide +kernel, by decide +kernel, by decide +kernel, by unfold priceRaised; decide +kernel, by decide +kernel,
    by decide +kernel⟩

/-- A first field at fault; a walk that ends without a PRICE; one with an OLD_PRICE below the PRICE; and one with a PRICE alone. -/
theorem witness_ImageCheckerRule_faults :
    let code : List Byte := [1, 0, 4, 0, 6, 0, 1, 0, 0, 0, 0x41]
    let price : List Byte := [1, 0, 4, 0, 1, 0, 6, 0, 0, 0] ++ le 4 349 ++ [2, 1]
    firstFailing (overwrite 4 [4] coffee) [] 4 = some .unitPricePosted ∧ ¬ badHeader (overwrite 4 [4] coffee)
      ∧ firstFailing code [] 4 = none ∧ nextField code 4 = 0 ∧ fieldType code 4 ≠ 1 ∧ ¬ badHeader code
      ∧ ¬ priceRaised (overwrite 22 (le 4 349) coffee) 16 4 ∧ firstFailing price [] 4 = none ∧ nextField price 4 = 0
      ∧ fieldType price 4 = 1 ∧ ¬ badHeader price := by
  refine ⟨by decide +kernel, ?_, by decide +kernel, by decide +kernel, by decide +kernel, ?_, ?_, by decide +kernel, by decide +kernel,
    by decide +kernel, ?_⟩ <;> first | unfold badHeader; decide +kernel | unfold priceRaised; decide +kernel

theorem witness_CancelChangeRule :
    Ready shop ∧ TableLaw shop ∧ shop.recordOf 9 = none ∧ (∃ r, shop.recordOf 1305 = some r ∧ r.state = .queued)
      ∧ (∃ r, shop.recordOf 1260 = some r ∧ r.state = .sending) ∧ ∃ r, shop.recordOf 1290 = some r ∧ r.state = .withdrawing :=
  ⟨shop_ready, shop_tableLaw, by decide +kernel, ⟨_, rfl, rfl⟩, ⟨_, rfl, rfl⟩, _, rfl, rfl⟩

theorem witness_CancelChangeRule_others :
    (∃ r, ({ shop with table.records := [change 5 0 57 1 (some 0) 1 .staged] } : State).recordOf 5 = some r ∧ r.state = .staged)
      ∧ (∃ r, ({ shop with table.records := [change 5 0 57 1 (some 0) 1 .verifying] } : State).recordOf 5 = some r ∧ r.state = .verifying)
      ∧ ∃ r, ({ shop with table.records := [change 5 0 57 1 (some 0) 1 .finished] } : State).recordOf 5 = some r ∧ r.state = .finished :=
  ⟨⟨_, rfl, rfl⟩, ⟨_, rfl, rfl⟩, _, rfl, rfl⟩

theorem witness_OutcomesRule :
    outcomes.powered = true ∧ outcomes.handler.latch = .armed ∧ outcomes.table.outcomes ≠ []
      ∧ outcomes.table.outcomes.length < outcomes.store.working.outcomeTrigger ∧ Ready outcomes ∧ outcomes.table.retire = []
      ∧ outcomes.table.outcomes.length ≤ 1024 ∧ (∃ o, (outcomes.table.outcomes.take 16)[1]? = some o ∧ o.late = true)
      ∧ Ready { outcomes with
          table.retire := [1299]
          table.records := [{ change 1299 9400 905 0x28 none 1 .finished with outcome := some .applied, finalBeacon := some 7 }] } :=
  ⟨rfl, rfl, by decide, by decide, outcomes_ready, rfl, by decide, ⟨_, rfl, rfl⟩, rfl, rfl, rfl, by decide⟩

/-- A CUT campaign whose last record waits in the retire queue. -/
theorem witness_OutcomesRule_completes :
    let c : Campaign := { Campaign.freeEntry with state := .cut, activation := some ⟨108000, 7, .apply⟩, admitted := 1 }
    let s : State := { outcomes with
      campaigns.c0 := c
      table.retire := [1299]
      table.records := [{ change 1299 9400 905 0x28 (some 0) 1 .finished with outcome := some .applied, finalBeacon := some 7 }] }
    Ready s ∧ (s.campaigns.get 0).state = .cut ∧ (∃ o, (s.recordOf 1299).bind Change.outcomeRecord = some o ∧ o.campaign = some 0)
      ∧ c.admitted = (c.tallies.bump .applied).sum ∧ ((after (.fetchOutcomes 1 []) s).campaigns.get 0).state = .done :=
  ⟨⟨rfl, rfl, rfl, by decide⟩, rfl, ⟨_, rfl, rfl⟩, by decide +kernel, by decide +kernel⟩

theorem witness_HeadRule :
    called57.powered = true ∧ called57.cells.heads.get 1 = true ∧ (∃ w, called57.cells.windows.get 1 = some w)
      ∧ called57.cells.heads.get 0 = true ∧ called57.cells.windows.get 0 = none := ⟨rfl, rfl, ⟨_, rfl⟩, rfl, rfl⟩

theorem witness_InstantRule :
    shop.powered = true ∧ shop.planner.last.get 0 ≠ shop.air.beacon ∧ shop.cells.windows.get 0 = none
      ∧ (∀ x ∈ shop.planner.calendar.get 0, x.due.toNat % 128 ≠ shop.air.beacon.toNat % 128)
      ∧ ((shop.air.geometry.cells.get 0).enabled = true ∧ shop.cells.heads.get 0 = true ∧ shop.store.mode ≠ .quiet)
      ∧ shop.dir.grants.get 0 = []
      ∧ ¬ ((shop.air.geometry.cells.get 2).enabled = true ∧ shop.cells.heads.get 2 = true ∧ shop.store.mode ≠ .quiet) := by
  decide +kernel

theorem witness_InstantRule_grant :
    ∃ g rest e, ({ shop with dir.grants.c0 := [⟨0x65, 77⟩] } : State).dir.grants.get 0 = g :: rest
      ∧ ({ shop with dir.grants.c0 := [⟨0x65, 77⟩] } : State).entryAt g.addr = some e := ⟨_, _, _, rfl, rfl⟩

theorem witness_InstantRule_before_start :
    shop.powered = true ∧ (shop.store.working.cells.get 0).offset = 0 ∧ shop.air.preset = none
      ∧ (shop.store.working.cells.get 1).offset ≠ 0 := by decide +kernel

theorem witness_CallsWithinMeans :
    shop.powered = true ∧ DirectoryLaw shop ∧ OneFiling shop ∧ shop.planner.last.get 1 ≠ shop.air.beacon
      ∧ shop.cells.windows.get 1 = none
      ∧ ((shop.air.geometry.cells.get 1).enabled && shop.cells.heads.get 1 && decide (shop.store.mode ≠ .quiet)) = true
      ∧ ((shop.air.geometry.cells.get 2).enabled && shop.cells.heads.get 2 && decide (shop.store.mode ≠ .quiet)) = false :=
  ⟨rfl, shop_directoryLaw, shop_oneFiling, by decide, rfl, by decide, by decide⟩

theorem witness_CallsWithinMeans_grant :
    let s : State := { shop with dir.grants.c1 := [⟨0x65, 77⟩] }
    DirectoryLaw s ∧ OneFiling s ∧ ∃ g rest e, s.dir.grants.get 1 = g :: rest ∧ s.entryAt g.addr = some e :=
  ⟨shop_directoryLaw, shop_oneFiling, _, _, _, rfl, rfl⟩

theorem witness_SnapshotRule :
    DirectoryLaw shop ∧ OneFiling shop ∧ TableLaw shop
      ∧ exec (.cellBeaconInstant 1 .afterStart) shop = .next (after (.cellBeaconInstant 1 .afterStart) shop)
      ∧ shop.cells.windows.get 1 = none
      ∧ ((after (.cellBeaconInstant 1 .afterStart) shop).cells.windows.get 1).isSome = true :=
  ⟨shop_directoryLaw, shop_oneFiling, shop_tableLaw, rfl, rfl, by decide +kernel⟩

/-- The windows of `called57` once tag 57's slot has ended. -/
def windows57 : Quad (Option Window) := listening.cells.windows

theorem called57_next (s : State) (h : s.cells.windows = called57.cells.windows) : NextSlot s 1 snapshot57 windows57 :=
  ⟨_, [], _, [], by rw [h]; rfl, rfl, by simp, by rw [h]; rfl⟩

theorem witness_SlotEndRule :
    called57.powered = true ∧ NextSlot called57 1 snapshot57 windows57
      ∧ (∃ e, called57.entryAt snapshot57.addr = some e ∧ e.tagId = snapshot57.tagId
        ∧ e.misses + 1 < called57.store.working.missLimit)
      ∧ report57.tagId = snapshot57.tagId ∧ snapshot57.cell = 1 ∧ report57.Sendable
      ∧ ∀ r, decodeReport (reportFrame { report57 with tagId := 0x65 }) = some r → r.tagId ≠ snapshot57.tagId := by
  refine ⟨rfl, called57_next _ rfl, ⟨_, rfl, rfl, by decide⟩, rfl, rfl, by unfold Report.Sendable; decide, ?_⟩
  have h : decodeReport (reportFrame { report57 with tagId := 0x65 }) = some { report57 with tagId := 0x65 } := by decide +kernel
  rintro r hr
  cases h.symm.trans hr
  decide

/-- A filing in R122's boost case, and one in its class case beside a boost that has ended and one that is not confirmed. -/
theorem witness_SlotEndRule_filing :
    let boosted := fun (u : Beacon) (c : Bool) => ({ called57 with planner.boosts := ⟨[], [⟨57, u, c⟩], [], []⟩ } : State)
    (∀ s, s = boosted 56549 true → ((s.planner.boosts.get 1).filter fun x => decide (x.addr = 57) && x.confirmed) = [⟨57, 56549, true⟩]
        ∧ ((56549 : Beacon) - (s.planner.last.get 1 + 1)).toNat < 8388608)
      ∧ ((boosted 56549 false).planner.boosts.get 1).filter (fun x => decide (x.addr = 57) && x.confirmed) = []
      ∧ 8388608 ≤ ((56485 : Beacon) - ((boosted 56485 true).planner.last.get 1 + 1)).toNat := by
  refine ⟨?_, by decide, by decide⟩
  rintro s rfl
  decide

/-- An entry not PRESENT, and a boost end that is neither before the window's beacon nor at or after it. -/
theorem witness_SlotEndRule_others :
    (∃ e, ({ called57 with dir.entries := [{ entry 57 0x0A317C45 3 96 1178 (some 1305) with state := .lost }] } : State).entryAt 57
        = some e ∧ e.tagId = snapshot57.tagId ∧ e.state ≠ .present)
      ∧ ((snapshot57.beacon + 8388608) - snapshot57.beacon).toNat = 8388608
      ∧ ({ report57 with boostEnd := some (snapshot57.beacon + 8388608) } : Report).Sendable :=
  ⟨⟨_, rfl, rfl, by decide⟩, by decide, by unfold Report.Sendable; decide⟩

theorem witness_SlotEndRule_gone :
    ∀ e ∈ ({ called57 with dir.entries := [] } : State).dir.entries, e.addr = snapshot57.addr → e.tagId ≠ snapshot57.tagId := by
  decide

/-- `called57` with its change in state `st`, `failures` corrupt deliveries before. -/
def calledIn (st : ChangeState) (failures : Nat) : State := { called57 with
  table.records := [{ change 1305 9402 57 0x0A317C45 (some 0) 22 st with failures := failures, calls := 1, spent := 22 }] }

theorem called57_directoryLaw : DirectoryLaw called57 := by unfold DirectoryLaw; decide +kernel

theorem called57_oneFiling : OneFiling called57 := by unfold OneFiling; decide +kernel

theorem calledIn_laws (st : ChangeState) (failures : Nat) (h : st ≠ .finished) :
    TableLaw (calledIn st failures) ∧ LiveLaw (calledIn st failures) := by
  cases st <;> first
    | exact absurd rfl h
    | exact ⟨⟨by simp [calledIn], by simp [calledIn], by simp [calledIn, change]⟩, by
        simp [LiveLaw, calledIn, called57, entry, change]⟩

theorem witness_SlotEndRule_laws : DirectoryLaw called57 ∧ TableLaw called57 ∧ LiveLaw called57 :=
  ⟨called57_directoryLaw, calledIn_laws .sending 0 (by decide)⟩

/-- A filed tag without an order whose change is cancelled, and an unfiled one with a flash order. -/
theorem witness_CancelChangeRule_told :
    let e := entry 57 0x0A317C45 3 96 1178 (some 1305)
    let s : State := { calledIn .sending 0 with dir.entries := [{ e with flash := true }], planner.boosts := ⟨[], [], [], []⟩ }
    (shop.entryAt 57).map (·.flash) = some false ∧ (∃ y ∈ shop.planner.calendar.get 1, y.addr = 57)
      ∧ DirectoryLaw shop ∧ LiveLaw shop ∧ Ready s ∧ TableLaw s ∧ DirectoryLaw s ∧ LiveLaw s
      ∧ s.entryAt 57 = some { e with flash := true } ∧ e.state = .present ∧ e.home = some 1
      ∧ ∀ d, ∀ y ∈ s.planner.calendar.get d, y.addr ≠ 57 :=
  ⟨by decide +kernel, by decide +kernel, shop_directoryLaw, shop_liveLaw, ⟨rfl, rfl, rfl, by decide⟩,
    (calledIn_laws .sending 0 (by decide)).1, by unfold DirectoryLaw; decide +kernel,
    by simp [LiveLaw, calledIn, called57, entry, change], rfl, rfl, rfl, by decide +kernel⟩

theorem witness_ReportMovesChange (st : ChangeState) (failures : Nat) (h : st ≠ .finished) :
    (calledIn st failures).powered = true ∧ NextSlot (calledIn st failures) 1 snapshot57 windows57
      ∧ DirectoryLaw (calledIn st failures) ∧ TableLaw (calledIn st failures) ∧ LiveLaw (calledIn st failures)
      ∧ (∃ e q, (calledIn st failures).entryAt snapshot57.addr = some e ∧ e.tagId = snapshot57.tagId ∧ snapshot57.serial ≠ 0
        ∧ e.live = some snapshot57.serial ∧ (calledIn st failures).recordOf snapshot57.serial = some q ∧ q.state = st
        ∧ q.failures = failures) :=
  ⟨rfl, called57_next _ rfl, called57_directoryLaw, (calledIn_laws st failures h).1, (calledIn_laws st failures h).2,
    _, _, rfl, rfl, by decide, rfl, rfl, rfl, rfl⟩

/-- Reports that show the serial, and that have it staged COMPLETE, PARTIAL and BAD, or another; and a slot that named no change. -/
theorem witness_ReportMovesChange_reports :
    ({ report57 with shown := 1305 } : Report).Sendable
      ∧ (∀ x ∈ [Condition.complete, .partly, .bad], ({ report57 with staged := ⟨1305, x⟩ } : Report).Sendable)
      ∧ ({ report57 with staged := ⟨1306, .complete⟩ } : Report).Sendable
      ∧ NextSlot { called57 with cells.windows := ⟨none,
          some ⟨56485, .day, [], none, [⟨{ snapshot57 with serial := 0 }, slotDownlink snapshot57, false⟩]⟩, none, none⟩ }
        1 { snapshot57 with serial := 0 } ⟨none,
          some ⟨56485, .day, [], none, [⟨{ snapshot57 with serial := 0 }, slotDownlink snapshot57, true⟩]⟩, none, none⟩ := by
  refine ⟨?_, ?_, ?_, _, [], _, [], rfl, rfl, by simp, rfl⟩ <;> unfold Report.Sendable <;> decide

theorem witness_BoostAtSlotEnd :
    NextSlot called57 1 snapshot57 windows57 ∧ DirectoryLaw called57 ∧ TableLaw called57 ∧ LiveLaw called57 ∧ OneFiling called57
      ∧ (∃ e, called57.entryAt snapshot57.addr = some e ∧ e.tagId = snapshot57.tagId
        ∧ e.misses + 1 < called57.store.working.missLimit)
      ∧ report57.tagId = snapshot57.tagId ∧ report57.Sendable
      ∧ snapshot57.boostOrder.isSome = true ∧ report57.boostEnd = snapshot57.boostOrder
      ∧ ({ report57 with boostEnd := none } : Report).Sendable
      ∧ (⟨57, 56549, false⟩ : BoostEntry) ∈ called57.planner.boosts.get 1 :=
  ⟨called57_next _ rfl, called57_directoryLaw, (calledIn_laws .sending 0 (by decide)).1, (calledIn_laws .sending 0 (by decide)).2,
    called57_oneFiling, ⟨_, rfl, rfl, by decide⟩, rfl, by unfold Report.Sendable; decide, rfl, rfl,
    by unfold Report.Sendable; decide, by decide⟩

/-- A later slot without the order, while the boost is confirmed. -/
theorem witness_BoostAtSlotEnd_later :
    let p := { snapshot57 with boostOrder := none }
    let s : State := { called57 with
      planner.boosts := ⟨[], [⟨57, 56549, true⟩], [], []⟩
      cells.windows := ⟨none, some ⟨56485, .day, [], none, [⟨p, slotDownlink p, false⟩]⟩, none, none⟩ }
    NextSlot s 1 p ⟨none, some ⟨56485, .day, [], none, [⟨p, slotDownlink p, true⟩]⟩, none, none⟩ ∧ OneFiling s
      ∧ p.boostOrder = none ∧ (⟨57, 56549, true⟩ : BoostEntry) ∈ s.planner.boosts.get 1 :=
  ⟨⟨_, [], _, [], rfl, rfl, by simp, rfl⟩, by unfold OneFiling; decide +kernel, rfl, by decide⟩

theorem witness_LostRule (st : ChangeState) (h : st ≠ .finished) :
    let s : State := { calledIn st 0 with dir.entries := [{ entry 57 0x0A317C45 3 96 1178 (some 1305) with misses := 5 }] }
    s.powered = true ∧ NextSlot s 1 snapshot57 windows57 ∧ DirectoryLaw s ∧ TableLaw s ∧ LiveLaw s
      ∧ ∃ e r, s.entryAt snapshot57.addr = some e ∧ e.tagId = snapshot57.tagId ∧ e.state = .present
        ∧ s.store.working.missLimit ≤ e.misses + 1 ∧ s.liveRecord e = some r ∧ r.state = st := by
  refine ⟨rfl, called57_next _ rfl, by simp [DirectoryLaw, entry], (calledIn_laws st 0 h).1, ?_,
    _, _, rfl, rfl, rfl, Nat.le_refl 6, rfl, rfl⟩
  cases st <;> first
    | exact absurd rfl h
    | simp [LiveLaw, calledIn, called57, entry, change]

theorem listening_directoryLaw : DirectoryLaw listening := called57_directoryLaw

theorem witness_JoinSlotEndRule :
    listening.powered = true ∧ DirectoryLaw listening
      ∧ listening.cells.windows.get 1 = some ⟨56485, .day, [], none, [⟨snapshot57, slotDownlink snapshot57, true⟩]⟩
      ∧ (∀ x ∈ [(⟨snapshot57, slotDownlink snapshot57, true⟩ : Slot)], x.ended = true)
      ∧ decodeJoin [] = none ∧ (0x88 : TagId) ≠ 0 ∧ (0x88 : TagId) ≠ 0xFFFFFFFF ∧ listening.entryOf 0x88 = none
      ∧ (listening.dir.strangers.filter fun x => decide (x.tagId ≠ 0x88)) = listening.dir.strangers :=
  ⟨rfl, listening_directoryLaw, rfl, by simp, by decide +kernel, by decide, by decide, by decide +kernel, rfl⟩

/-- A full stranger list that knows the tag, and one that does not. -/
theorem witness_JoinSlotEndRule_strangers :
    let s : State := { listening with dir.strangers := (List.range 16).map fun i => ⟨BitVec.ofNat 32 (0x88 + i), 1, 56400, 255⟩ }
    (∃ x, s.dir.strangers.find? (fun x => decide (x.tagId = 0x88)) = some x ∧ x.joins = 255)
      ∧ (s.dir.strangers.filter fun x => decide (x.tagId ≠ 0x87)) = s.dir.strangers ∧ ¬ s.dir.strangers.length < 16
      ∧ s.entryOf 0x88 = none ∧ s.entryOf 0x87 = none :=
  ⟨⟨_, rfl, rfl⟩, by decide +kernel, by decide, by decide +kernel, by decide +kernel⟩

/-- Tag 57 at home, and handed off from cell 0 with its boost; its grant waiting, and four others waiting. -/
theorem witness_JoinSlotEndRule_enrolled :
    let away : State := { listening with
      dir.entries := [{ entry 57 0x0A317C45 3 96 1178 (some 1305) with home := some 0 }]
      planner.boosts := ⟨[⟨57, 56549, true⟩], [], [], []⟩ }
    (∃ e, listening.entryOf 0x0A317C45 = some e ∧ e.home = some 1 ∧ e.state = .present)
      ∧ (¬ ∃ g ∈ listening.dir.grants.get 1, g.tagId = 0x0A317C45) ∧ (listening.dir.grants.get 1).length < 4
      ∧ DirectoryLaw away ∧ (∃ e, away.entryOf 0x0A317C45 = some e ∧ away.boostOf e.addr = some (0, ⟨57, 56549, true⟩))
      ∧ (∃ g ∈ ({ listening with dir.grants.c1 := [⟨0x0A317C45, 57⟩] } : State).dir.grants.get 1, g.tagId = 0x0A317C45)
      ∧ 4 ≤ (({ listening with dir.grants.c1 := List.replicate 4 ⟨0x65, 77⟩ } : State).dir.grants.get 1).length :=
  ⟨⟨_, rfl, rfl, rfl⟩, by decide, by decide, by unfold DirectoryLaw; decide +kernel, ⟨_, rfl, rfl⟩, by decide, by decide⟩

/-- A tag not heard before, with a flash order pending, and a LOST one without work. -/
theorem witness_JoinSlotEndRule_first :
    (∃ e, ({ listening with dir.entries := [{ entry 57 0x88 3 0 100 none with state := .unseen, home := none }] } : State).entryOf 0x88
        = some e ∧ e.state = .unseen ∧ e.flash = true)
      ∧ ∃ e, ({ listening with
          dir.entries := [{ entry 57 0x88 3 0 100 none with state := .lost, flash := false }] } : State).entryOf 0x88 = some e
        ∧ e.state = .lost ∧ e.flash = false ∧ e.live = none := ⟨⟨_, rfl, rfl, rfl⟩, _, rfl, rfl, rfl, rfl⟩

theorem witness_ChargeLawKept : ChargeLaw shopQueued ∧ SettingsLaw shopQueued ∧ ∃ t, step shopQueued = .next t :=
  ⟨shop_chargeLaw, shop_settingsLaw, _, rfl⟩

theorem witness_DirectoryLawKept : DirectoryLaw shopQueued ∧ ∃ t, step shopQueued = .next t := ⟨shop_directoryLaw, _, rfl⟩

theorem witness_QueueBoundsKept : QueueBounds shopQueued ∧ ∃ t, step shopQueued = .next t := ⟨shop_queueBounds, _, rfl⟩

theorem witness_PoolLawKept :
    PoolLaw shopQueued ∧ TableLaw shopQueued ∧ HoldingLaw shopQueued ∧ ∃ t, step shopQueued = .next t :=
  ⟨shop_poolLaw, shop_tableLaw, shop_holdingLaw, _, rfl⟩

theorem witness_OneFilingKept :
    OneFiling shopQueued ∧ DirectoryLaw shopQueued ∧ TableLaw shopQueued ∧ LiveLaw shopQueued ∧ FilingLaw shopQueued
      ∧ ∃ t, step shopQueued = .next t :=
  ⟨shop_oneFiling, shop_directoryLaw, shop_tableLaw, shop_liveLaw, shop_filingLaw, _, rfl⟩

theorem witness_AccountsKept :
    TableLaw shopQueued ∧ CampaignLaw shopQueued ∧ DirectoryLaw shopQueued ∧ LiveLaw shopQueued ∧ LiveCountLaw shopQueued
      ∧ ∃ t, step shopQueued = .next t :=
  ⟨shop_tableLaw, shop_campaignLaw, shop_directoryLaw, shop_liveLaw, shop_liveCountLaw, _, rfl⟩

theorem witness_LiveLawKept :
    DirectoryLaw shopQueued ∧ TableLaw shopQueued ∧ LiveLaw shopQueued ∧ ∃ t, step shopQueued = .next t :=
  ⟨shop_directoryLaw, shop_tableLaw, shop_liveLaw, _, rfl⟩

theorem witness_SettingsLawKept : SettingsLaw shopQueued ∧ SiteLaw shopQueued ∧ ∃ t, step shopQueued = .next t :=
  ⟨shop_settingsLaw, shop_siteLaw, _, rfl⟩

end Sys2Proof.Tests
end

section
/-! The air schedule: SET-CLOCK (R8). -/

namespace Sys2Proof.Machine

/-- A request of the right length reaches its block at once where the part is ready (R169, R186). -/
theorem request_ofLength_ready {s : State} (h : Ready s) (kind num : Byte) {n : Nat} {payload : List Byte}
    (hl : payload.length = n) (act : State → Answer) :
    request kind num payload (ofLength n payload act) s = answerWith kind num (act s) := by
  rw [request_ready h, ofLength_right n payload act s hl]

theorem leNat_le_toNat {w : Nat} (n : Nat) (v : BitVec w) (hw : w ≤ 8 * n) : leNat (le n v.toNat) = v.toNat := by
  apply leNat_le
  calc v.toNat < 2 ^ w := v.isLt
    _ ≤ 2 ^ (8 * n) := Nat.pow_le_pow_right (by norm_num) hw
    _ = 256 ^ n := by rw [pow_mul]; norm_num

theorem exec_setClock (num : Byte) (payload : List Byte) (s : State) :
    exec (.setClock num payload) s = .next (request 0x02 num payload (ofLength 4 payload (actSetClock payload)) s) := rfl

/-- The site seconds arrive as they were written, so the clock takes them with a fraction of 0 (R8, R185). -/
theorem actSetClock_le (seconds : BitVec 32) (s : State) :
    actSetClock (le 4 seconds.toNat) s
      = okWith [] { s with air.clock := BitVec.ofNat 42 (1024 * seconds.toNat), air.clockSet := true } := by
  rw [actSetClock, leNat_le_toNat 4 seconds (by norm_num), clockOfSeconds]

/-- Settles O23: the ready part takes the request at once, the clock reads the four bytes back as the seconds, and placing the
reply touches the outbound queue alone. -/
theorem setClockRule : Obligations.SetClockRule := by
  intro num seconds s ready
  rw [exec_setClock, request_ofLength_ready ready 0x02 num (le_length 4 _), actSetClock_le, answerWith_okWith]
  rfl

end Sys2Proof.Machine
end

section
/-! Shelf images: a final image in blocks (R53). -/

namespace Sys2Proof.Machine

/-- The blocks of any image have room for all of it. -/
theorem le_blockCountOf (n : Nat) : n ≤ 32 * blockCountOf n := by
  unfold blockCountOf; omega

theorem padTo_length {n : Nat} {bs : List Byte} (h : bs.length ≤ n) : (padTo n bs).length = n := by
  simp [padTo, h]

@[simp] theorem cutBlocks_length (n : Nat) (bs : List Byte) : (cutBlocks n bs).length = n := by
  induction n generalizing bs with
  | zero => rfl
  | succ n ih => simp [cutBlocks, ih]

/-- Block `j` starts at byte `32 * j`. -/
theorem cutBlocks_getElem? {n j : Nat} (h : j < n) (bs : List Byte) :
    (cutBlocks n bs)[j]? = some ((bs.drop (32 * j)).take 32) := by
  induction n generalizing j bs with
  | zero => omega
  | succ n ih =>
    cases j with
    | zero => simp [cutBlocks]
    | succ j => simp [cutBlocks, ih (Nat.lt_of_succ_lt_succ h), Nat.mul_succ, Nat.add_comm]

theorem cutBlocks_flatten (n : Nat) (bs : List Byte) : (cutBlocks n bs).flatten = bs.take (32 * n) := by
  induction n generalizing bs with
  | zero => simp [cutBlocks]
  | succ n ih => rw [cutBlocks, List.flatten_cons, ih, Nat.mul_succ, Nat.add_comm, List.take_add]

/-- Where the bytes reach to the end of the last block, no block is short. -/
theorem length_of_mem_cutBlocks {n : Nat} {bs b : List Byte} (hbs : 32 * n ≤ bs.length) (hb : b ∈ cutBlocks n bs) :
    b.length = 32 := by
  obtain ⟨j, hj⟩ := List.mem_iff_getElem?.mp hb
  have hjn : j < n := by simpa using (List.getElem?_eq_some_iff.mp hj).1
  have hcut : (bs.drop (32 * j)).take 32 = b := Option.some.inj ((cutBlocks_getElem? hjn bs).symm.trans hj)
  rw [← hcut, List.length_take, List.length_drop]
  omega

/-- Settles O39: an image is padded to the full length of its blocks, so that cutting it up leaves no block short and no byte
out. -/
theorem blocksHoldImage : Obligations.BlocksHoldImage := by
  intro img n
  have hpad : (padTo (32 * n) img).length = 32 * n := padTo_length (le_blockCountOf img.length)
  refine ⟨cutBlocks_length n _, fun b => length_of_mem_cutBlocks hpad.ge, ?flatten,
    fun j hj => cutBlocks_getElem? hj _, ?count⟩
  case flatten =>
    calc (blocksOfImage img).flatten
      _ = (padTo (32 * n) img).take (32 * n) := cutBlocks_flatten n _
      _ = padTo (32 * n) img := List.take_of_length_le hpad.le
  case count => omega

end Sys2Proof.Machine
end

section
/-! Settings: CONFIG-GET (R178). -/

namespace Sys2Proof.Machine

/-- A cell item's four bytes: enable, channel group, offset (R186). -/
theorem cellSetting_value_eq (c : CellSetting) :
    c.value = [if c.enabled then (1 : Byte) else 0] ++ le 1 c.group ++ le 2 c.offset := rfl

/-- The twenty items written out in item-number order (R179). -/
theorem itemBytes_eq (w : Settings) :
    w.itemBytes = le 4 w.siteCode.toNat ++ le 4 w.period
      ++ w.cells.c0.value ++ w.cells.c1.value ++ w.cells.c2.value ++ w.cells.c3.value
      ++ le 4 w.capacityNight ++ le 4 w.capacityDay ++ le 4 w.callCost ++ le 4 w.blockCost ++ le 4 w.reportCost
      ++ le 4 w.boostWakeCost ++ le 4 w.defaultAllowance ++ le 4 w.missLimit ++ le 4 w.guardBeacons ++ le 4 w.span
      ++ le 4 w.refreshTime ++ le 4 w.outcomeTrigger ++ le 4 w.enableMask.toNat ++ le 4 w.lineRate.value := by
  have numbers : List.range 20 = [0, 1, 2, 3, 4, 5, 6, 7, 8, 9, 10, 11, 12, 13, 14, 15, 16, 17, 18, 19] := rfl
  simp only [Settings.itemBytes, numbers, List.flatMap_cons, List.flatMap_nil, Settings.itemValue, List.append_assoc,
    List.append_nil]

theorem exec_configGet (num : Byte) (payload : List Byte) (s : State) :
    exec (.configGet num payload) s = .next (request 0x06 num payload (ofLength 0 payload fun s =>
      okWith (s.store.working.itemBytes ++ [boolByte s.store.unsaved, boolByte s.store.defaultsUsed]) s) s) := rfl

/-- Settles O15: the ready part takes the request at once, its answer is the items followed by the two indications, and placing
the reply touches the outbound queue alone. -/
theorem configGetRule : Obligations.ConfigGetRule := by
  intro num s ready w cell
  rw [exec_configGet, request_ofLength_ready ready 0x06 num List.length_nil, answerWith_okWith, itemBytes_eq,
    List.append_cons]
  simp only [cellSetting_value_eq]
  rfl

end Sys2Proof.Machine
end

section
/-! Acts: what a step can do to the work of the part (the directory, the pool, the records and outcomes, the campaigns, the
calendars and boost lists), cut into acts that every law survives one by one. A step is a run of acts (`step_run`); an
invariant of the work is then proved act by act. -/

namespace Sys2Proof.Machine

/-- The work is as it was: nothing the laws of the work speak of has changed. -/
structure SameWork (s t : State) : Prop where
  dir       : t.dir = s.dir
  pool      : t.pool = s.pool
  records   : t.table.records = s.table.records
  outcomes  : t.table.outcomes = s.table.outcomes
  campaigns : t.campaigns = s.campaigns
  calendar  : t.planner.calendar = s.planner.calendar
  boosts    : t.planner.boosts = s.planner.boosts

theorem SameWork.refl (s : State) : SameWork s s := ⟨rfl, rfl, rfl, rfl, rfl, rfl, rfl⟩

theorem SameWork.trans {s t u : State} (h : SameWork s t) (k : SameWork t u) : SameWork s u :=
  ⟨k.dir.trans h.dir, k.pool.trans h.pool, k.records.trans h.records, k.outcomes.trans h.outcomes,
    k.campaigns.trans h.campaigns, k.calendar.trans h.calendar, k.boosts.trans h.boosts⟩

/-- The charge law of R107 for one entry. -/
def Entry.Charged (e : Entry) : Prop := e.remaining ≤ e.effective ∧ e.effective ≤ e.allowance ∧ e.allowance ≤ 65535

/-- A change of an entry that keeps its place, its tag, its live change, and its charge law. -/
structure EntryEdit (f : Entry → Entry) : Prop where
  addr    : ∀ e, (f e).addr = e.addr
  tagId   : ∀ e, (f e).tagId = e.tagId
  live    : ∀ e, (f e).live = e.live
  charged : ∀ e, e.Charged → (f e).Charged

/-- What progress on a change record leaves of it. -/
structure Change.Alike (r q : Change) : Prop where
  serial     : q.serial = r.serial
  addr       : q.addr = r.addr
  tagId      : q.tagId = r.tagId
  campaign   : q.campaign = r.campaign
  blockCount : q.blockCount = r.blockCount
  outcome    : q.outcome = r.outcome
  acked      : r.acked ≤ r.blockCount → q.acked ≤ q.blockCount
  finished   : q.state = .finished ↔ r.state = .finished

/-- A record as it stands when it has finished with a code at beacon `b` (R81, step 1). -/
def Change.closed (code : OutcomeCode) (b : Beacon) (r : Change) : Change :=
  { r with state := .finished, outcome := some code, finalBeacon := some b }

/-- The record of serial `k` FINISHED and its blocks released (R81, steps 1 and 2). -/
def closeRecord (k : Serial) (code : OutcomeCode) (s : State) : State :=
  { updRecord k (Change.closed code s.air.beacon) s with pool := s.pool.release k }

/-- The record `r` of serial `k` ended (R81, steps 1, 2 and 5): closed, and its campaign with one live record fewer. -/
def endRecord (k : Serial) (code : OutcomeCode) (r : Change) (s : State) : State :=
  updCampaign r.campaign (fun c => { c with live := c.live - 1 }) (closeRecord k code s)

/-- An admission's effects on table, pool, entry and campaign (R69, steps 2 to 5). -/
def appendRecord (a : Nat) (new : Change) (blocks : List (List Byte)) (s : State) : State :=
  updCampaign new.campaign (fun c => { c with admitted := c.admitted + 1, live := c.live + 1 })
    (updEntry a (fun e => { e with live := some new.serial })
      { s with table.records := s.table.records ++ [new], pool := s.pool.take new.serial blocks })

/-- The directory, the change table and the live changes are in order. -/
structure Orderly (s : State) : Prop where
  directory : DirectoryLaw s
  table     : TableLaw s
  live      : LiveLaw s

/-- What an admission knows of its new record when it appends it (R66 to R69); `s0` is the state in which the step began. -/
structure Appendable (s0 : State) (a : Nat) (new : Change) (blocks : List (List Byte)) (s : State) : Prop where
  room     : TableLaw s0 → s.table.records.length < 4096
  fresh    : TableLaw s0 → ∀ r ∈ s.table.records, r.serial ≠ new.serial
  nonzero  : TableLaw s0 → new.serial ≠ 0
  acked    : new.acked = 0
  count    : new.blockCount = blocks.length
  few      : blocks.length ≤ 32
  outcome  : new.outcome = none
  state    : new.state = .queued
  free     : blocks.length ≤ s.pool.free
  opened   : ∀ i, new.campaign = some i → (s.campaigns.get i).state = .opened
  addr     : new.addr = a
  entry    : ∃ e ∈ s.dir.entries, e.addr = a ∧ e.tagId = new.tagId
  idle     : Orderly s0 → ∀ e ∈ s.dir.entries, e.addr = a → e.live = none

/-- A cell collection of lists that have no address, or no tag id, twice. -/
def Distinct {α β : Type} (f : α → β) (q : Quad (List α)) : Prop := (q.toList.flatten.map f).Nodup

/-- The bounds of the grant queues (R38). -/
def GrantBounds (q : Quad (List Grant)) : Prop := (∀ c, (q.get c).length ≤ 4) ∧ Distinct (·.tagId) q

/-- The bounds of the stranger list (R40). -/
def StrangerBounds (l : List Stranger) : Prop := l.length ≤ 16 ∧ (l.map (·.tagId)).Nodup

/-- One act of a step that began in `s0`. -/
inductive Act (s0 s : State) : State → Prop
  /-- Nothing of the work changes. -/
  | frame {t : State} (h : SameWork s t) : Act s0 s t
  /-- Entries are changed in place. -/
  | edit (f : Entry → Entry) (hf : EntryEdit f) : Act s0 s { s with dir.entries := s.dir.entries.map f }
  /-- A tag is enrolled at a free position (R25). -/
  | enrol (e : Entry) (free : ∀ x ∈ s.dir.entries, x.addr ≠ e.addr) (bound : e.addr < 16384)
      (new : ∀ x ∈ s.dir.entries, x.tagId ≠ e.tagId) (live : e.live = none)
      (charge : s0.store.working.defaultAllowance ≤ 65535 → e.Charged) : Act s0 s (placeEntry e s)
  /-- An entry without a live change is deleted (R26). -/
  | delete (a : Nat) (idle : Orderly s0 → ∀ x ∈ s.dir.entries, x.addr = a → x.live = none) :
      Act s0 s { s with dir.entries := s.dir.entries.filter fun x => decide (x.addr ≠ a) }
  /-- The grant queues change within their bounds. -/
  | grants (q : Quad (List Grant)) (h : GrantBounds s.dir.grants → GrantBounds q) : Act s0 s { s with dir.grants := q }
  /-- The stranger list changes within its bounds. -/
  | strangers (l : List Stranger) (h : StrangerBounds s.dir.strangers → StrangerBounds l) :
      Act s0 s { s with dir.strangers := l }
  /-- The calendars change, no tag filed twice. -/
  | calendar (q : Quad (List CalendarEntry)) (h : Distinct (·.addr) s.planner.calendar → Distinct (·.addr) q) :
      Act s0 s { s with planner.calendar := q }
  /-- The boost lists change within their bounds, no tag on them twice. -/
  | boosts (q : Quad (List BoostEntry)) (hd : Distinct (·.addr) s.planner.boosts → Distinct (·.addr) q)
      (hb : (∀ c, (s.planner.boosts.get c).length ≤ 16) → ∀ c, (q.get c).length ≤ 16) :
      Act s0 s { s with planner.boosts := q }
  /-- A record moves on, neither admitted nor ended. -/
  | touch (k : Serial) (f : Change → Change) (h : ∀ r, s.recordOf k = some r → r.Alike (f r)) :
      Act s0 s (updRecord k f s)
  /-- A record ends, and the entry whose live change it is has none (R81). -/
  | ends (k : Serial) (code : OutcomeCode) (r : Change) (a : Nat) (hr : s.recordOf k = some r)
      (live : Orderly s0 → r.state ≠ .finished)
      (ha : r.addr = a ∨ ∃ e ∈ s.dir.entries, e.addr = a ∧ e.live = some k) :
      Act s0 s (clearLive a k (endRecord k code r s))
  /-- A record is admitted (R69). -/
  | append (a : Nat) (new : Change) (blocks : List (List Byte)) (h : Appendable s0 a new blocks s) :
      Act s0 s (appendRecord a new blocks s)
  /-- The record at the head of the retire queue passes (R82). -/
  | pass (room : s.table.outcomes.length < 1024) : Act s0 s (passHead s)
  /-- Outcome records are fetched (R84). -/
  | fetch (n : Nat) : Act s0 s { s with table.outcomes := s.table.outcomes.drop n }
  /-- A campaign's entry changes in its late or stale count, or, having an activation, becomes CUT. -/
  | count (i : CampaignIndex) (f : Campaign → Campaign)
      (h : ∀ c, (f c).activation = c.activation ∧ (f c).admitted = c.admitted ∧ (f c).live = c.live
        ∧ (f c).tallies = c.tallies
        ∧ ((f c).state = c.state ∨ (f c).state = .cut ∧ (s.campaigns.get i).activation ≠ none)) :
      Act s0 s { s with campaigns := s.campaigns.modify i f }
  /-- Done detection (R103). -/
  | done (i : CampaignIndex) : Act s0 s (doneCheck i s)
  /-- A FREE campaign is opened (R91). -/
  | opens (i : CampaignIndex) (time : BitVec 32) (b : Beacon) (p : LatePolicy)
      (h0 : (s0.campaigns.get i).state = .free) (h : (s.campaigns.get i).state = .free) :
      Act s0 s { s with campaigns := s.campaigns.set i (openedEntry time b p) }
  /-- A DONE campaign is released (R105). -/
  | release (i : CampaignIndex) (h : (s.campaigns.get i).state = .done) :
      Act s0 s { s with campaigns := s.campaigns.set i Campaign.freeEntry }
  /-- A reset empties the table, the pool, the campaigns and the planner, and clears the live changes (R86, R180). -/
  | clear {t : State} (entries : t.dir.entries = [] ∨ t.dir.entries = s.dir.entries.map fun e => { e with live := none })
      (grants : t.dir.grants = ⟨[], [], [], []⟩ ∨ t.dir.grants = s.dir.grants)
      (strangers : t.dir.strangers = [] ∨ t.dir.strangers = s.dir.strangers)
      (pool : t.pool = ⟨32768, []⟩) (records : t.table.records = []) (outcomes : t.table.outcomes = [])
      (campaigns : t.campaigns = ⟨Campaign.freeEntry, Campaign.freeEntry, Campaign.freeEntry, Campaign.freeEntry⟩)
      (calendar : t.planner.calendar = ⟨[], [], [], []⟩) (boosts : t.planner.boosts = ⟨[], [], [], []⟩) : Act s0 s t

/-- Acts one after another, within a step that began in `s0`. -/
def Run (s0 : State) : State → State → Prop := Relation.ReflTransGen (Act s0)

theorem Run.refl (s0 s : State) : Run s0 s s := Relation.ReflTransGen.refl

theorem Run.trans {s0 s t u : State} (h : Run s0 s t) (k : Run s0 t u) : Run s0 s u := Relation.ReflTransGen.trans h k

theorem Act.run {s0 s t : State} (h : Act s0 s t) : Run s0 s t := Relation.ReflTransGen.single h

theorem SameWork.run {s t : State} (s0 : State) (h : SameWork s t) : Run s0 s t := (Act.frame h).run

/-- A law that every act keeps, every run keeps. -/
theorem Run.keeps {s0 s t : State} {L : State → Prop} (h : Run s0 s t) (hL : ∀ u v, Act s0 u v → L u → L v) (hs : L s) :
    L t := by
  induction h with
  | refl => exact hs
  | tail _ hact ih => exact hL _ _ hact ih

/-- A fold is a run when each of its steps is one. -/
theorem foldl_run {α : Type} {s0 : State} {f : State → α → State} (hf : ∀ s a, Run s0 s (f s a)) (xs : List α)
    (s : State) : Run s0 s (xs.foldl f s) :=
  foldl_keeps (Run s0) (Run.refl s0) (fun _ _ _ => Run.trans) f hf xs s

/-- What acts look at of the state in which their step began: its work and its settings. -/
theorem Act.restart {s0 u x y : State} (h : SameWork s0 u) (hs : u.store = s0.store) (k : Act u x y) : Act s0 x y := by
  have horder : Orderly s0 → Orderly u := by
    rintro ⟨hd, ht, hl⟩
    refine ⟨?_, ?_, ?_⟩
    · unfold DirectoryLaw at *; rwa [h.dir]
    · unfold TableLaw at *; rwa [h.records]
    · unfold LiveLaw at *; rwa [h.dir, h.records]
  have htable : TableLaw s0 → TableLaw u := by
    unfold TableLaw; rw [h.records]; exact id
  cases k with
  | frame h => exact .frame h
  | edit f hf => exact .edit f hf
  | enrol e free bound new live charge => exact .enrol e free bound new live (fun hc => charge (by rwa [hs]))
  | delete a idle => exact .delete a (fun ho => idle (horder ho))
  | grants q h => exact .grants q h
  | strangers l h => exact .strangers l h
  | calendar q h => exact .calendar q h
  | boosts q hd hb => exact .boosts q hd hb
  | touch k f h => exact .touch k f h
  | ends k code r a hr live ha => exact .ends k code r a hr (fun ho => live (horder ho)) ha
  | append a new blocks ha =>
    exact .append a new blocks { ha with
      room := fun ht => ha.room (htable ht), fresh := fun ht => ha.fresh (htable ht)
      nonzero := fun ht => ha.nonzero (htable ht), idle := fun ho => ha.idle (horder ho) }
  | pass room => exact .pass room
  | fetch n => exact .fetch n
  | count i f h => exact .count i f h
  | done i => exact .done i
  | opens i time b p h0 h' => exact .opens i time b p (by rw [← h.campaigns]; exact h0) h'
  | release i h => exact .release i h
  | clear entries grants strangers pool records outcomes campaigns calendar boosts =>
    exact .clear entries grants strangers pool records outcomes campaigns calendar boosts

theorem Run.restart {s0 u x y : State} (h : SameWork s0 u) (hs : u.store = s0.store) (k : Run u x y) : Run s0 x y :=
  Relation.ReflTransGen.mono (fun _ _ => Act.restart h hs) _ _ k

end Sys2Proof.Machine
end

section
/-! Acts of the shared operations: each operation of Machine/Ops.lean and of the blocks' turns is a run of acts. -/

namespace Sys2Proof.Machine

/-! ### Four lists -/

section quads
variable {α β : Type}

/-- One more element in one of four lists is one more in all of them. -/
theorem modify_flatten_perm (q : Quad (List α)) (c : Fin 4) (g : List α → List α) (x : α)
    (h : (g (q.get c)).Perm (x :: q.get c)) : (q.modify c g).toList.flatten.Perm (x :: q.toList.flatten) := by
  obtain ⟨q0, q1, q2, q3⟩ := q
  have move : ∀ a b l l' : List α, l'.Perm (x :: l) → (a ++ (l' ++ b)).Perm (x :: (a ++ (l ++ b))) := fun a b l l' h =>
    ((h.append_right b).append_left a).trans List.perm_middle
  fin_cases c
  · exact move [] _ _ _ h
  · exact move q0 _ _ _ h
  · simpa [Quad.modify, Quad.set, Quad.toList, Quad.get] using move (q0 ++ q1) q3 q2 _ h
  · simpa [Quad.modify, Quad.set, Quad.toList, Quad.get] using move (q0 ++ q1 ++ q2) [] q3 _ h

/-- Fewer elements in each of four lists are fewer in all of them. -/
theorem flatten_sublist {q r : Quad (List α)} (h : ∀ c, (r.get c).Sublist (q.get c)) :
    r.toList.flatten.Sublist q.toList.flatten := by
  obtain ⟨q0, q1, q2, q3⟩ := q
  obtain ⟨r0, r1, r2, r3⟩ := r
  exact (h 0).append ((h 1).append ((h 2).append ((h 3).append (List.Sublist.refl _))))

theorem Distinct.sublist {f : α → β} {q r : Quad (List α)} (hq : Distinct f q) (h : ∀ c, (r.get c).Sublist (q.get c)) :
    Distinct f r := List.Nodup.sublist ((flatten_sublist h).map f) hq

theorem mem_flatten_get {q : Quad (List α)} {x : α} : x ∈ q.toList.flatten ↔ ∃ c, x ∈ q.get c := by
  simp only [List.mem_flatten, Quad.mem_toList]
  constructor
  · rintro ⟨l, ⟨c, rfl⟩, hx⟩; exact ⟨c, hx⟩
  · rintro ⟨c, hx⟩; exact ⟨_, ⟨c, rfl⟩, hx⟩

/-- An element whose key no other has may join one of four lists. -/
theorem Distinct.add {f : α → β} {q : Quad (List α)} (hq : Distinct f q) (c : Fin 4) (g : List α → List α) (x : α)
    (h : (g (q.get c)).Perm (x :: q.get c)) (hx : ∀ d, ∀ y ∈ q.get d, f y ≠ f x) : Distinct f (q.modify c g) := by
  unfold Distinct
  rw [((modify_flatten_perm q c g x h).map f).nodup_iff, List.map_cons, List.nodup_cons]
  refine ⟨?_, hq⟩
  simp only [List.mem_map, mem_flatten_get, not_exists, not_and, forall_exists_index]
  exact fun y d hy => hx d y hy

theorem Distinct.filter {f : α → β} {q : Quad (List α)} (hq : Distinct f q) (p : α → Bool) :
    Distinct f (q.map fun l => l.filter p) := hq.sublist fun c => by
  rw [Quad.get_map]; exact List.filter_sublist

theorem sublist_modify (q : Quad (List α)) (c d : Fin 4) (g : List α → List α) (h : ∀ l, (g l).Sublist l) :
    ((q.modify c g).get d).Sublist (q.get d) := by
  rw [Quad.get_modify]
  split
  · exact h _
  · exact List.Sublist.refl _

end quads

/-! ### What does not touch the work -/

theorem sameWork_handler (h : RecordHandler) (s : State) : SameWork s { s with handler := h } :=
  ⟨rfl, rfl, rfl, rfl, rfl, rfl, rfl⟩

theorem raiseFlag_work (f : Flag) (s : State) : SameWork s (raiseFlag f s) := sameWork_handler _ s

theorem offerFrame_work (f : Frame) (s : State) : SameWork s (offerFrame f s) := by
  obtain ⟨_, h⟩ | ⟨_, h⟩ := offerFrame_eq f s <;> rw [h]
  · exact ⟨rfl, rfl, rfl, rfl, rfl, rfl, rfl⟩
  · exact raiseFlag_work _ s

theorem placeFrame_work (f : Frame) (s : State) : SameWork s (placeFrame f s) := ⟨rfl, rfl, rfl, rfl, rfl, rfl, rfl⟩

theorem putSettings_work (w : Settings) (s : State) : SameWork s (putSettings w s) := ⟨rfl, rfl, rfl, rfl, rfl, rfl, rfl⟩

theorem latchTrigger_work (s : State) : SameWork s (latchTrigger s) := by
  unfold latchTrigger
  split
  · exact sameWork_handler _ s
  · exact SameWork.refl s

/-! ### Entries, calendars, boost lists -/

variable {s0 : State}

theorem EntryEdit.at {f : Entry → Entry} (hf : EntryEdit f) (a : Nat) :
    EntryEdit fun e => if e.addr = a then f e else e where
  addr e := by split; exacts [hf.addr e, rfl]
  tagId e := by split; exacts [hf.tagId e, rfl]
  live e := by split; exacts [hf.live e, rfl]
  charged e := by split; exacts [hf.charged e, id]

theorem updEntry_run (a : Nat) {f : Entry → Entry} (hf : EntryEdit f) (s : State) : Run s0 s (updEntry a f s) :=
  (Act.edit _ (hf.at a)).run

theorem dropCalendar_run (a : Nat) (s : State) : Run s0 s (dropCalendar a s) :=
  (Act.calendar _ fun h => h.filter _).run

/-- A tag's entries filtered out leave none of it. -/
theorem ne_of_mem_dropped {α : Type} {f : α → Nat} {a : Nat} {q : Quad (List α)} (d : Fin 4) (y : α)
    (hy : y ∈ (q.map fun l => l.filter fun x => decide (f x ≠ a)).get d) : f y ≠ a := by
  rw [Quad.get_map] at hy
  simpa using (List.mem_filter.mp hy).2

theorem placeCalendar_run (c : Cell) (x : CalendarEntry) (s : State) : Run s0 s (placeCalendar c x s) :=
  (dropCalendar_run x.addr s).tail (.calendar _ fun h => h.add c _ x (insertBy_perm _ x _) ne_of_mem_dropped)

theorem fileTag_run (a : Nat) (s : State) : Run s0 s (fileTag a s) := by
  obtain h | ⟨e, c, _, _, h⟩ := fileTag_eq a s <;> rw [h]
  · exact Run.refl s0 s
  · exact placeCalendar_run _ _ s

theorem workNotice_run (a : Nat) (s : State) : Run s0 s (workNotice a s) := by
  obtain h | h | h := workNotice_eq a s <;> rw [h]
  · exact Run.refl s0 s
  · exact fileTag_run a s
  · exact dropCalendar_run a s

theorem dropBoost_run (a : Nat) (s : State) : Run s0 s (dropBoost a s) := by
  refine (Act.boosts _ (fun h => h.filter _) fun h c => ?_).run
  rw [Quad.get_map]
  exact (List.length_filter_le _ _).trans (h c)

theorem placeBoost_run (c : Cell) (x : BoostEntry) (s : State) (room : (s.planner.boosts.get c).length < 16) :
    Run s0 s (placeBoost c x s) := by
  refine (dropBoost_run x.addr s).tail (.boosts _ (fun h => h.add c _ x (insertBy_perm _ x _) ne_of_mem_dropped) ?_)
  intro h d
  rw [Quad.get_modify]
  split
  · next hd =>
    subst hd
    rw [insertBy_length, dropBoost_planner, Quad.get_map]
    exact lt_of_le_of_lt (List.length_filter_le _ _) room
  · exact h d

theorem orderEntry_run (a : Nat) {f : Entry → Entry} (hf : EntryEdit f) (s : State) : Run s0 s (orderEntry a f s) :=
  (updEntry_run a hf s).trans (workNotice_run a _)

theorem dropGrants_run (id : TagId) (s : State) : Run s0 s (dropGrants id s) := by
  refine (Act.grants _ fun h => ⟨fun c => ?_, h.2.filter _⟩).run
  rw [Quad.get_map]
  exact (List.length_filter_le _ _).trans (h.1 c)

theorem deleteEntry_run (e : Entry) (s : State)
    (idle : Orderly s0 → ∀ x ∈ s.dir.entries, x.addr = e.addr → x.live = none) : Run s0 s (deleteEntry e s) :=
  (((dropCalendar_run e.addr s).trans (dropBoost_run e.addr _)).trans (dropGrants_run e.tagId _)).tail
    (.delete e.addr idle)

/-! ### Records -/

theorem updRecord_run (k : Serial) (f : Change → Change) (s : State) (h : ∀ r, s.recordOf k = some r → r.Alike (f r)) :
    Run s0 s (updRecord k f s) := (Act.touch k f h).run

theorem moveRecord_run (k : Serial) (f : Change → Change) (s : State) (h : ∀ r, s.recordOf k = some r → r.Alike (f r)) :
    Run s0 s (moveRecord k f s) := by
  unfold moveRecord
  split
  · exact Run.refl s0 s
  · dsimp only
    split
    · exact updRecord_run k f s h
    · exact (updRecord_run k f s h).trans (workNotice_run _ _)

theorem passRecords_run (n : Nat) (s : State) : Run s0 s (passRecords n s) := by
  induction n generalizing s with
  | zero => exact Run.refl s0 s
  | succ n ih =>
    unfold passRecords
    split
    · exact Run.refl s0 s
    · next h =>
      push Not at h
      exact (Act.pass h.2).run.trans (ih _)

theorem passAll_run (s : State) : Run s0 s (passAll s) := passRecords_run _ s

theorem joinRetire_run (k : Serial) (s : State) : Run s0 s (joinRetire k s) := by
  have hjoin : SameWork s { s with table.retire := s.table.retire ++ [k] } := ⟨rfl, rfl, rfl, rfl, rfl, rfl, rfl⟩
  have hpass := (hjoin.run s0).trans (passAll_run _)
  unfold joinRetire
  dsimp only
  split
  · exact hpass.trans ((raiseFlag_work _ _).run s0)
  · exact hpass

/-- The record of a serial carries that serial. -/
theorem recordOf_serial {s : State} {k : Serial} {r : Change} (h : s.recordOf k = some r) : r.serial = k := by
  unfold State.recordOf at h
  split at h
  · exact absurd h (by simp)
  · simpa using List.find?_some h

theorem recordOf_mem {s : State} {k : Serial} {r : Change} (h : s.recordOf k = some r) : r ∈ s.table.records := by
  unfold State.recordOf at h
  split at h
  · exact absurd h (by simp)
  · exact List.mem_of_find?_eq_some h

theorem recordOf_ne_zero {s : State} {k : Serial} {r : Change} (h : s.recordOf k = some r) : k ≠ 0 := by
  rintro rfl
  simp [State.recordOf] at h

theorem recordOf_self {s : State} {k : Serial} {r : Change} (h : s.recordOf k = some r) : s.recordOf r.serial = some r := by
  rwa [recordOf_serial h]

theorem liveRecord_eq_some {s : State} {e : Entry} {r : Change} (h : s.liveRecord e = some r) :
    e.live = some r.serial ∧ s.recordOf r.serial = some r := by
  unfold State.liveRecord at h
  obtain ⟨k, hk, hr⟩ := Option.bind_eq_some_iff.mp h
  exact ⟨by rw [hk, recordOf_serial hr], recordOf_self hr⟩

/-- A finishing outside an admission: the record ends, its tag's boost list entry goes, the Call Planner is told, and it joins the
retire queue (R81). -/
theorem finish_eq {s : State} {k : Serial} {r : Change} (code : OutcomeCode) (hr : s.recordOf k = some r) :
    finish k code false s = joinRetire k { dropBoost r.addr (clearLive r.addr k (endRecord k code r s)) with
        planner.calendar :=
          (workNotice r.addr (dropBoost r.addr (clearLive r.addr k (closeRecord k code s)))).planner.calendar } := by
  unfold finish
  rw [hr]
  change joinRetire k (updCampaign r.campaign (fun c => { c with live := c.live - 1 })
    (workNotice r.addr (dropBoost r.addr (clearLive r.addr k (closeRecord k code s))))) = _
  obtain ⟨calendar, h⟩ := workNotice_planner r.addr (dropBoost r.addr (clearLive r.addr k (closeRecord k code s)))
  rw [h]
  unfold endRecord
  cases r.campaign <;> rfl

theorem finish_within {s : State} {k : Serial} {r : Change} (code : OutcomeCode) (hr : s.recordOf k = some r) :
    finish k code true s = joinRetire k (endRecord k code r s) := by
  unfold finish
  rw [hr]
  rfl

theorem finish_none {s : State} {k : Serial} (code : OutcomeCode) (within : Bool) (hr : s.recordOf k = none) :
    finish k code within s = s := by
  unfold finish
  rw [hr]

/-- The calendar a finishing leaves comes from the tag's filing, its entry's loss, or stays. -/
theorem workNotice_distinct (a : Nat) (s : State) (h : Distinct (·.addr) s.planner.calendar) :
    Distinct (·.addr) (workNotice a s).planner.calendar := by
  obtain he | he | he := workNotice_eq a s <;> rw [he]
  · exact h
  · obtain hf | ⟨e, c, _, _, hf⟩ := fileTag_eq a s <;> rw [hf]
    · exact h
    · exact (h.filter _).add c _ _ (insertBy_perm _ _ _) ne_of_mem_dropped
  · exact h.filter _

theorem finish_run (k : Serial) (code : OutcomeCode) (s : State)
    (live : ∀ r, s.recordOf k = some r → Orderly s0 → r.state ≠ .finished) : Run s0 s (finish k code false s) := by
  cases hr : s.recordOf k with
  | none => rw [finish_none code false hr]; exact Run.refl s0 s
  | some r =>
    rw [finish_eq code hr]
    have hend : Run s0 s (clearLive r.addr k (endRecord k code r s)) :=
      (Act.ends k code r r.addr hr (live r hr) (.inl rfl)).run
    refine Run.trans (((hend.trans (dropBoost_run r.addr _)).tail (.calendar _ ?_))) (joinRetire_run k _)
    intro hd
    refine workNotice_distinct _ _ ?_
    unfold endRecord at hd
    cases hi : r.campaign <;> rw [hi] at hd <;> exact hd

end Sys2Proof.Machine
end

section
/-! Acts of the blocks' turns: the slot end, the cut, the refresh, the instant, the join, the beacon start and the resets. -/

namespace Sys2Proof.Machine

variable {s0 : State}

/-! ### Records found again -/

/-- A record changed in place is found under the serial it keeps. -/
theorem recordOf_updRecord {f : Change → Change} (hf : ∀ r, (f r).serial = r.serial) (j k : Serial) (s : State) :
    (updRecord k f s).recordOf j = (s.recordOf j).map fun r => if r.serial = k then f r else r := by
  unfold State.recordOf
  split
  · rfl
  · rw [updRecord_table, List.find?_map]
    congr 2
    funext r
    simp only [Function.comp]
    split <;> simp [hf]

theorem recordOf_updRecord_same {f : Change → Change} (hf : ∀ r, (f r).serial = r.serial) {k : Serial} {s : State}
    {r : Change} (h : s.recordOf k = some r) : (updRecord k f s).recordOf k = some (f r) := by
  rw [recordOf_updRecord hf, h, Option.map_some, if_pos (recordOf_serial h)]

/-- A record that has not finished, changed to one that has not. -/
theorem Change.Alike.of_live {r q : Change} (serial : q.serial = r.serial) (addr : q.addr = r.addr)
    (tagId : q.tagId = r.tagId) (campaign : q.campaign = r.campaign) (blockCount : q.blockCount = r.blockCount)
    (outcome : q.outcome = r.outcome) (acked : r.acked ≤ r.blockCount → q.acked ≤ q.blockCount)
    (hr : r.state ≠ .finished) (hq : q.state ≠ .finished) : r.Alike q :=
  ⟨serial, addr, tagId, campaign, blockCount, outcome, acked, iff_of_false hq hr⟩

/-! ### Debits -/

theorem remaining_edit (cost : Nat) : EntryEdit fun e => { e with remaining := e.remaining - cost } :=
  ⟨fun _ => rfl, fun _ => rfl, fun _ => rfl, fun _ h => ⟨(Nat.sub_le _ _).trans h.1, h.2⟩⟩

theorem spent_alike (cost : Nat) (r : Change) : r.Alike { r with spent := min (r.spent + cost) 65535 } :=
  ⟨rfl, rfl, rfl, rfl, rfl, rfl, id, .rfl⟩

theorem debit_run (a cost : Nat) (s : State) : Run s0 s (debit a cost s) := by
  unfold debit
  dsimp only
  split
  · exact updEntry_run a (remaining_edit cost) s
  · exact (updEntry_run a (remaining_edit cost) s).trans (updRecord_run _ _ _ fun r _ => spent_alike cost r)

/-! ### Reports -/

/-- The record that a report's turn was begun for has not finished in the meantime. -/
def StillLive (r : Change) (s : State) : Prop := ∀ q, s.recordOf r.serial = some q → q.state ≠ .finished

theorem StillLive.upd {r : Change} {s : State} (h : StillLive r s) {f : Change → Change}
    (hf : ∀ q, (f q).serial = q.serial) (hs : ∀ q, (f q).state = q.state) (k : Serial) :
    StillLive r (updRecord k f s) := by
  intro q hq
  rw [recordOf_updRecord hf] at hq
  obtain ⟨x, hx, rfl⟩ := Option.map_eq_some_iff.mp hq
  split
  · rw [hs]; exact h x hx
  · exact h x hx

theorem finish_live_run {r : Change} (code : OutcomeCode) {s : State} (h : StillLive r s) :
    Run s0 s (finish r.serial code false s) := finish_run _ code s fun q hq _ => h q hq

theorem move_live_run {r : Change} {s : State} (h : StillLive r s) (f : Change → Change)
    (hf : ∀ q : Change, q.state ≠ .finished → q.Alike (f q)) : Run s0 s (moveRecord r.serial f s) :=
  moveRecord_run _ f s fun q hq => hf q (h q hq)

theorem badReport_run {r : Change} {s : State} (h : StillLive r s) : Run s0 s (badReport r s) := by
  have hupd : Run s0 s (updRecord r.serial (fun r => { r with displaced := none, acked := 0, failures := r.failures + 1 }) s) :=
    updRecord_run _ _ s fun q _ => ⟨rfl, rfl, rfl, rfl, rfl, rfl, fun _ => Nat.zero_le _, .rfl⟩
  have hl := h.upd (f := fun r => { r with displaced := none, acked := 0, failures := r.failures + 1 }) (fun _ => rfl)
    (fun _ => rfl) r.serial
  unfold badReport
  dsimp only
  split
  · exact hupd.trans (finish_live_run _ hl)
  · split
    · exact hupd.trans (move_live_run hl _ fun q hq => .of_live rfl rfl rfl rfl rfl rfl id hq (by simp))
    · exact hupd.trans (move_live_run hl _ fun q hq => .of_live rfl rfl rfl rfl rfl rfl id hq (by simp))

theorem reportDelivery_run {r : Change} (p : Report) {s : State} (h : StillLive r s) :
    Run s0 s (reportDelivery r p s) := by
  unfold reportDelivery
  split
  · exact finish_live_run _ h
  · split
    · split
      · exact badReport_run h
      · refine move_live_run h _ fun q hq => .of_live rfl rfl rfl rfl rfl rfl (fun _ => le_rfl) hq ?_
        dsimp only
        split <;> simp
      · exact move_live_run h _ fun q hq => .of_live rfl rfl rfl rfl rfl rfl (fun _ => Nat.min_le_right _ _) hq (by simp)
      · exact move_live_run h _ fun q hq => .of_live rfl rfl rfl rfl rfl rfl (fun _ => Nat.min_le_right _ _) hq (by simp)
    · exact move_live_run h _ fun q hq => .of_live rfl rfl rfl rfl rfl rfl (fun _ => Nat.zero_le _) hq (by simp)

theorem reportStaged_run {r : Change} (p : Report) {s : State} (h : StillLive r s) : Run s0 s (reportStaged r p s) := by
  unfold reportStaged
  split
  · exact Run.refl s0 s
  · split
    · exact badReport_run h
    · exact move_live_run h _ fun q hq => .of_live rfl rfl rfl rfl rfl rfl (fun _ => Nat.zero_le _) hq (by simp)

theorem reportVerifying_run {r : Change} (p : Report) {s : State} (h : StillLive r s) :
    Run s0 s (reportVerifying r p s) := by
  unfold reportVerifying
  split
  · exact finish_live_run _ h
  · split
    · exact Run.refl s0 s
    · split
      · exact badReport_run h
      · exact move_live_run h _ fun q hq => .of_live rfl rfl rfl rfl rfl rfl (fun _ => Nat.zero_le _) hq (by simp)

theorem reportWithdrawing_run {r : Change} (p : Report) {s : State} (h : StillLive r s) :
    Run s0 s (reportWithdrawing r p s) := by
  unfold reportWithdrawing
  split
  · exact Run.refl s0 s
  · exact finish_live_run _ h

theorem changeReport_run (a : Nat) (k : Serial) (p : Report) (s : State) : Run s0 s (changeReport a k p s) := by
  unfold changeReport
  split
  · exact Run.refl s0 s
  · split
    · split
      · exact Run.refl s0 s
      · next r hr =>
        have hk := recordOf_serial hr
        have hlive : r.state ≠ .finished → StillLive r s := fun h q hq => by
          rw [hk, hr, Option.some.injEq] at hq
          exact hq ▸ h
        dsimp only
        generalize hs1 : (if p.staged.serial = k then updRecord k (fun r => { r with displaced := none }) s else s) = s1
        have hrun : Run s0 s s1 := by
          rw [← hs1]
          split
          · exact updRecord_run _ _ s fun q _ => ⟨rfl, rfl, rfl, rfl, rfl, rfl, id, .rfl⟩
          · exact Run.refl s0 s
        have hlive1 : r.state ≠ .finished → StillLive r s1 := fun h => by
          rw [← hs1]
          split
          · exact (hlive h).upd (f := fun r => { r with displaced := none }) (fun _ => rfl) (fun _ => rfl) k
          · exact hlive h
        split
        · next h => exact hrun.trans (reportDelivery_run p (hlive1 (by simp [h])))
        · next h => exact hrun.trans (reportDelivery_run p (hlive1 (by simp [h])))
        · next h => exact hrun.trans (reportStaged_run p (hlive1 (by simp [h])))
        · next h => exact hrun.trans (reportVerifying_run p (hlive1 (by simp [h])))
        · next h => exact hrun.trans (reportWithdrawing_run p (hlive1 (by simp [h])))
        · exact hrun
    · exact Run.refl s0 s

/-! ### The slot end -/

theorem directoryReport_run (p : Snapshot) (rep : Report) (level : Byte) (s : State) :
    Run s0 s (directoryReport p rep level s) := by
  have hedit : EntryEdit (Entry.afterReport p.cell p.beacon rep level) :=
    ⟨fun _ => rfl, fun _ => rfl, fun _ => rfl, fun _ h => h⟩
  unfold directoryReport
  dsimp only
  split <;> split
  · exact (updEntry_run _ hedit s).trans ((raiseFlag_work _ _).run s0)
  · exact updEntry_run _ hedit s
  · exact (updEntry_run _ hedit s).trans ((raiseFlag_work _ _).run s0)
  · exact updEntry_run _ hedit s

theorem budgetReport_run (p : Snapshot) (rep : Report) (s : State) : Run s0 s (budgetReport p rep s) := by
  unfold budgetReport
  split
  · split
    · exact debit_run _ _ s
    · exact Run.refl s0 s
  · exact Run.refl s0 s

theorem confirmBoost_run (a : Nat) (u : Beacon) (s : State) : Run s0 s (confirmBoost a u s) := by
  have haddr : ∀ l : List BoostEntry,
      (l.map fun x => if x.addr = a then { x with boostEnd := u, confirmed := true } else x).map (·.addr) = l.map (·.addr) := by
    intro l
    rw [List.map_map]
    refine List.map_congr_left fun x _ => ?_
    simp only [Function.comp]
    split <;> rfl
  refine (Act.boosts _ (fun h => ?_) fun h c => ?_).run
  · unfold Distinct at h ⊢
    simpa only [Quad.toList, Quad.map, List.flatten_cons, List.flatten_nil, List.map_append, haddr] using h
  · rw [Quad.get_map, List.length_map]
    exact h c

theorem resolveBoost_run (p : Snapshot) (rep : Option Report) (s : State) : Run s0 s (resolveBoost p rep s) := by
  unfold resolveBoost
  split
  · exact Run.refl s0 s
  · split
    · split
      · exact Run.refl s0 s
      · split
        · exact confirmBoost_run _ _ s
        · exact dropBoost_run _ s
    · split
      · exact Run.refl s0 s
      · split
        · exact dropBoost_run _ s
        · exact Run.refl s0 s

theorem slotFiling_run (a : Nat) (s : State) : Run s0 s (slotFiling a s) := by
  unfold slotFiling
  split
  · exact Run.refl s0 s
  · split
    · split
      · exact fileTag_run a s
      · exact dropCalendar_run a s
    · exact Run.refl s0 s

theorem becomeLost_run (e : Entry) (s : State) : Run s0 s (becomeLost e s) := by
  have hedit : EntryEdit fun e => { e with state := .lost } := ⟨fun _ => rfl, fun _ => rfl, fun _ => rfl, fun _ h => h⟩
  unfold becomeLost
  dsimp only
  generalize hs1 : dropGrants e.tagId (dropBoost e.addr (dropCalendar e.addr
    (raiseFlag .tagLost (updEntry e.addr (fun e => { e with state := .lost }) s)))) = s1
  have hrun : Run s0 s s1 := by
    rw [← hs1]
    exact ((((updEntry_run e.addr hedit s).trans ((raiseFlag_work _ _).run s0)).trans (dropCalendar_run _ _)).trans
      (dropBoost_run _ _)).trans (dropGrants_run _ _)
  split
  · exact hrun
  · next r hr =>
    split
    · exact hrun
    · next code hc =>
      refine hrun.trans (finish_live_run code fun q hq => ?_)
      rw [(liveRecord_eq_some hr).2, Option.some.injEq] at hq
      rintro h
      rw [← hq] at h
      simp [lostOutcome, h] at hc

theorem countMiss_run (a : Nat) (s : State) : Run s0 s (countMiss a s) := by
  have hedit (limit : Nat) : EntryEdit fun e => { e with misses := min (e.misses + 1) limit } :=
    ⟨fun _ => rfl, fun _ => rfl, fun _ => rfl, fun _ h => h⟩
  unfold countMiss
  split
  · exact Run.refl s0 s
  · dsimp only
    split
    · exact (updEntry_run a (hedit _) s).trans (becomeLost_run _ _)
    · exact updEntry_run a (hedit _) s

theorem endSlot_run (p : Snapshot) (received : Option (List Byte)) (level : Byte) (s : State) :
    Run s0 s (endSlot p received level s) := by
  unfold endSlot
  split
  · exact Run.refl s0 s
  · split
    · split
      · exact ((((directoryReport_run _ _ _ s).trans (changeReport_run _ _ _ _)).trans (budgetReport_run _ _ _)).trans
          (resolveBoost_run _ _ _)).trans (slotFiling_run _ _)
      · exact ((countMiss_run _ s).trans (resolveBoost_run _ _ _)).trans (slotFiling_run _ _)
    · exact Run.refl s0 s

theorem windows_work (q : Quad (Option Window)) (s : State) : SameWork s { s with cells.windows := q } :=
  ⟨rfl, rfl, rfl, rfl, rfl, rfl, rfl⟩

theorem slotEnd_run (c : Cell) (received : Option (List Byte)) (level : Byte) (s : State) :
    Run s0 s (slotEnd c received level s) := by
  unfold slotEnd
  split
  · exact Run.refl s0 s
  · split
    · exact Run.refl s0 s
    · exact ((windows_work _ s).run s0).trans (endSlot_run _ _ _ _)

theorem headLost_run (c : Cell) (s : State) : Run s0 s (headLost c s) := by
  unfold headLost
  split
  · have hflag : Run s0 s (raiseFlag .cellDown { s with cells.heads := s.cells.heads.set c false }) :=
      SameWork.run s0 ⟨rfl, rfl, rfl, rfl, rfl, rfl, rfl⟩
    refine hflag.trans ?_
    unfold abandonWindow
    split
    · exact Run.refl s0 _
    · exact ((windows_work _ _).run s0).trans (foldl_run (fun t p => endSlot_run p none 0 t) _ _)
  · exact Run.refl s0 s

/-! ### The cut -/

theorem updCampaign_some (i : CampaignIndex) (f : Campaign → Campaign) (s : State) :
    updCampaign (some i) f s = { s with campaigns := s.campaigns.modify i f } := rfl

theorem cutDelivery_run (i : CampaignIndex) (policy : LatePolicy) {r : Change} {s : State}
    (hr : s.recordOf r.serial = some r) (hlive : r.state ≠ .finished) : Run s0 s (cutDelivery i policy r s) := by
  have hstill : StillLive r s := fun q hq => by
    rw [hr, Option.some.injEq] at hq
    exact hq ▸ hlive
  unfold cutDelivery
  dsimp only
  generalize hs1 : (if r.displaced.isSome then
    raiseFlag .staleCut (updCampaign (some i) (fun c => { c with staleCount := c.staleCount + 1 })
      (updRecord r.serial (fun r => { r with staleCut := true }) s)) else s) = s1
  have hrun : Run s0 s s1 ∧ StillLive r s1 := by
    rw [← hs1]
    split
    · refine ⟨?_, hstill.upd (f := fun r => { r with staleCut := true }) (fun _ => rfl) (fun _ => rfl) r.serial⟩
      exact ((updRecord_run r.serial (fun r => { r with staleCut := true }) s
          fun q _ => ⟨rfl, rfl, rfl, rfl, rfl, rfl, id, .rfl⟩).tail
        (.count i (fun c => { c with staleCount := c.staleCount + 1 }) fun c => ⟨rfl, rfl, rfl, rfl, .inl rfl⟩)).trans
        ((raiseFlag_work _ _).run s0)
    · exact ⟨Run.refl s0 s, hstill⟩
  split
  · exact (hrun.1.trans (updRecord_run r.serial (fun r => { r with late := true }) s1
        fun q _ => ⟨rfl, rfl, rfl, rfl, rfl, rfl, id, .rfl⟩)).tail
      (.count i (fun c => { c with lateCount := c.lateCount + 1 }) fun c => ⟨rfl, rfl, rfl, rfl, .inl rfl⟩)
  · exact hrun.1.trans (finish_live_run _ hrun.2)

theorem cutRecord_run (i : CampaignIndex) (policy : LatePolicy) (k : Serial) (s : State) :
    Run s0 s (cutRecord i policy k s) := by
  unfold cutRecord
  split
  · exact Run.refl s0 s
  · next r hr =>
    have hstill : r.state ≠ .finished → ∀ q, s.recordOf k = some q → q.state ≠ .finished := fun h q hq => by
      rw [hr, Option.some.injEq] at hq
      exact hq ▸ h
    split
    · next h => exact cutDelivery_run i policy (recordOf_self hr) (by simp [h])
    · next h => exact cutDelivery_run i policy (recordOf_self hr) (by simp [h])
    · next h =>
      exact moveRecord_run _ _ s fun q hq =>
        .of_live rfl rfl rfl rfl rfl rfl id (hstill (by simp [h]) q hq) (by simp)
    · next h => exact finish_run k _ s fun q hq _ => hstill (by simp [h]) q hq
    · exact Run.refl s0 s
    · exact Run.refl s0 s

/-! What a cut does to a record leaves every campaign's activation alone. -/

theorem updCampaign_activation (j : Option CampaignIndex) (f : Campaign → Campaign)
    (hf : ∀ c, (f c).activation = c.activation) (s : State) (i : CampaignIndex) :
    ((updCampaign j f s).campaigns.get i).activation = (s.campaigns.get i).activation := by
  cases j with
  | none => rfl
  | some j =>
    rw [updCampaign_some, Quad.get_modify]
    split
    · exact hf _
    · rfl

theorem doneCheck_activation (j : CampaignIndex) (s : State) (i : CampaignIndex) :
    ((doneCheck j s).campaigns.get i).activation = (s.campaigns.get i).activation := by
  obtain h | ⟨_, _, d, rfl, h⟩ := doneCheck_eq j s <;> rw [h]
  rw [Quad.get_set]
  split
  · next hij => subst hij; rfl
  · rfl

theorem passHead_activation (s : State) (i : CampaignIndex) :
    ((passHead s).campaigns.get i).activation = (s.campaigns.get i).activation := by
  unfold passHead
  split
  · rfl
  · split
    · rfl
    · rw [(latchTrigger_dir _).2.2.2.2.1]
      unfold tallyOutcome
      split
      · rfl
      · next j _ =>
        rw [doneCheck_activation, Quad.get_modify]
        split <;> rfl

theorem joinRetire_activation (k : Serial) (s : State) (i : CampaignIndex) :
    ((joinRetire k s).campaigns.get i).activation = (s.campaigns.get i).activation := by
  have hpass (n : Nat) (u : State) : ((passRecords n u).campaigns.get i).activation = (u.campaigns.get i).activation := by
    induction n generalizing u with
    | zero => rfl
    | succ n ih =>
      unfold passRecords
      split
      · rfl
      · exact (ih _).trans (passHead_activation u i)
  unfold joinRetire passAll
  dsimp only
  split
  · rw [raiseFlag_campaigns, hpass]
  · rw [hpass]

theorem finish_activation (k : Serial) (code : OutcomeCode) (s : State) (i : CampaignIndex) :
    ((finish k code false s).campaigns.get i).activation = (s.campaigns.get i).activation := by
  cases hr : s.recordOf k with
  | none => rw [finish_none code false hr]
  | some r =>
    rw [finish_eq code hr, joinRetire_activation]
    exact updCampaign_activation r.campaign (fun c => { c with live := c.live - 1 }) (fun _ => rfl) (closeRecord k code s) i

theorem cutRecord_activation (j : CampaignIndex) (policy : LatePolicy) (k : Serial) (s : State) (i : CampaignIndex) :
    ((cutRecord j policy k s).campaigns.get i).activation = (s.campaigns.get i).activation := by
  have hdelivery (r : Change) :
      ((cutDelivery j policy r s).campaigns.get i).activation = (s.campaigns.get i).activation := by
    unfold cutDelivery
    dsimp only
    generalize hs1 : (if r.displaced.isSome then
      raiseFlag .staleCut (updCampaign (some j) (fun c => { c with staleCount := c.staleCount + 1 })
        (updRecord r.serial (fun r => { r with staleCut := true }) s)) else s) = s1
    have hstale : (s1.campaigns.get i).activation = (s.campaigns.get i).activation := by
      rw [← hs1]
      split
      · exact updCampaign_activation (some j) (fun c => { c with staleCount := c.staleCount + 1 }) (fun _ => rfl) _ i
      · rfl
    rw [← hstale]
    split
    · exact updCampaign_activation (some j) (fun c => { c with lateCount := c.lateCount + 1 }) (fun _ => rfl) _ i
    · exact finish_activation _ _ s1 i
  unfold cutRecord
  split
  · rfl
  · split
    · exact hdelivery _
    · exact hdelivery _
    · unfold moveRecord
      split
      · rfl
      · dsimp only
        split
        · rfl
        · obtain ⟨_, h⟩ := workNotice_planner _ (updRecord k (fun r => { r with state := .verifying }) s)
          rw [h]
          rfl
    · exact finish_activation k _ s i
    · rfl
    · rfl

theorem cutCampaign_run (i : CampaignIndex) (s : State) : Run s0 s (cutCampaign i s) := by
  unfold cutCampaign
  split
  · exact Run.refl s0 s
  · next a ha =>
    refine ((foldl_run (fun s k => cutRecord_run i a.policy k s) (campaignSerials i s) s).tail
      (.count i (fun c => { c with state := .cut }) fun c => ⟨rfl, rfl, rfl, rfl, .inr ⟨rfl, ?_⟩⟩)).tail (.done i)
    have hkept (ks : List Serial) (u : State) :
        ((ks.foldl (fun s k => cutRecord i a.policy k s) u).campaigns.get i).activation
          = (u.campaigns.get i).activation := by
      induction ks generalizing u with
      | nil => rfl
      | cons k ks ih => exact (ih _).trans (cutRecord_activation i a.policy k u i)
    rw [hkept, ha]
    simp

theorem takeCuts_run (s : State) : Run s0 s (takeCuts s) := by
  have hcuts : Run s0 s ((freeOrder 4 s.freeIndex (dueCuts s)).foldl (fun s i => cutCampaign i s) s) :=
    foldl_run (fun s i => cutCampaign_run i s) _ _
  unfold takeCuts
  dsimp only
  split
  · exact hcuts
  · exact hcuts.trans (SameWork.run s0 ⟨rfl, rfl, rfl, rfl, rfl, rfl, rfl⟩)

/-! ### The beacon start -/

theorem refiled_addr (s : State) (b : Beacon) (x : CalendarEntry) : (refiled s b x).addr = x.addr := by
  unfold refiled
  split <;> rfl

theorem applyPreset_run (p : Beacon) (s : State) : Run s0 s (applyPreset p s) := by
  have hedit : EntryEdit fun e => { e with boostEnd := none } := ⟨fun _ => rfl, fun _ => rfl, fun _ => rfl, fun _ h => h⟩
  have haddr : ∀ l : List CalendarEntry, (l.map (refiled s (p - 1))).map (·.addr) = l.map (·.addr) := by
    intro l
    rw [List.map_map]
    exact List.map_congr_left fun x _ => refiled_addr s (p - 1) x
  refine ((((Act.edit _ hedit).run.tail (.calendar (s.planner.calendar.map fun l => l.map (refiled s (p - 1))) ?_)).tail
    (.boosts ⟨[], [], [], []⟩ (fun _ => ?_) fun _ c => ?_)).tail (.frame ⟨rfl, rfl, rfl, rfl, rfl, rfl, rfl⟩))
  · intro h
    unfold Distinct at h ⊢
    simpa only [Quad.toList, Quad.map, List.flatten_cons, List.flatten_nil, List.map_append, haddr] using h
  · simp [Distinct, Quad.toList]
  · fin_cases c <;> simp [Quad.get]

theorem beaconStart_run (s : State) : Run s0 s (beaconStart s) := by
  have hreload : Run s0 s (reloadGeometry s) := SameWork.run s0 ⟨rfl, rfl, rfl, rfl, rfl, rfl, rfl⟩
  refine (hreload.trans ?_).trans (takeCuts_run _)
  unfold nextBeacon
  split
  · exact SameWork.run s0 ⟨rfl, rfl, rfl, rfl, rfl, rfl, rfl⟩
  · split
    · exact applyPreset_run _ _
    · exact SameWork.run s0 ⟨rfl, rfl, rfl, rfl, rfl, rfl, rfl⟩

/-! ### The instant -/

/-- A boost order needs a free place on the cell's boost list (R132, condition 5). -/
theorem boostOrder_room {s : State} {c : Cell} {b : Beacon} {e : Entry} {k : Nat} {u : Beacon}
    (h : boostOrder s c b e k = some u) : (s.planner.boosts.get c).length < 16 := by
  unfold boostOrder at h
  dsimp only at h
  split at h
  · cases h
  · split at h
    · cases h
    · rw [Option.ite_none_right_eq_some] at h
      obtain ⟨⟨_, _, _, _, room, _⟩, _⟩ := h
      exact room

theorem commitCall_run (p : Snapshot) (s : State)
    (room : ∀ u, p.boostOrder = some u → (s.planner.boosts.get p.cell).length < 16) : Run s0 s (commitCall p s) := by
  have hcall : Run s0 s (updRecord p.serial (fun r => { r with
      calls := min (r.calls + 1) 255
      state := if r.state = .queued then .sending else r.state }) (debit p.addr p.debit s)) := by
    refine (debit_run p.addr p.debit s).trans (updRecord_run _ _ _ fun q _ => ⟨rfl, rfl, rfl, rfl, rfl, rfl, id, ?_⟩)
    dsimp only
    split
    · next h => simp [h]
    · exact .rfl
  unfold commitCall
  dsimp only
  split
  · next u hu =>
    refine hcall.trans (placeBoost_run _ _ _ ?_)
    rw [updRecord_planner, (debit_frame p.addr p.debit s).2.2.2.1]
    exact room u hu
  · exact hcall

theorem walkTag_run (c : Cell) (b : Beacon) (m : Mode) (cap : Nat) (acc : List Snapshot × State) (a : Nat) :
    Run s0 acc.2 (walkTag c b m cap acc a).2 := by
  unfold walkTag
  dsimp only
  split
  · exact Run.refl s0 _
  · split
    · exact fileTag_run a _
    · split
      · exact ((raiseFlag_work _ _).run s0).trans (fileTag_run a _)
      · exact commitCall_run _ _ fun u hu => boostOrder_room hu

theorem walk_run (c : Cell) (b : Beacon) (m : Mode) (cap : Nat) (as : List Nat) (acc : List Snapshot × State) :
    Run s0 acc.2 (as.foldl (walkTag c b m cap) acc).2 := by
  induction as generalizing acc with
  | nil => exact Run.refl s0 _
  | cons a as ih => exact (walkTag_run c b m cap acc a).trans (ih _)

theorem takeGrant_run (c : Cell) (s : State) : Run s0 s (takeGrant c s).2 := by
  unfold takeGrant
  split
  · exact Run.refl s0 s
  · next g rest hg =>
    have hsub : ∀ d, ((s.dir.grants.set c rest).get d).Sublist (s.dir.grants.get d) := fun d => by
      rw [Quad.get_set]
      split
      · next h => rw [h, hg]; exact List.sublist_cons_self g rest
      · exact List.Sublist.refl _
    exact (Act.grants _ fun h => ⟨fun d => (hsub d).length_le.trans (h.1 d), h.2.sublist hsub⟩).run

theorem openWindow_run (c : Cell) (b : Beacon) (called : List Snapshot) (s : State) :
    Run s0 s (openWindow c b called s) :=
  (takeGrant_run c s).trans ((windows_work _ _).run s0)

theorem instant_run (c : Cell) (b : Beacon) (g : Geometry) (s : State) : Run s0 s (instant c b g s) := by
  have hbegin : Run s0 s (takeDue c b (beginInstant c b s)).2 := by
    have hfilter : ∀ d, ((s.planner.boosts.modify c fun l => l.filter fun x => !isBefore x.boostEnd b).get d).Sublist
        (s.planner.boosts.get d) := fun d => sublist_modify _ c d _ fun l => List.filter_sublist
    refine (((Act.boosts _ (fun h => h.sublist hfilter) fun h d => (hfilter d).length_le.trans (h d)).run).tail
      (.calendar _ fun h => h.sublist fun d => sublist_modify _ c d _ fun l => List.filter_sublist)).tail
      (.frame (t := (takeDue c b (beginInstant c b s)).2) ⟨rfl, rfl, rfl, rfl, rfl, rfl, rfl⟩)
  have hwalk (due : List Nat) (cap : Nat) (s : State) : Run s0 s (if cap = 0 then (([] : List Snapshot), due.foldl (fun s a => fileTag a s) s)
      else ((dueList s b due).map (·.addr)).foldl (walkTag c b s.store.mode cap) ([], s)).2 := by
    split
    · exact foldl_run (fun s a => fileTag_run a s) due s
    · exact walk_run c b s.store.mode cap _ ([], s)
  unfold instant
  dsimp only
  split
  · exact (hbegin.trans (hwalk _ _ _)).trans (openWindow_run c b _ _)
  · exact hbegin.trans (hwalk _ _ _)

/-! ### Joins -/

theorem recordStranger_run (c : Cell) (b : Beacon) (id : TagId) (s : State) :
    Run s0 s (recordStranger c b id s) := by
  have hadd (l : List Stranger) (x : Stranger) (hl : l.length < 16) (hn : (l.map (·.tagId)).Nodup)
      (hx : ∀ y ∈ l, y.tagId ≠ x.tagId) : StrangerBounds (l ++ [x]) := by
    refine ⟨by simpa using hl, ?_⟩
    rw [List.map_append, List.nodup_append]
    refine ⟨hn, List.nodup_singleton _, ?_⟩
    rintro _ hy _ hz rfl
    obtain ⟨y, hy, hyx⟩ := List.mem_map.mp hy
    exact hx y hy (by simpa [hyx] using hz)
  unfold recordStranger
  split
  · next x hx =>
    refine (Act.strangers _ fun h => hadd _ _ ?_ (h.2.sublist (List.filter_sublist.map _)) fun y hy => ?_).run
    · refine lt_of_lt_of_le ?_ h.1
      exact List.length_filter_lt_length_iff_exists.mpr
        ⟨x, List.mem_of_find?_eq_some hx, by simpa using List.find?_some hx⟩
    · simpa using (List.mem_filter.mp hy).2
  · next hx =>
    have hne : ∀ y ∈ s.dir.strangers, y.tagId ≠ id := by simpa using List.find?_eq_none.mp hx
    dsimp only
    refine Run.trans (Act.strangers _ fun h => ?_).run (SameWork.run s0 ⟨rfl, rfl, rfl, rfl, rfl, rfl, rfl⟩)
    split
    · next hl => exact hadd _ _ hl h.2 hne
    · next hl =>
      refine hadd _ _ ?_ (h.2.sublist ((List.tail_sublist _).map _)) fun y hy => hne y (List.mem_of_mem_tail hy)
      have := h.1
      rw [List.length_tail]
      omega

theorem moveBoost_run (c : Cell) (a : Nat) (s : State) : Run s0 s (moveBoost c a s) := by
  unfold moveBoost
  split
  · exact Run.refl s0 s
  · split
    · exact Run.refl s0 s
    · split
      · next h => exact placeBoost_run _ _ s h
      · exact dropBoost_run a s

theorem joinState_run (c : Cell) (e : Entry) (s : State) : Run s0 s (joinState c e s) := by
  have hnew : EntryEdit fun e => { e with
      state := .present, home := some c, link := if e.state = .lost ∧ e.home = some c then e.link else none } :=
    ⟨fun _ => rfl, fun _ => rfl, fun _ => rfl, fun _ h => h⟩
  have hmoved : EntryEdit fun e => { e with home := some c, link := none } :=
    ⟨fun _ => rfl, fun _ => rfl, fun _ => rfl, fun _ h => h⟩
  unfold joinState
  split
  · exact updEntry_run _ hnew s
  · exact updEntry_run _ hnew s
  · split
    · exact Run.refl s0 s
    · exact ((updEntry_run _ hmoved s).trans (dropCalendar_run _ _)).trans (moveBoost_run c _ _)

theorem queueGrant_run (c : Cell) (e : Entry) (s : State) (room : (s.dir.grants.get c).length < 4) :
    Run s0 s (queueGrant c e s) := by
  refine (dropGrants_run e.tagId s).tail (.grants _ fun h => ⟨fun d => ?_, ?_⟩)
  · rw [Quad.get_modify]
    split
    · next hd =>
      subst hd
      rw [List.length_append, List.length_singleton]
      have : ((dropGrants e.tagId s).dir.grants.get d).length ≤ (s.dir.grants.get d).length := by
        unfold dropGrants
        rw [Quad.get_map]
        exact List.length_filter_le _ _
      omega
    · exact h.1 d
  · refine h.2.add c _ ⟨e.tagId, e.addr⟩ List.perm_append_comm fun d y hy => ?_
    unfold dropGrants at hy
    rw [Quad.get_map] at hy
    simpa using (List.mem_filter.mp hy).2

theorem joinFiling_run (c : Cell) (a : Nat) (s : State) : Run s0 s (joinFiling c a s) := by
  unfold joinFiling
  split
  · exact Run.refl s0 s
  · split
    · exact placeCalendar_run _ _ s
    · exact dropCalendar_run a s

theorem joinState_grants (c : Cell) (e : Entry) (s : State) : (joinState c e s).dir.grants = s.dir.grants := by
  unfold joinState
  split
  · rfl
  · rfl
  · split
    · rfl
    · unfold moveBoost
      split
      · rfl
      · split
        · rfl
        · split <;> rfl

theorem acceptJoin_run (c : Cell) (j : Join) (e : Entry) (s : State) (room : (s.dir.grants.get c).length < 4) :
    Run s0 s (acceptJoin c j e s) := by
  have hedit : EntryEdit (Entry.afterJoin j) := ⟨fun _ => rfl, fun _ => rfl, fun _ => rfl, fun _ h => h⟩
  refine (((joinState_run c e s).trans (updEntry_run e.addr hedit _)).trans (queueGrant_run c e _ ?_)).trans
    (joinFiling_run c _ _)
  rw [updEntry_dir]
  dsimp only
  rwa [joinState_grants]

theorem screenJoin_run (c : Cell) (b : Beacon) (j : Join) (s : State) : Run s0 s (screenJoin c b j s) := by
  unfold screenJoin
  split
  · exact Run.refl s0 s
  · split
    · exact recordStranger_run _ _ _ s
    · split
      · exact Run.refl s0 s
      · split
        · exact Run.refl s0 s
        · next h =>
          split
          · exact Run.refl s0 s
          · exact acceptJoin_run c j _ s (not_le.mp h)

theorem joinSlotEnd_run (c : Cell) (heard : JoinHeard) (s : State) : Run s0 s (joinSlotEnd c heard s) := by
  unfold joinSlotEnd
  split
  · exact Run.refl s0 s
  · split
    · dsimp only
      split
      · exact (windows_work _ s).run s0
      · exact (screenJoin_run _ _ _ s).trans ((windows_work _ _).run s0)
    · exact Run.refl s0 s

/-! ### Resets -/

theorem startUp_run (stored : StoredBlock) (heads : Quad Bool) (n : Nat) (pending : List Instr) (s : State) :
    Run s0 s (startUp stored heads n pending) :=
  (Act.clear (.inl rfl) (.inl rfl) (.inl rfl) rfl rfl rfl rfl rfl rfl).run

theorem actWarm_run (s : State) : Run s0 s (actWarm s) :=
  Run.trans (Act.clear (t := clearWork s) (.inr rfl) (.inr rfl) (.inr rfl) rfl rfl rfl rfl rfl rfl).run
    (foldl_run (fun s a => fileTag_run a s) _ _)

theorem actKind_run (k : ResetKind) (s : State) : Run s0 s (actKind k s) := by
  cases k with
  | cold => exact (Act.clear (.inl rfl) (.inl rfl) (.inl rfl) rfl rfl rfl rfl rfl rfl).run
  | warm => exact actWarm_run s

theorem line_work (l : HostLine) (s : State) : SameWork s { s with line := l } := ⟨rfl, rfl, rfl, rfl, rfl, rfl, rfl⟩

theorem sendThrough_line (p : Frame → Bool) (s : State) : ∃ l, sendThrough p s = { s with line := l } := by
  obtain h | ⟨_, f, rest, flow, free, rate, due, _, _, h⟩ := sendThrough_eq p s
  · exact ⟨s.line, h⟩
  · exact ⟨_, h⟩

theorem resetActs_run (s : State) : Run s0 s (resetActs s) := by
  unfold resetActs
  split
  · obtain ⟨l, h⟩ := sendThrough_line isResetReply s
    rw [h]
    exact ((line_work l s).run s0).trans (actKind_run _ _)
  · exact Run.refl s0 s

theorem lineBreak_run (s : State) : Run s0 s (lineBreak s) := by
  have hbreak : Run s0 s (breakLine (if s.line.rx = .hunt then s else dropFrame s)) := by
    split <;> exact SameWork.run s0 ⟨rfl, rfl, rfl, rfl, rfl, rfl, rfl⟩
  unfold lineBreak
  dsimp only
  split
  · exact hbreak.trans (actKind_run _ _)
  · exact hbreak

end Sys2Proof.Machine
end

section
/-! Acts of the requests that need the directory, the table and the live changes in order: the refresh, REMOVE, and the admission
of POST-CHANGE. -/

namespace Sys2Proof.Machine

variable {s0 : State}

/-! ### Looking up -/

theorem entryAt_mem {s : State} {a : Nat} {e : Entry} (h : s.entryAt a = some e) : e ∈ s.dir.entries ∧ e.addr = a :=
  ⟨List.mem_of_find?_eq_some h, by simpa using List.find?_some h⟩

theorem entryOf_mem {s : State} {id : TagId} {e : Entry} (h : s.entryOf id = some e) : e ∈ s.dir.entries ∧ e.tagId = id :=
  ⟨List.mem_of_find?_eq_some h, by simpa using List.find?_some h⟩

/-- Two entries at one short address are one entry. -/
theorem DirectoryLaw.eq_of_addr {s : State} (h : DirectoryLaw s) {d e : Entry} (hd : d ∈ s.dir.entries)
    (he : e ∈ s.dir.entries) (ha : d.addr = e.addr) : d = e := by
  obtain ⟨hsorted, _, _⟩ := h
  have hnodup : (s.dir.entries.map (·.addr)).Nodup :=
    List.pairwise_map.mpr (hsorted.imp fun hlt => Nat.ne_of_lt hlt)
  exact List.inj_on_of_nodup_map hnodup hd he ha

theorem DirectoryLaw.entryAt {s : State} (h : DirectoryLaw s) {e : Entry} (he : e ∈ s.dir.entries) :
    s.entryAt e.addr = some e := by
  cases hx : s.entryAt e.addr with
  | none => exact absurd (List.find?_eq_none.mp hx e he) (by simp)
  | some x =>
    obtain ⟨hm, ha⟩ := entryAt_mem hx
    rw [h.eq_of_addr hm he ha]

/-- Two records of one serial are one record. -/
theorem TableLaw.eq_of_serial {s : State} (h : TableLaw s) {q r : Change} (hq : q ∈ s.table.records)
    (hr : r ∈ s.table.records) (hs : q.serial = r.serial) : q = r :=
  List.inj_on_of_nodup_map h.2.1 hq hr hs

theorem TableLaw.recordOf {s : State} (h : TableLaw s) {r : Change} (hr : r ∈ s.table.records) :
    s.recordOf r.serial = some r := by
  have hz : r.serial ≠ 0 := (h.2.2 r hr).1
  cases hx : s.recordOf r.serial with
  | none =>
    unfold State.recordOf at hx
    rw [if_neg hz] at hx
    exact absurd (List.find?_eq_none.mp hx r hr) (by simp)
  | some q => rw [h.eq_of_serial (recordOf_mem hx) hr (recordOf_serial hx)]

/-- The live change of an entry is a live record of it (R62). -/
theorem Orderly.liveRecord {s : State} (h : Orderly s) {e : Entry} (he : e ∈ s.dir.entries) {k : Serial}
    (hk : e.live = some k) :
    ∃ r, s.recordOf k = some r ∧ r.addr = e.addr ∧ r.tagId = e.tagId ∧ r.state ≠ .finished := by
  obtain ⟨r, hr, hs, ha, ht, hl⟩ := h.live.1 e he k hk
  exact ⟨r, by rw [← hs]; exact h.table.recordOf hr, ha, ht, hl⟩

theorem Orderly.live_none {s : State} (h : Orderly s) {e : Entry} (he : e ∈ s.dir.entries)
    (hn : s.liveRecord e = none) : e.live = none := by
  cases hk : e.live with
  | none => rfl
  | some k =>
    obtain ⟨r, hr, _⟩ := h.liveRecord he hk
    simp [State.liveRecord, hk, hr] at hn

/-- An entry at short address `a` whose live change is `k` has none from now on (R81, step 3). -/
def Entry.cleared (a : Nat) (k : Serial) (e : Entry) : Entry :=
  if e.addr = a ∧ e.live = some k then { e with live := none } else e

@[simp] theorem cleared_addr (a : Nat) (k : Serial) (e : Entry) : (e.cleared a k).addr = e.addr := by
  unfold Entry.cleared; split <;> rfl

@[simp] theorem cleared_tagId (a : Nat) (k : Serial) (e : Entry) : (e.cleared a k).tagId = e.tagId := by
  unfold Entry.cleared; split <;> rfl

theorem cleared_live (a : Nat) (k : Serial) (e : Entry) :
    (e.cleared a k).live = if e.addr = a ∧ e.live = some k then none else e.live := by
  unfold Entry.cleared; split <;> rfl

theorem clearLive_dir (a : Nat) (k : Serial) (s : State) :
    (clearLive a k s).dir = { s.dir with entries := s.dir.entries.map (Entry.cleared a k) } := by
  refine congrArg (fun es => { s.dir with entries := es }) (List.map_congr_left fun e _ => ?_)
  beta_reduce
  unfold Entry.cleared
  by_cases ha : e.addr = a
  · rw [if_pos ha]
    by_cases hk : e.live = some k
    · rw [if_pos hk, if_pos ⟨ha, hk⟩]
    · rw [if_neg hk, if_neg fun h => hk h.2]
  · rw [if_neg ha, if_neg fun h => ha h.1]

/-! ### Passing records -/

/-- A record is found by the records alone. -/
theorem recordOf_congr {s t : State} (h : t.table.records = s.table.records) (j : Serial) :
    t.recordOf j = s.recordOf j := by
  unfold State.recordOf
  rw [h]

theorem recordOf_of_filtered {s t : State} {j k : Serial} {r : Change}
    (ht : t.table.records = s.table.records.filter fun r => decide (r.serial ≠ k)) (h : t.recordOf j = some r) :
    s.recordOf j = some r := by
  have hj := recordOf_serial h
  have hm := recordOf_mem h
  unfold State.recordOf at h ⊢
  split at h
  · exact absurd h (by simp)
  · next hz =>
    rw [if_neg hz]
    rw [ht, List.find?_filter] at h
    rw [← h]
    congr 1
    funext x
    rw [ht] at hm
    have hne : j ≠ k := hj ▸ by simpa using (List.mem_filter.mp hm).2
    by_cases hx : x.serial = j <;> simp [hx, hne]

/-- The head of the retire queue, FINISHED with an outcome, leaves the table for the outcome list (R82). -/
theorem passHead_some {s : State} {k : Serial} {rest : List Serial} {r : Change} {o : OutcomeRecord}
    (h : s.table.retire = k :: rest) (hr : s.recordOf k = some r) (ho : r.outcomeRecord = some o) :
    passHead s = latchTrigger (tallyOutcome o.campaign o.code { s with
      table.retire := rest
      table.records := s.table.records.filter fun r => decide (r.serial ≠ k)
      table.outcomes := s.table.outcomes ++ [o] }) := by
  unfold passHead
  rw [h]
  dsimp only
  rw [hr, Option.bind_some, ho]

/-- A serial without a FINISHED record behind it leaves the retire queue alone. -/
theorem passHead_none {s : State} {k : Serial} {rest : List Serial} (h : s.table.retire = k :: rest)
    (hr : (s.recordOf k).bind Change.outcomeRecord = none) : passHead s = { s with table.retire := rest } := by
  unfold passHead
  rw [h]
  dsimp only
  rw [hr]

/-- Passing a record keeps the records or drops those of one serial, and keeps the next serial and sequence. -/
theorem passHead_records (s : State) :
    (passHead s).table.records = s.table.records
      ∨ ∃ k, (passHead s).table.records = s.table.records.filter fun r => decide (r.serial ≠ k) := by
  cases h : s.table.retire with
  | nil => exact .inl (by unfold passHead; rw [h])
  | cons k rest =>
    obtain h1 | ⟨_, _, _, _, h1⟩ := passHead_table s k rest h
    · exact .inl (by rw [h1])
    · exact .inr ⟨k, by rw [h1]⟩

theorem passRecords_recordOf {n : Nat} {s : State} {j : Serial} {r : Change}
    (h : (passRecords n s).recordOf j = some r) : s.recordOf j = some r := by
  induction n generalizing s with
  | zero => exact h
  | succ n ih =>
    unfold passRecords at h
    split at h
    · exact h
    · have hp := ih h
      obtain hs | ⟨k, hs⟩ := passHead_records s
      · rwa [recordOf_congr hs] at hp
      · exact recordOf_of_filtered hs hp

theorem passRecords_sublist (n : Nat) (s : State) : (passRecords n s).table.records.Sublist s.table.records := by
  induction n generalizing s with
  | zero => exact List.Sublist.refl _
  | succ n ih =>
    unfold passRecords
    split
    · exact List.Sublist.refl _
    · refine (ih _).trans ?_
      obtain hs | ⟨k, hs⟩ := passHead_records s
      · exact hs ▸ List.Sublist.refl _
      · exact hs ▸ List.filter_sublist

theorem joinRetire_table (k : Serial) (s : State) :
    (joinRetire k s).table = (passAll { s with table.retire := s.table.retire ++ [k] }).table := by
  unfold joinRetire
  dsimp only
  split <;> rfl

theorem joinRetire_campaigns (k : Serial) (s : State) :
    (joinRetire k s).campaigns = (passAll { s with table.retire := s.table.retire ++ [k] }).campaigns := by
  unfold joinRetire
  dsimp only
  split <;> rfl

theorem joinRetire_recordOf {s : State} {j k : Serial} {r : Change} (h : (joinRetire k s).recordOf j = some r) :
    s.recordOf j = some r := by
  rw [recordOf_congr (s := passAll { s with table.retire := s.table.retire ++ [k] }) (by rw [joinRetire_table])] at h
  exact passRecords_recordOf (s := { s with table.retire := s.table.retire ++ [k] }) h

theorem joinRetire_sublist (k : Serial) (s : State) : (joinRetire k s).table.records.Sublist s.table.records := by
  rw [joinRetire_table]
  exact passRecords_sublist _ _

@[simp] theorem endRecord_table (k : Serial) (code : OutcomeCode) (r : Change) (s : State) :
    (endRecord k code r s).table = (updRecord k (Change.closed code s.air.beacon) s).table := by
  unfold endRecord
  rw [(updCampaign_dir _ _ _).2.2.1]
  rfl

@[simp] theorem endRecord_dir (k : Serial) (code : OutcomeCode) (r : Change) (s : State) :
    (endRecord k code r s).dir = s.dir := by
  unfold endRecord
  rw [(updCampaign_dir _ _ _).1]
  rfl

@[simp] theorem endRecord_pool (k : Serial) (code : OutcomeCode) (r : Change) (s : State) :
    (endRecord k code r s).pool = s.pool.release k := by
  unfold endRecord
  rw [(updCampaign_dir _ _ _).2.1]
  rfl

@[simp] theorem endRecord_planner (k : Serial) (code : OutcomeCode) (r : Change) (s : State) :
    (endRecord k code r s).planner = s.planner := by
  unfold endRecord
  rw [(updCampaign_dir _ _ _).2.2.2.1]
  rfl

/-- The finishing of one record finds every other as it was, or gone. -/
theorem finish_recordOf_ne {s : State} {j k : Serial} {r : Change} {code : OutcomeCode} (hj : j ≠ k)
    (h : (finish k code false s).recordOf j = some r) : s.recordOf j = some r := by
  cases hk : s.recordOf k with
  | none => rwa [finish_none code false hk] at h
  | some q =>
    rw [finish_eq code hk] at h
    have h2 : (updRecord k (Change.closed code s.air.beacon) s).recordOf j = some r := by
      rw [← joinRetire_recordOf h]
      exact recordOf_congr (by simp) j
    rw [recordOf_updRecord (f := Change.closed code s.air.beacon) (fun _ => rfl)] at h2
    obtain ⟨x, hx, rfl⟩ := Option.map_eq_some_iff.mp h2
    rw [if_neg (by rw [recordOf_serial hx]; exact hj), hx]

/-- A finishing takes the live change from the entry that has it, and leaves the rest of the directory. -/
theorem finish_dir {s : State} {k : Serial} {r : Change} (code : OutcomeCode) (hr : s.recordOf k = some r) :
    (finish k code false s).dir = (clearLive r.addr k s).dir := by
  rw [finish_eq code hr, (joinRetire_frame _ _).2.1]
  simp [clearLive]

/-! ### The refresh -/

/-- Records of distinct serials, none of them FINISHED, finish one after another. -/
theorem finishAll_run (xs : List (Serial × OutcomeCode)) (u : State)
    (h : Orderly s0 → (xs.map (·.1)).Nodup ∧ ∀ x ∈ xs, ∀ r, u.recordOf x.1 = some r → r.state ≠ .finished) :
    Run s0 u (xs.foldl (fun s x => finish x.1 x.2 false s) u) := by
  induction xs generalizing u with
  | nil => exact Run.refl s0 u
  | cons x xs ih =>
    refine (finish_run x.1 x.2 u fun r hr ho => (h ho).2 x List.mem_cons_self r hr).trans (ih _ fun ho => ?_)
    obtain ⟨hnodup, hlive⟩ := h ho
    rw [List.map_cons, List.nodup_cons] at hnodup
    refine ⟨hnodup.2, fun y hy r hr => ?_⟩
    have hne : y.1 ≠ x.1 := fun he => hnodup.1 (he ▸ List.mem_map_of_mem hy)
    exact hlive y (List.mem_cons_of_mem x hy) r (finish_recordOf_ne hne hr)

theorem renewed_edit : EntryEdit Entry.renewed where
  addr _ := rfl
  tagId _ := rfl
  live _ := rfl
  charged e h := by
    refine ⟨le_rfl, ?_, h.2.2⟩
    unfold Entry.renewed scaledAllowance
    dsimp only
    split
    · exact le_rfl
    · split
      · exact le_rfl
      · split
        · exact Nat.div_le_self _ _
        · exact Nat.zero_le _

theorem refreshEnds_live {s : State} {e : Entry} {x : Serial × OutcomeCode} (h : refreshEnds s e = some x) :
    e.live = some x.1 ∧ ∃ r, s.recordOf x.1 = some r ∧ r.state ≠ .finished := by
  unfold refreshEnds at h
  split at h
  · obtain ⟨r, hr, hx⟩ := Option.bind_eq_some_iff.mp h
    obtain ⟨code, hc, rfl⟩ := Option.map_eq_some_iff.mp hx
    obtain ⟨hl, hk⟩ := liveRecord_eq_some hr
    refine ⟨hl, r, hk, ?_⟩
    rintro hf
    simp [refreshOutcome, hf] at hc
  · exact absurd h (by simp)

/-- The part once its accounts are renewed (R116). -/
def renewedState (s : State) : State := { s with dir.entries := s.dir.entries.map Entry.renewed }

/-- The live changes a refresh ends, each with its outcome, in rising order of short address (R117). -/
def refreshList (s : State) : List (Serial × OutcomeCode) :=
  (renewedState s).dir.entries.filterMap (refreshEnds (renewedState s))

theorem refresh_eq (s : State) :
    refresh s = (refreshList s).foldl (fun s x => finish x.1 x.2 false s) (renewedState s) := rfl

/-- A refresh ends each live change once (R62, R117). -/
theorem refreshList_distinct {s : State} (ho : Orderly s) : ((refreshList s).map (·.1)).Nodup := by
  have hpair : (s.dir.entries.map Entry.renewed).Pairwise fun d e => ∀ x,
      refreshEnds (renewedState s) d = some x → ∀ y, refreshEnds (renewedState s) e = some y → x.1 ≠ y.1 := by
    refine List.pairwise_map.mpr (ho.directory.1.imp_of_mem fun {d e} hd he hlt x hx y hy hxy => ?_)
    obtain ⟨hdl, _⟩ := refreshEnds_live hx
    obtain ⟨hel, _⟩ := refreshEnds_live hy
    obtain ⟨q, hq, hqa, _⟩ := ho.liveRecord hd hdl
    obtain ⟨r, hr, hra, _⟩ := ho.liveRecord he hel
    rw [hxy, hr, Option.some.injEq] at hq
    subst hq
    omega
  exact List.pairwise_map.mpr (hpair.filterMap _ fun a b hab x hx y hy => hab x hx y hy)

theorem refreshList_live (s : State) : ∀ x ∈ refreshList s, ∀ r, s.recordOf x.1 = some r → r.state ≠ .finished := by
  intro x hx r hr
  obtain ⟨e, _, he⟩ := List.mem_filterMap.mp hx
  obtain ⟨_, q, hq, hlive⟩ := refreshEnds_live he
  have hqr : q = r := Option.some.inj (hq.symm.trans hr)
  exact hqr ▸ hlive

theorem refresh_run (s : State) : Run s s (refresh s) :=
  (Act.edit Entry.renewed renewed_edit).run.trans (finishAll_run _ _ fun ho =>
    ⟨refreshList_distinct ho, refreshList_live s⟩)

/-! ### REMOVE -/

theorem actRemove_run (payload : List Byte) (s : State) : Run s s (actRemove payload s).2 := by
  unfold actRemove
  split
  · exact Run.refl s s
  · next e he =>
    have hmem := (entryOf_mem he).1
    split
    · next hl =>
      refine deleteEntry_run e s fun ho x hx hxa => ?_
      rw [ho.directory.eq_of_addr hx hmem hxa]
      exact ho.live_none hmem hl
    · next r hr =>
      obtain ⟨hlive, hrec⟩ := liveRecord_eq_some hr
      split
      · next hq =>
        refine (finish_run r.serial .cancelled s fun q hq' _ => ?_).trans (deleteEntry_run e _ fun ho x hx hxa => ?_)
        · rw [hrec, Option.some.injEq] at hq'
          simp [← hq', hq]
        · rw [finish_dir _ hrec, clearLive_dir] at hx
          obtain ⟨y, hy, rfl⟩ := List.mem_map.mp hx
          rw [cleared_addr] at hxa
          obtain rfl := ho.directory.eq_of_addr hy hmem hxa
          obtain ⟨q, hq', hqa, _⟩ := ho.liveRecord hmem hlive
          obtain rfl := Option.some.inj (hrec.symm.trans hq')
          rw [cleared_live, if_pos ⟨hqa.symm, hlive⟩]
      · exact Run.refl s s

/-! ### The admission -/

/-- The search for a serial ends at the first candidate that is not passed over (R64). -/
theorem findSerial_first (s : State) (e : Entry) (n : Nat) (k : Serial) :
    ∃ d, d ≤ n ∧ findSerial s e n k = k + BitVec.ofNat 16 d
      ∧ (∀ j, j < d → serialTaken s e (k + BitVec.ofNat 16 j) = true)
      ∧ (d < n → serialTaken s e (k + BitVec.ofNat 16 d) = false) := by
  induction n generalizing k with
  | zero => exact ⟨0, le_rfl, by simp [findSerial], by simp, by simp⟩
  | succ n ih =>
    unfold findSerial
    split
    · next hk =>
      have hshift : ∀ j : Nat, k + 1 + BitVec.ofNat 16 j = k + BitVec.ofNat 16 (j + 1) := fun j => by
        rw [BitVec.add_assoc]
        congr 1
        rw [add_comm j 1, BitVec.ofNat_add]
        rfl
      obtain ⟨d, hd, hf, hbefore, hat⟩ := ih (k + 1)
      refine ⟨d + 1, by omega, by rw [hf, hshift], fun j hj => ?_, fun h => by rw [← hshift]; exact hat (by omega)⟩
      cases j with
      | zero => simpa using hk
      | succ j => rw [← hshift]; exact hbefore j (by omega)
    · next hk => exact ⟨0, by omega, by simp, by simp, fun _ => by simpa using hk⟩

/-- Fewer serials are passed over than are tried, so the search finds one that is not (R64). -/
theorem findSerial_free {s : State} (e : Entry) (h : s.table.records.length ≤ 4096) (k : Serial) :
    ∃ d, findSerial s e 4100 k = k + BitVec.ofNat 16 d
      ∧ (∀ j, j < d → serialTaken s e (k + BitVec.ofNat 16 j) = true)
      ∧ serialTaken s e (findSerial s e 4100 k) = false := by
  obtain ⟨d, hd, hf, hbefore, hat⟩ := findSerial_first s e 4100 k
  refine ⟨d, hf, hbefore, ?_⟩
  rw [hf]
  refine hat (lt_of_le_of_ne hd ?_)
  rintro rfl
  have hnodup : ((List.range 4100).map fun j => k + BitVec.ofNat 16 j).Nodup := by
    refine List.Nodup.map_on (fun i hi j hj hij => ?_) List.nodup_range
    rw [List.mem_range] at hi hj
    have hnat := congrArg BitVec.toNat (add_left_cancel hij)
    simp only [BitVec.toNat_ofNat] at hnat
    omega
  have hsub : ((List.range 4100).map fun j => k + BitVec.ofNat 16 j)
      ⊆ 0 :: e.shown.toList ++ (e.staged.map (·.serial)).toList ++ s.table.records.map (·.serial) := by
    intro x hx
    obtain ⟨j, hj, rfl⟩ := List.mem_map.mp hx
    have ht := hbefore j (List.mem_range.mp hj)
    simp only [serialTaken, Bool.or_eq_true, decide_eq_true_eq, List.any_eq_true] at ht
    simp only [List.cons_append, List.mem_cons, List.mem_append, Option.mem_toList, List.mem_map]
    obtain ((hzero | hrecord) | hshown) | hstaged := ht
    · exact .inl hzero
    · exact .inr (.inr hrecord)
    · exact .inr (.inl (.inl hshown))
    · exact .inr (.inl (.inr hstaged))
  have hlen := (hnodup.subperm hsub).length_le
  have hshown : e.shown.toList.length ≤ 1 := by cases e.shown <;> simp
  have hstaged : (e.staged.map (·.serial)).toList.length ≤ 1 := by cases e.staged <;> simp
  simp only [List.length_map, List.length_range, List.length_append, List.length_cons] at hlen
  omega

theorem serialTaken_eq_false {s : State} {e : Entry} {k : Serial} (h : serialTaken s e k = false) :
    k ≠ 0 ∧ (∀ r ∈ s.table.records, r.serial ≠ k) ∧ e.shown ≠ some k ∧ e.staged.map (·.serial) ≠ some k := by
  simpa [serialTaken, and_assoc] using h

/-! Passing records does not look at the directory. -/

theorem latchTrigger_setDir (d : Directory) (s : State) :
    latchTrigger { s with dir := d } = { latchTrigger s with dir := d } := by
  unfold latchTrigger
  by_cases h : s.handler.latch = .armed ∧ s.store.working.outcomeTrigger ≤ s.table.outcomes.length
  · rw [if_pos h, if_pos h]; rfl
  · rw [if_neg h, if_neg h]

theorem tallyOutcome_setDir (i : Option CampaignIndex) (code : OutcomeCode) (d : Directory) (s : State) :
    tallyOutcome i code { s with dir := d } = { tallyOutcome i code s with dir := d } := by
  cases i with
  | none => rfl
  | some i =>
    unfold tallyOutcome doneCheck
    dsimp only
    split <;> rfl

theorem passHead_setDir (d : Directory) (s : State) : passHead { s with dir := d } = { passHead s with dir := d } := by
  cases h : s.table.retire with
  | nil => unfold passHead; rw [h]
  | cons k rest =>
    cases ho : (s.recordOf k).bind Change.outcomeRecord with
    | none => rw [passHead_none h ho, passHead_none (s := { s with dir := d }) h ho]
    | some o =>
      obtain ⟨r, hr, hro⟩ := Option.bind_eq_some_iff.mp ho
      rw [passHead_some h hr hro, passHead_some (s := { s with dir := d }) h hr hro, ← latchTrigger_setDir,
        ← tallyOutcome_setDir]

theorem passRecords_setDir (n : Nat) (d : Directory) (s : State) :
    passRecords n { s with dir := d } = { passRecords n s with dir := d } := by
  induction n generalizing s with
  | zero => rfl
  | succ n ih =>
    unfold passRecords
    by_cases h : s.table.retire = [] ∨ 1024 ≤ s.table.outcomes.length
    · rw [if_pos h, if_pos h]
    · rw [if_neg h, if_neg h, passHead_setDir, ih]

theorem joinRetire_setDir (k : Serial) (d : Directory) (s : State) :
    joinRetire k { s with dir := d } = { joinRetire k s with dir := d } := by
  have h := passRecords_setDir (s.table.retire ++ [k]).length d { s with table.retire := s.table.retire ++ [k] }
  unfold joinRetire passAll
  dsimp only at h ⊢
  rw [h]
  split <;> rfl

/-- A campaign that is OPEN stays so while records pass (R103). -/
theorem passHead_opened {s : State} {i : CampaignIndex} (h : (s.campaigns.get i).state = .opened) :
    ((passHead s).campaigns.get i).state = .opened := by
  have hdone (j : CampaignIndex) (u : State) (hu : (u.campaigns.get i).state = .opened) :
      ((doneCheck j u).campaigns.get i).state = .opened := by
    obtain hd | ⟨hc, _, d, rfl, hd⟩ := doneCheck_eq j u <;> rw [hd]
    · exact hu
    · rw [Quad.get_set]
      split
      · next hij => subst hij; rw [hu] at hc; cases hc
      · exact hu
  unfold passHead
  split
  · exact h
  · split
    · exact h
    · next o _ =>
      rw [(latchTrigger_dir _).2.2.2.2.1]
      unfold tallyOutcome
      split
      · exact h
      · refine hdone _ _ ?_
        rw [Quad.get_modify]
        split <;> exact h

theorem passRecords_opened {n : Nat} {s : State} {i : CampaignIndex} (h : (s.campaigns.get i).state = .opened) :
    ((passRecords n s).campaigns.get i).state = .opened := by
  induction n generalizing s with
  | zero => exact h
  | succ n ih =>
    unfold passRecords
    split
    · exact h
    · exact ih (passHead_opened h)

theorem updCampaign_state (j : Option CampaignIndex) (f : Campaign → Campaign) (hf : ∀ c, (f c).state = c.state)
    (s : State) (i : CampaignIndex) : ((updCampaign j f s).campaigns.get i).state = (s.campaigns.get i).state := by
  cases j with
  | none => rfl
  | some j =>
    rw [updCampaign_some, Quad.get_modify]
    split
    · exact hf _
    · rfl

theorem endRecord_state (k : Serial) (code : OutcomeCode) (r : Change) (s : State) (i : CampaignIndex) :
    ((endRecord k code r s).campaigns.get i).state = (s.campaigns.get i).state :=
  updCampaign_state r.campaign (fun c => { c with live := c.live - 1 }) (fun _ => rfl) (closeRecord k code s) i

/-- The superseded record of an admission, or the last one that waits alone, makes room for the new one (R68). -/
theorem joinRetire_room {s : State} {k : Serial} {r : Change} (code : OutcomeCode) (ht : TableLaw s)
    (hr : s.recordOf k = some r) (hretire : s.table.retire = []) (hroom : s.table.outcomes.length < 1024) :
    (joinRetire k (endRecord k code r s)).table.records.length < 4096 := by
  rw [joinRetire_table]
  generalize hu : ({ endRecord k code r s with table.retire := (endRecord k code r s).table.retire ++ [k] } : State) = u
  have hretire' : u.table.retire = [k] := by rw [← hu]; simp [hretire]
  have hout : u.table.outcomes.length < 1024 := by rw [← hu]; simpa using hroom
  have hrec : u.recordOf k = some (r.closed code s.air.beacon) := by
    rw [← recordOf_updRecord_same (f := Change.closed code s.air.beacon) (fun _ => rfl) hr, ← hu]
    exact recordOf_congr (by simp) k
  have hlen : u.table.records.length ≤ 4096 := by rw [← hu]; simpa using ht.1
  unfold passAll
  rw [hretire', List.length_singleton]
  unfold passRecords passRecords
  rw [if_neg (by simp [hretire', hout])]
  obtain ⟨o, ho⟩ : ∃ o, (r.closed code s.air.beacon).outcomeRecord = some o := ⟨_, rfl⟩
  rw [passHead_some hretire' hrec ho, (latchTrigger_dir _).2.2.1, (tallyOutcome_dir _ _ _).2.2.1]
  refine lt_of_lt_of_le ?_ hlen
  exact List.length_filter_lt_length_iff_exists.mpr ⟨_, recordOf_mem hrec, by simp [recordOf_serial hrec]⟩

/-- What an admission has tested (R66 to R68): the entry, the campaign, the superseded record, table and pool room. -/
structure Admissible (e : Entry) (campaign : Option CampaignIndex) (blocks : List (List Byte)) (superseded : Option Change)
    (s : State) : Prop where
  entry  : e ∈ s.dir.entries
  live   : s.liveRecord e = superseded
  states : ∀ r, superseded = some r → r.campaign = campaign ∧ (r.state = .queued ∨ r.state = .sending ∨ r.state = .staged)
  opened : ∀ i, campaign = some i → (s.campaigns.get i).state = .opened
  few    : blocks.length ≤ 32
  table  : tableHasRoom s superseded = true
  pool   : poolHasRoom s superseded blocks.length = true

/-- What a record is admitted to: the counters advanced, and the superseded record, if there is one, finished within the
admission (R69, step 1). -/
def beforeAppend (new : Change) (superseded : Option Change) (s : State) : State :=
  let s := { s with table.nextSerial := new.serial + 1, table.nextSequence := s.table.nextSequence + 1 }
  match superseded with
  | some r => finish r.serial .superseded true s
  | none => s

/-- An admission appends its record to what stands before it, sets POOL_LOW where that is due, and tells the Call Planner. -/
theorem takeChange_eq (e : Entry) (new : Change) (blocks : List (List Byte)) (superseded : Option Change) (s : State) :
    ∃ h, takeChange e new blocks superseded s
        = workNotice e.addr { appendRecord e.addr new blocks (beforeAppend new superseded s) with handler := h }
      ∧ (h = (beforeAppend new superseded s).handler
          ∨ h = (raiseFlag .poolLow (beforeAppend new superseded s)).handler) := by
  unfold takeChange
  dsimp only
  change ∃ h, workNotice e.addr (updCampaign new.campaign _ (updEntry e.addr _ (poolLowTest s.pool.free
    { beforeAppend new superseded s with
      table.records := (beforeAppend new superseded s).table.records ++ [new]
      pool := (beforeAppend new superseded s).pool.take new.serial blocks }))) = _ ∧ _
  generalize beforeAppend new superseded s = u
  unfold poolLowTest appendRecord
  split
  · refine ⟨_, ?_, .inr rfl⟩
    cases new.campaign <;> rfl
  · refine ⟨_, ?_, .inl rfl⟩
    cases new.campaign <;> rfl

theorem appendRecord_clearLive (a : Nat) (k : Serial) (new : Change) (blocks : List (List Byte)) (s : State) :
    appendRecord a new blocks (clearLive a k s) = appendRecord a new blocks s := by
  have hentries : ((clearLive a k s).dir.entries.map fun e => if e.addr = a then { e with live := some new.serial } else e)
      = s.dir.entries.map fun e => if e.addr = a then { e with live := some new.serial } else e := by
    rw [clearLive_dir, List.map_map]
    refine List.map_congr_left fun x _ => ?_
    simp only [Function.comp, cleared_addr]
    unfold Entry.cleared
    by_cases hx : x.addr = a
    · rw [if_pos hx, if_pos hx]
      split <;> rfl
    · rw [if_neg hx, if_neg hx, if_neg fun h => hx h.1]
  have hupd : updEntry a (fun e => { e with live := some new.serial })
      { clearLive a k s with
        table.records := (clearLive a k s).table.records ++ [new]
        pool := (clearLive a k s).pool.take new.serial blocks }
      = updEntry a (fun e => { e with live := some new.serial })
        { s with table.records := s.table.records ++ [new], pool := s.pool.take new.serial blocks } := by
    unfold updEntry
    dsimp only
    rw [hentries]
    rfl
  unfold appendRecord
  rw [hupd]

theorem admit_run {e : Entry} {campaign : Option CampaignIndex} {blocks : List (List Byte)} {superseded : Option Change}
    {s : State} (h : Admissible e campaign blocks superseded s) :
    Run s s (takeChange e (newChange s e campaign blocks superseded) blocks superseded s) := by
  set new := newChange s e campaign blocks superseded with hnew
  have htaken (ht : TableLaw s) : new.serial ≠ 0 ∧ ∀ r ∈ s.table.records, r.serial ≠ new.serial := by
    obtain ⟨_, _, _, hfree⟩ := findSerial_free e ht.1 s.table.nextSerial
    obtain ⟨hz, hr, _⟩ := serialTaken_eq_false hfree
    exact ⟨hz, hr⟩
  obtain ⟨handler, htake, _⟩ := takeChange_eq e new blocks superseded s
  rw [htake]
  set s1 : State := { s with table.nextSerial := new.serial + 1, table.nextSequence := s.table.nextSequence + 1 } with hs1
  have hcount : SameWork s s1 := ⟨rfl, rfl, rfl, rfl, rfl, rfl, rfl⟩
  refine Run.trans ?_ (workNotice_run _ _)
  refine Relation.ReflTransGen.tail (b := appendRecord e.addr new blocks (beforeAppend new superseded s)) ?_ (.frame (sameWork_handler _ _))
  cases hsup : superseded with
  | none =>
    subst hsup
    refine (hcount.run s).tail (.append e.addr new blocks ?_)
    have htab := h.table
    have hpool := h.pool
    simp only [tableHasRoom, Option.isSome_none, Bool.false_and, Bool.or_false, decide_eq_true_eq] at htab
    simp only [poolHasRoom, Option.map_none, Option.getD_none, add_zero, decide_eq_true_eq] at hpool
    exact {
      room := fun _ => htab
      fresh := fun ht => (htaken ht).2
      nonzero := fun ht => (htaken ht).1
      acked := rfl, count := rfl, few := h.few, outcome := rfl, state := rfl
      free := hpool
      opened := h.opened
      addr := rfl
      entry := ⟨e, h.entry, rfl, rfl⟩
      idle := fun ho x hx hxa => by
        rw [ho.directory.eq_of_addr hx h.entry hxa]
        exact ho.live_none h.entry h.live }
  | some r =>
    have hlive : s.liveRecord e = some r := h.live.trans hsup
    obtain ⟨hel, hrec⟩ := liveRecord_eq_some hlive
    have hrec1 : s1.recordOf r.serial = some r := hrec
    obtain ⟨hcamp, hstate⟩ := h.states r hsup
    set u := endRecord r.serial .superseded r s1 with hu
    have hbefore : beforeAppend new (some r) s = joinRetire r.serial u := finish_within _ hrec1
    -- the entry's live change is cleared on the way: the new one takes its place in any case
    have hcommute : joinRetire r.serial (clearLive e.addr r.serial u) = clearLive e.addr r.serial (joinRetire r.serial u) := by
      have hdir : clearLive e.addr r.serial u = { u with dir := (clearLive e.addr r.serial u).dir } := rfl
      rw [hdir, joinRetire_setDir]
      unfold clearLive updEntry
      rw [(joinRetire_frame r.serial u).2.1]
    rw [hbefore, ← appendRecord_clearLive e.addr r.serial, ← hcommute]
    have hends : Run s s1 (clearLive e.addr r.serial u) :=
      (Act.ends r.serial .superseded r e.addr hrec1 (fun _ => by obtain hq | hq | hq := hstate <;> simp [hq])
        (.inr ⟨e, h.entry, rfl, hel⟩)).run
    refine (((hcount.run s).trans hends).trans (joinRetire_run r.serial _)).tail (.append e.addr new blocks ?_)
    have hserials : ∀ q ∈ u.table.records, ∃ x ∈ s.table.records, x.serial = q.serial := by
      intro q hq
      rw [hu, endRecord_table, updRecord_table] at hq
      obtain ⟨x, hx, rfl⟩ := List.mem_map.mp hq
      exact ⟨x, hx, by split <;> rfl⟩
    have hsub : ∀ q ∈ (joinRetire r.serial (clearLive e.addr r.serial u)).table.records, q ∈ u.table.records := by
      intro q hq
      have hmem := (joinRetire_sublist r.serial (clearLive e.addr r.serial u)).subset hq
      rwa [clearLive_table] at hmem
    have hroom : TableLaw s → (joinRetire r.serial (clearLive e.addr r.serial u)).table.records.length < 4096 := by
      intro ht
      have htab := h.table
      simp only [tableHasRoom, hsup, Option.isSome_some, Bool.true_and, Bool.or_eq_true, Bool.and_eq_true,
        decide_eq_true_eq] at htab
      obtain hlt | ⟨hretire, hout⟩ := htab
      · refine lt_of_le_of_lt (joinRetire_sublist _ _).length_le ?_
        rw [clearLive_table, hu, endRecord_table, updRecord_table, List.length_map]
        exact hlt
      · rw [hcommute]
        exact joinRetire_room (s := s1) .superseded ht hrec1 hretire hout
    have hpool := h.pool
    simp only [poolHasRoom, hsup, Option.map_some, Option.getD_some, decide_eq_true_eq] at hpool
    exact {
      room := hroom
      fresh := fun ht q hq => by
        obtain ⟨x, hx, hxs⟩ := hserials q (hsub q hq)
        rw [← hxs]
        exact (htaken ht).2 x hx
      nonzero := fun ht => (htaken ht).1
      acked := rfl, count := rfl, few := h.few, outcome := rfl, state := rfl
      free := by
        rw [(joinRetire_frame _ _).2.2.1, clearLive_pool, hu, endRecord_pool]
        exact hpool
      opened := fun i hi => by
        rw [joinRetire_campaigns]
        refine passRecords_opened ?_
        change (u.campaigns.get i).state = _
        rw [hu]
        exact (endRecord_state _ _ _ _ i).trans (h.opened i hi)
      addr := rfl
      entry := by
        rw [(joinRetire_frame _ _).2.1, clearLive_dir, hu, endRecord_dir]
        exact ⟨_, List.mem_map_of_mem h.entry, cleared_addr _ _ _, cleared_tagId _ _ _⟩
      idle := fun ho x hx hxa => by
        rw [(joinRetire_frame _ _).2.1, clearLive_dir, hu, endRecord_dir] at hx
        obtain ⟨y, hy, rfl⟩ := List.mem_map.mp hx
        rw [cleared_addr] at hxa
        obtain rfl := ho.directory.eq_of_addr hy h.entry hxa
        rw [cleared_live, if_pos ⟨rfl, hel⟩] }

/-- The posted image that is admitted fills at most 32 blocks (R52, R53). -/
theorem few_blocks {e : Entry} {img : List Byte} (h : img.length ≤ pageCapacity e.pageClass) :
    (blocksOfImage img).length ≤ 32 := by
  have hcap : pageCapacity e.pageClass ≤ 1024 := by
    generalize e.pageClass = c
    fin_cases c <;> decide
  rw [blocksOfImage, cutBlocks_length, blockCountOf]
  omega

theorem liveChangeTest_ok {live : Option Change} {campaign : Option CampaignIndex} {superseded : Option Change}
    (h : liveChangeTest live campaign = .ok superseded) :
    live = superseded ∧ ∀ r, superseded = some r →
      r.campaign = campaign ∧ (r.state = .queued ∨ r.state = .sending ∨ r.state = .staged) := by
  unfold liveChangeTest at h
  split at h
  · cases h; exact ⟨rfl, by simp⟩
  · split at h
    · cases h
    · next hc =>
      split at h <;> cases h <;>
        exact ⟨rfl, fun q hq => by cases hq; exact ⟨not_not.mp hc, by simp [*]⟩⟩

theorem admitFinal_run {e : Entry} {campaign : Option CampaignIndex} {img : FinalImage} {s : State}
    (he : e ∈ s.dir.entries) (hopened : ∀ i, campaign = some i → (s.campaigns.get i).state = .opened)
    (hpage : img.bytes.length ≤ pageCapacity e.pageClass) : Run s s (admitFinal e campaign img s).2 := by
  unfold admitFinal
  dsimp only
  split
  · exact Run.refl s s
  · next superseded hok =>
    obtain ⟨hlive, hstates⟩ := liveChangeTest_ok hok
    split
    · exact Run.refl s s
    · next htable =>
      split
      · exact Run.refl s s
      · next hpool =>
        exact admit_run ⟨he, hlive, hstates, hopened, few_blocks hpage, not_not.mp htable, not_not.mp hpool⟩

theorem actPostChange_run (payload : List Byte) (s : State) : Run s s (actPostChange payload s).2 := by
  unfold actPostChange
  split
  · unfold postChange
    split
    · exact Run.refl s s
    · next e he =>
      split
      · exact Run.refl s s
      · split
        · exact Run.refl s s
        · next campaign _ hc =>
          split
          · exact Run.refl s s
          · split
            · exact Run.refl s s
            · next hpage =>
              refine admitFinal_run (entryOf_mem he).1 (fun i hi => ?_) (not_lt.mp hpage)
              subst hi
              simpa using hc
  · exact Run.refl s s

end Sys2Proof.Machine
end

section
/-! Every step is a run of acts. -/

namespace Sys2Proof.Machine

/-! ### Requests -/

/-- What a request's answer does to the work, the taking of the request does: the queues are no part of the work. -/
theorem request_run (kind num : Byte) (payload : List Byte) {act : State → Answer}
    (hact : ∀ u, Run u u (act u).2) (s : State) : Run s s (request kind num payload act s) := by
  have htake (u : State) (hw : SameWork s u) (hs : u.store = s.store) : Run s u (takeAndAnswer kind num act u) := by
    unfold takeAndAnswer
    split
    · have hhead : SameWork u (takeHead u) := ⟨rfl, rfl, rfl, rfl, rfl, rfl, rfl⟩
      refine ((hhead.run s).trans (Run.restart (hw.trans hhead) hs (hact _))).trans ?_
      unfold answerWith
      split
      · exact Run.refl s _
      · exact (placeFrame_work _ _).run s
    · exact Run.refl s u
  have hstore (f : Frame) : (offerFrame f s).store = s.store := by
    obtain ⟨_, h⟩ | ⟨_, h⟩ := offerFrame_eq f s <;> rw [h]
    rfl
  unfold request
  split
  · split
    · split
      · exact htake s (.refl s) rfl
      · exact (offerFrame_work _ s).run s
    · exact ((offerFrame_work _ s).run s).trans (htake _ (offerFrame_work _ s) (hstore _))
  · exact Run.refl s s

theorem request_work (kind num : Byte) (payload : List Byte) {act : State → Answer}
    (hact : ∀ u, SameWork u (act u).2) (s : State) : SameWork s (request kind num payload act s) := by
  have htake (u : State) : SameWork u (takeAndAnswer kind num act u) := by
    unfold takeAndAnswer
    split
    · have hhead : SameWork u (takeHead u) := ⟨rfl, rfl, rfl, rfl, rfl, rfl, rfl⟩
      unfold answerWith
      split
      · exact hhead.trans (hact _)
      · exact (hhead.trans (hact _)).trans (placeFrame_work _ _)
    · exact .refl u
  unfold request
  split
  · split
    · split
      · exact htake s
      · exact offerFrame_work _ s
    · exact (offerFrame_work _ s).trans (htake _)
  · exact .refl s

theorem ofLength_work (n : Nat) (payload : List Byte) {act : State → Answer} (hact : ∀ u, SameWork u (act u).2)
    (u : State) : SameWork u (ofLength n payload act u).2 := by
  unfold ofLength
  split
  · exact hact u
  · exact .refl u

theorem event_work {act : State → State} (hact : ∀ u, SameWork u (act u)) (s : State) : SameWork s (event act s) := by
  unfold event
  split
  · exact hact s
  · exact .refl s

theorem ofLength_run (n : Nat) (payload : List Byte) {act : State → Answer} (hact : ∀ u, Run u u (act u).2) (u : State) :
    Run u u (ofLength n payload act u).2 := by
  unfold ofLength
  split
  · exact hact u
  · exact Run.refl u u

theorem event_run {act : State → State} (hact : ∀ u, Run u u (act u)) (s : State) : Run s s (event act s) := by
  unfold event
  split
  · exact hact s
  · exact Run.refl s s

theorem actConfigSet_work (payload : List Byte) (u : State) : SameWork u (actConfigSet payload u).2 := by
  unfold actConfigSet
  split
  · exact .refl u
  · split
    · unfold configSetItems
      dsimp only
      split
      · exact .refl u
      · split <;> exact ⟨rfl, rfl, rfl, rfl, rfl, rfl, rfl⟩
    · exact .refl u

theorem actSetMode_work (payload : List Byte) (u : State) : SameWork u (actSetMode payload u).2 := by
  unfold actSetMode
  split
  · exact .refl u
  · split
    · exact .refl u
    · split
      · exact .refl u
      · exact ⟨rfl, rfl, rfl, rfl, rfl, rfl, rfl⟩

theorem actReset_work (payload : List Byte) (u : State) : SameWork u (actReset payload u).2 := by
  unfold actReset
  split
  · exact .refl u
  · exact ⟨rfl, rfl, rfl, rfl, rfl, rfl, rfl⟩

theorem actSetLine_work (payload : List Byte) (u : State) : SameWork u (actSetLine payload u).2 := by
  unfold actSetLine
  split
  · exact .refl u
  · exact ⟨rfl, rfl, rfl, rfl, rfl, rfl, rfl⟩

theorem actSetNotices_work (payload : List Byte) (u : State) : SameWork u (actSetNotices payload u).2 :=
  (putSettings_work _ u).trans (latchTrigger_work _)

theorem actSetBeacon_work (payload : List Byte) (u : State) : SameWork u (actSetBeacon payload u).2 := by
  unfold actSetBeacon
  split
  · exact ⟨rfl, rfl, rfl, rfl, rfl, rfl, rfl⟩
  · exact .refl u

/-- The lowest free position lies in the range searched, and no entry stands there (R25). -/
theorem firstFree_some {es : List Entry} {n a b : Nat} (h : firstFree es n a = some b) :
    a ≤ b ∧ b < a + n ∧ (∀ e ∈ es, e.addr ≠ b) ∧ ∀ p, a ≤ p → p < b → ∃ e ∈ es, e.addr = p := by
  induction n generalizing a with
  | zero => cases h
  | succ n ih =>
    unfold firstFree at h
    split at h
    · next hany =>
      obtain ⟨hle, hlt, hfree, hbelow⟩ := ih h
      refine ⟨by omega, by omega, hfree, fun p hp hpb => ?_⟩
      obtain rfl | hne := eq_or_ne a p
      · simpa using hany
      · exact hbelow p (by omega) hpb
    · next hany =>
      cases h
      exact ⟨le_rfl, by omega, by simpa using hany, fun p hp hpb => by omega⟩

theorem field_lt (off len : Nat) (bs : List Byte) : field off len bs < 256 ^ len := by
  unfold field
  refine lt_of_lt_of_le (leNat_lt _) (Nat.pow_le_pow_right (by norm_num) ?_)
  exact List.length_take_le _ _

theorem actEnrol_run (payload : List Byte) (u : State) : Run u u (actEnrol payload u).2 := by
  unfold actEnrol
  dsimp only
  split
  · split
    · exact Run.refl u u
    · split
      · exact Run.refl u u
      · next hheld =>
        split
        · exact Run.refl u u
        · next a ha =>
          obtain ⟨_, hlt, hfree, _⟩ := firstFree_some ha
          refine Relation.ReflTransGen.tail (Act.enrol _ hfree (show a < 16384 by omega) (fun x hx => ?_) rfl fun hd => ?_).run
            (.strangers _ fun h => ⟨(List.length_filter_le _ _).trans h.1, h.2.sublist (List.filter_sublist.map _)⟩)
          · simp only [Bool.not_eq_true, Option.isSome_eq_false_iff, Option.isNone_iff_eq_none, State.entryOf,
              List.find?_eq_none, decide_eq_true_eq] at hheld
            exact hheld x hx
          · refine ⟨le_rfl, le_rfl, ?_⟩
            dsimp only [newEntry]
            split
            · exact hd
            · have := field_lt 7 2 payload
              omega
  · exact Run.refl u u

theorem orderClass_edit (w : WakeClass) : EntryEdit (Entry.orderClass w) :=
  ⟨fun _ => rfl, fun _ => rfl, fun _ => rfl, fun _ h => h⟩

theorem flash_edit : EntryEdit fun e => { e with flash := true } :=
  ⟨fun _ => rfl, fun _ => rfl, fun _ => rfl, fun _ h => h⟩

theorem actSetWakeTag_run (payload : List Byte) (u : State) : Run u u (actSetWakeTag payload u).2 := by
  unfold actSetWakeTag
  split
  · exact Run.refl u u
  · exact orderEntry_run _ (orderClass_edit _) u

theorem actSetWakeZone_run (payload : List Byte) (u : State) : Run u u (actSetWakeZone payload u).2 :=
  foldl_run (fun s (e : Entry) => orderEntry_run e.addr (orderClass_edit _) s) _ u

theorem actLocate_run (payload : List Byte) (u : State) : Run u u (actLocate payload u).2 := by
  unfold actLocate
  split
  · exact Run.refl u u
  · dsimp only [okWith]
    split
    · exact Run.refl u u
    · exact orderEntry_run _ flash_edit u

theorem withAllowance_edit {a : Nat} (ha : a ≤ 65535) : EntryEdit (Entry.withAllowance a) where
  addr e := by unfold Entry.withAllowance; split <;> rfl
  tagId e := by unfold Entry.withAllowance; split <;> rfl
  live e := by unfold Entry.withAllowance; split <;> rfl
  charged e h := by
    unfold Entry.withAllowance
    split
    · exact ⟨Nat.min_le_right _ _, le_rfl, ha⟩
    · next hlt => exact ⟨h.1, not_lt.mp hlt, ha⟩

theorem actSetAllowance_run (payload : List Byte) (u : State) : Run u u (actSetAllowance payload u).2 := by
  unfold actSetAllowance
  split
  · exact Run.refl u u
  · have hlt := field_lt 4 2 payload
    exact updEntry_run _ (withAllowance_edit (by omega)) u

theorem actOpenCampaign_run (payload : List Byte) (u : State) : Run u u (actOpenCampaign payload u).2 := by
  unfold actOpenCampaign
  dsimp only
  split
  · exact Run.refl u u
  · split
    · exact Run.refl u u
    · split
      · exact Run.refl u u
      · next hfree =>
        have hfree := not_not.mp hfree
        split
        · exact Run.refl u u
        · split
          · exact Run.refl u u
          · split
            · exact Run.refl u u
            · exact (Act.opens _ _ _ _ hfree hfree).run

theorem actReleaseCampaign_run (payload : List Byte) (u : State) : Run u u (actReleaseCampaign payload u).2 := by
  unfold actReleaseCampaign
  split
  · exact Run.refl u u
  · dsimp only
    split
    · next hdone => exact (Act.release _ hdone).run.trans (SameWork.run u ⟨rfl, rfl, rfl, rfl, rfl, rfl, rfl⟩)
    · exact Run.refl u u

theorem actCancelChange_run (payload : List Byte) (u : State) : Run u u (actCancelChange payload u).2 := by
  unfold actCancelChange
  dsimp only
  split
  · exact Run.refl u u
  · next r hr =>
    have hlive : r.state ≠ .finished → ∀ q, u.recordOf (BitVec.ofNat 16 (leNat payload)) = some q → q.state ≠ .finished :=
      fun h q hq => Option.some.inj (hr.symm.trans hq) ▸ h
    split
    · next h => exact finish_run _ _ u fun q hq _ => hlive (by simp [h]) q hq
    · next h => exact finish_run _ _ u fun q hq _ => hlive (by simp [h]) q hq
    · next h =>
      exact (updRecord_run _ (fun r => { r with state := .withdrawing }) u fun q hq =>
        .of_live rfl rfl rfl rfl rfl rfl id (hlive (by simp [h]) q hq) (by simp)).trans (workNotice_run _ _)
    · exact Run.refl u u
    · exact Run.refl u u
    · exact Run.refl u u

theorem actFetchOutcomes_run (u : State) : Run u u (actFetchOutcomes u).2 := by
  refine Run.trans ((Act.fetch 16).run.trans (passAll_run _)) ?_
  change Run u _ (fetchLatch _)
  unfold fetchLatch
  split
  · exact (sameWork_handler _ _).run u
  · split
    · exact (sameWork_handler _ _).run u
    · exact Run.refl u _

/-! ### Events -/

theorem settingsWriteEnd_work (completed : Bool) (u : State) : SameWork u (settingsWriteEnd completed u) := by
  unfold settingsWriteEnd
  split
  · dsimp only
    split <;> exact ⟨rfl, rfl, rfl, rfl, rfl, rfl, rfl⟩
  · exact .refl u

theorem changeRate_work (u : State) : SameWork u (changeRate u) := by
  unfold changeRate
  split
  · exact .refl u
  · dsimp only
    split
    · obtain ⟨l, h⟩ := sendThrough_line isSetLineReply u
      rw [h]
      exact ⟨rfl, rfl, rfl, rfl, rfl, rfl, rfl⟩
    · exact ⟨rfl, rfl, rfl, rfl, rfl, rfl, rfl⟩

theorem outcomesTimeout_work (u : State) : SameWork u (outcomesTimeout u) := by
  unfold outcomesTimeout
  split
  · exact sameWork_handler _ u
  · exact .refl u

theorem dropFrame_work (u : State) : SameWork u (dropFrame u) := ⟨rfl, rfl, rfl, rfl, rfl, rfl, rfl⟩

theorem receiveByte_work (b : Byte) (faulty : Bool) (u : State) : SameWork u (receiveByte b faulty u) := by
  unfold receiveByte
  split
  · split
    · exact line_work _ u
    · exact .refl u
  · split
    · exact dropFrame_work u
    · unfold takeByte
      dsimp only
      split
      · exact .refl u
      · split
        · exact line_work _ u
        · split
          · exact dropFrame_work u
          · exact line_work _ u
      · exact line_work _ u
      · split
        · exact line_work _ u
        · unfold completeFrame
          dsimp only
          split
          · split
            · exact (line_work _ u).trans (offerFrame_work _ _)
            · exact line_work _ u
          · exact ⟨rfl, rfl, rfl, rfl, rfl, rfl, rfl⟩

theorem frameSent_work (u : State) : SameWork u (frameSent u) := by
  obtain h | ⟨f, rest, _, _, h⟩ := frameSent_eq u <;> rw [h]
  · exact .refl u
  · exact line_work _ u

theorem moveNotice_work (u : State) : SameWork u (moveNotice u) := by
  unfold moveNotice
  split
  · split
    · exact .refl u
    · exact ⟨rfl, rfl, rfl, rfl, rfl, rfl, rfl⟩
  · exact .refl u

theorem refreshCrossing_run (u : State) : Run u u (refreshCrossing u) := by
  unfold refreshCrossing
  split
  · exact refresh_run u
  · exact Run.refl u u

theorem cellBeaconInstant_run (c : Cell) (order : InstantOrder) (u : State) :
    Run u u (match instantPlace u c order with
      | none => u
      | some (b, g) => if u.instantOpen c b then instant c b g u else u) := by
  split
  · exact Run.refl u u
  · split
    · exact instant_run _ _ _ u
    · exact Run.refl u u

/-! ### The part by itself -/

theorem enqueue_work (events : List Instr) (s : State) : SameWork s (enqueue events s) := by
  unfold enqueue
  dsimp only
  split <;> exact ⟨rfl, rfl, rfl, rfl, rfl, rfl, rfl⟩

/-- One tick passes (R1, R14): the counter falls, the clock and the wait timer rise. -/
def ticked (s : State) : State :=
  { s with air := { s.air with clock := s.air.clock + 1, counter := s.air.counter - 1 }, handler.timer := timerTick s }

theorem tick_eq (s : State) : tick s = if s.air.counter = 0 then underflow (ticked s)
    else if crossingDue (ticked s) = [] then ticked s
    else enqueue (crossingDue (ticked s) ++ dueNow (ticked s)) (ticked s) := rfl

theorem ticked_work (s : State) : SameWork s (ticked s) := ⟨rfl, rfl, rfl, rfl, rfl, rfl, rfl⟩

theorem idle_work (s : State) : SameWork s (idle s) := by
  unfold idle
  split
  · split
    · rw [tick_eq]
      split
      · exact (ticked_work s).trans ⟨rfl, rfl, rfl, rfl, rfl, rfl, rfl⟩
      · split
        · exact ticked_work s
        · exact (ticked_work s).trans (enqueue_work _ _)
    · exact enqueue_work _ s
  · exact .refl s

/-! ### The step -/

/-- The commands of the host line, the settings and the Record Handler, which do no work on tags and changes. -/
def doesNoWork : Instr → Bool
  | .status _ _ | .setClock _ _ | .setBeacon _ _ | .setMode _ _ | .configSet _ _ | .configGet _ _ | .saveSettings _ _
  | .settingsWriteEnd _ | .resetCold _ _ | .resetWarm _ _ | .setLine _ _ | .lineRateChange | .setNotices _ _
  | .clearEvents _ _ | .queryTag _ _ | .queryCampaign _ _ | .queryChange _ _ | .outcomesReadyTimeout
  | .hostByteReceived _ _ | .idleGap | .hold | .go | .outboundFrameSent | .noticeMove | .headReturned _
  | .unknownKind _ _ _ | .powerLoss => true
  | _ => false

/-- Such a command leaves the work as it was. -/
theorem exec_work {c : Instr} (hc : doesNoWork c = true) (s : State) : ∃ t, exec c s = .next t ∧ SameWork s t := by
  cases c
  case status num p => exact ⟨_, rfl, request_work _ _ _ (ofLength_work _ _ fun u => .refl u) s⟩
  case setClock num p =>
    exact ⟨_, rfl, request_work _ _ _ (ofLength_work _ _ fun u => ⟨rfl, rfl, rfl, rfl, rfl, rfl, rfl⟩) s⟩
  case setBeacon num p => exact ⟨_, rfl, request_work _ _ _ (ofLength_work _ _ (actSetBeacon_work p)) s⟩
  case setMode num p => exact ⟨_, rfl, request_work _ _ _ (ofLength_work _ _ (actSetMode_work p)) s⟩
  case configSet num p => exact ⟨_, rfl, request_work _ _ _ (actConfigSet_work p) s⟩
  case configGet num p => exact ⟨_, rfl, request_work _ _ _ (ofLength_work _ _ fun u => .refl u) s⟩
  case saveSettings num p =>
    exact ⟨_, rfl, request_work _ _ _ (ofLength_work _ _ fun u => sameWork_handler _ u) s⟩
  case settingsWriteEnd completed => exact ⟨_, rfl, event_work (settingsWriteEnd_work completed) s⟩
  case resetCold num p =>
    refine ⟨_, rfl, ?_⟩
    split
    · exact .refl s
    · exact request_work _ _ _ (ofLength_work _ _ (actReset_work p)) s
  case resetWarm num p =>
    refine ⟨_, rfl, ?_⟩
    split
    · exact .refl s
    · exact request_work _ _ _ (ofLength_work _ _ (actReset_work p)) s
  case setLine num p => exact ⟨_, rfl, request_work _ _ _ (ofLength_work _ _ (actSetLine_work p)) s⟩
  case lineRateChange => exact ⟨_, rfl, event_work changeRate_work s⟩
  case setNotices num p => exact ⟨_, rfl, request_work _ _ _ (ofLength_work _ _ (actSetNotices_work p)) s⟩
  case clearEvents num p =>
    exact ⟨_, rfl, request_work _ _ _ (ofLength_work _ _ fun u => sameWork_handler _ u) s⟩
  case queryTag num p =>
    refine ⟨_, rfl, request_work _ _ _ (ofLength_work _ _ fun u => ?_) s⟩
    split <;> exact .refl u
  case queryCampaign num p =>
    refine ⟨_, rfl, request_work _ _ _ (ofLength_work _ _ fun u => ?_) s⟩
    split <;> exact .refl u
  case queryChange num p =>
    refine ⟨_, rfl, request_work _ _ _ (ofLength_work _ _ fun u => ?_) s⟩
    split <;> exact .refl u
  case outcomesReadyTimeout => exact ⟨_, rfl, event_work outcomesTimeout_work s⟩
  case hostByteReceived b faulty => exact ⟨_, rfl, event_work (receiveByte_work b faulty) s⟩
  case idleGap =>
    refine ⟨_, rfl, event_work (fun u => ?_) s⟩
    split
    · exact .refl u
    · exact dropFrame_work u
  case hold =>
    refine ⟨_, rfl, event_work (fun u => ?_) s⟩
    split
    · exact line_work _ u
    · exact .refl u
  case go =>
    refine ⟨_, rfl, event_work (fun u => ?_) s⟩
    split
    · exact line_work _ u
    · exact .refl u
  case outboundFrameSent => exact ⟨_, rfl, event_work frameSent_work s⟩
  case noticeMove => exact ⟨_, rfl, event_work moveNotice_work s⟩
  case headReturned c =>
    refine ⟨_, rfl, event_work (fun u => ?_) s⟩
    exact ⟨rfl, rfl, rfl, rfl, rfl, rfl, rfl⟩
  case unknownKind kind num p =>
    refine ⟨_, rfl, ?_⟩
    split
    · exact .refl s
    · exact request_work _ _ _ (fun u => .refl u) s
  case powerLoss =>
    refine ⟨_, rfl, event_work (fun u => ?_) s⟩
    exact ⟨rfl, rfl, rfl, rfl, rfl, rfl, rfl⟩
  all_goals cases hc

/-- What a command does to the work is a run of acts. -/
theorem exec_run (c : Instr) (s : State) : ∃ t, exec c s = .next t ∧ Run s s t := by
  by_cases hc : doesNoWork c = true
  · obtain ⟨t, ht, hw⟩ := exec_work hc s
    exact ⟨t, ht, hw.run s⟩
  cases c
  case powerOn heads => exact ⟨_, rfl, startUp_run _ _ _ _ s⟩
  case resetActs => exact ⟨_, rfl, event_run (fun u => resetActs_run u) s⟩
  case enrol num p => exact ⟨_, rfl, request_run _ _ _ (ofLength_run _ _ (actEnrol_run p)) s⟩
  case remove num p => exact ⟨_, rfl, request_run _ _ _ (ofLength_run _ _ (actRemove_run p)) s⟩
  case setWakeTag num p =>
    refine ⟨_, rfl, ?_⟩
    split
    · exact Run.refl s s
    · refine request_run _ _ _ (ofLength_run _ _ fun u => ?_) s
      split
      · exact actSetWakeTag_run p u
      · exact Run.refl u u
  case setWakeZone num p =>
    refine ⟨_, rfl, ?_⟩
    split
    · exact Run.refl s s
    · refine request_run _ _ _ (ofLength_run _ _ fun u => ?_) s
      split
      · exact actSetWakeZone_run p u
      · exact Run.refl u u
  case setAllowance num p => exact ⟨_, rfl, request_run _ _ _ (ofLength_run _ _ (actSetAllowance_run p)) s⟩
  case locate num p => exact ⟨_, rfl, request_run _ _ _ (ofLength_run _ _ (actLocate_run p)) s⟩
  case listStrangers num p =>
    exact ⟨_, rfl, request_run _ _ _ (ofLength_run _ _ fun u => (Act.strangers _ fun _ => ⟨by simp, by simp⟩).run) s⟩
  case refreshBudgets num p => exact ⟨_, rfl, request_run _ _ _ (ofLength_run _ _ refresh_run) s⟩
  case openCampaign num p => exact ⟨_, rfl, request_run _ _ _ (ofLength_run _ _ (actOpenCampaign_run p)) s⟩
  case releaseCampaign num p => exact ⟨_, rfl, request_run _ _ _ (ofLength_run _ _ (actReleaseCampaign_run p)) s⟩
  case postChange num p => exact ⟨_, rfl, request_run _ _ _ (actPostChange_run p) s⟩
  case cancelChange num p => exact ⟨_, rfl, request_run _ _ _ (ofLength_run _ _ (actCancelChange_run p)) s⟩
  case fetchOutcomes num p => exact ⟨_, rfl, request_run _ _ _ (ofLength_run _ _ actFetchOutcomes_run) s⟩
  case lineBreak => exact ⟨_, rfl, event_run (fun u => lineBreak_run u) s⟩
  case headLost c => exact ⟨_, rfl, event_run (fun u => headLost_run c u) s⟩
  case beaconStart => exact ⟨_, rfl, event_run (fun u => beaconStart_run u) s⟩
  case refreshCrossing => exact ⟨_, rfl, event_run refreshCrossing_run s⟩
  case cellBeaconInstant c order => exact ⟨_, rfl, event_run (cellBeaconInstant_run c order) s⟩
  case slotEnd c received level => exact ⟨_, rfl, event_run (fun u => slotEnd_run c received level u) s⟩
  case joinSlotEnd c heard => exact ⟨_, rfl, event_run (fun u => joinSlotEnd_run c heard u) s⟩
  all_goals exact absurd rfl hc

/-- A step is a run of acts that began in its state. -/
theorem step_run {s t : State} (h : step s = .next t) : Run s s t := by
  unfold step at h
  split at h
  · next c rest _ =>
    have hsame : SameWork s { s with pending := rest } := ⟨rfl, rfl, rfl, rfl, rfl, rfl, rfl⟩
    obtain ⟨u, hu, hrun⟩ := exec_run c { s with pending := rest }
    rw [hu] at h
    cases h
    exact (hsame.run s).trans (Run.restart hsame rfl hrun)
  · cases h
    exact (idle_work s).run s

end Sys2Proof.Machine
end

section
/-! The laws of the directory and of the change table, act by act. -/

namespace Sys2Proof.Machine

variable {s0 : State}

/-! ### The directory -/

/-- What an act does to the entries: in place, a new one, or some go. -/
theorem Act.entries {u v : State} (h : Act s0 u v) :
    (∃ f : Entry → Entry, (∀ e, (f e).addr = e.addr ∧ (f e).tagId = e.tagId ∧ (e.Charged → (f e).Charged))
        ∧ v.dir.entries = u.dir.entries.map f)
      ∨ (∃ e : Entry, (∀ x ∈ u.dir.entries, x.addr ≠ e.addr) ∧ e.addr < 16384 ∧ (∀ x ∈ u.dir.entries, x.tagId ≠ e.tagId)
        ∧ (s0.store.working.defaultAllowance ≤ 65535 → e.Charged)
        ∧ v.dir.entries = insertBy (fun p q => decide (p.addr < q.addr)) e u.dir.entries)
      ∨ v.dir.entries.Sublist u.dir.entries := by
  have same {v : State} (h : v.dir.entries = u.dir.entries) : v.dir.entries.Sublist u.dir.entries := h ▸ .refl _
  cases h with
  | frame h => exact .inr (.inr (same (by rw [h.dir])))
  | edit f hf => exact .inl ⟨f, fun e => ⟨hf.addr e, hf.tagId e, hf.charged e⟩, rfl⟩
  | enrol e free bound new live charge => exact .inr (.inl ⟨e, free, bound, new, charge, rfl⟩)
  | delete a idle => exact .inr (.inr List.filter_sublist)
  | ends k code r a hr live ha =>
    refine .inl ⟨Entry.cleared a k, fun e => ⟨cleared_addr a k e, cleared_tagId a k e, fun h => ?_⟩, ?_⟩
    · unfold Entry.cleared; split <;> exact h
    · rw [clearLive_dir, endRecord_dir]
  | append a new blocks ha =>
    refine .inl ⟨fun e => if e.addr = a then { e with live := some new.serial } else e, fun e => ?_, ?_⟩
    · beta_reduce; split <;> exact ⟨rfl, rfl, id⟩
    · unfold appendRecord; rw [(updCampaign_dir _ _ _).1]; rfl
  | pass room => exact .inr (.inr (same (by rw [(passHead_frame u).2.1])))
  | done i => exact .inr (.inr (same (by rw [(doneCheck_dir i u).1])))
  | clear entries =>
    obtain h | h := entries
    · exact .inr (.inr (h ▸ List.nil_sublist _))
    · exact .inl ⟨fun e => { e with live := none }, fun e => ⟨rfl, rfl, id⟩, h⟩
  | grants => exact .inr (.inr (same rfl))
  | strangers => exact .inr (.inr (same rfl))
  | calendar => exact .inr (.inr (same rfl))
  | boosts => exact .inr (.inr (same rfl))
  | touch => exact .inr (.inr (same rfl))
  | fetch => exact .inr (.inr (same rfl))
  | count => exact .inr (.inr (same rfl))
  | opens => exact .inr (.inr (same rfl))
  | release => exact .inr (.inr (same rfl))

theorem mem_insertBy {α : Type} {lt : α → α → Bool} {x y : α} {xs : List α} : y ∈ insertBy lt x xs ↔ y = x ∨ y ∈ xs := by
  rw [(insertBy_perm lt x xs).mem_iff, List.mem_cons]

/-- An entry put in by its short address keeps the entries in their order. -/
theorem insertBy_sorted {e : Entry} {es : List Entry} (h : es.Pairwise fun x y => x.addr < y.addr)
    (free : ∀ x ∈ es, x.addr ≠ e.addr) :
    (insertBy (fun p q => decide (p.addr < q.addr)) e es).Pairwise fun x y => x.addr < y.addr := by
  induction es with
  | nil => simp [insertBy]
  | cons y ys ih =>
    obtain ⟨hy, hys⟩ := List.pairwise_cons.mp h
    have hfree := free y List.mem_cons_self
    unfold insertBy
    split
    · next hlt =>
      refine List.pairwise_cons.mpr ⟨fun z hz => ?_, ih hys fun x hx => free x (List.mem_cons_of_mem y hx)⟩
      obtain rfl | hz := mem_insertBy.mp hz
      · exact of_decide_eq_true hlt
      · exact hy z hz
    · next hlt =>
      have hlt : e.addr < y.addr := by rw [decide_eq_true_eq] at hlt; omega
      refine List.pairwise_cons.mpr ⟨fun z hz => ?_, h⟩
      obtain rfl | hz := List.mem_cons.mp hz
      · exact hlt
      · exact hlt.trans (hy z hz)

theorem Act.directoryLaw {u v : State} (h : Act s0 u v) (hu : DirectoryLaw u) : DirectoryLaw v := by
  obtain ⟨hsorted, hbound, hids⟩ := hu
  obtain ⟨f, hf, he⟩ | ⟨e, free, bound, new, _, he⟩ | hsub := h.entries
  · refine ⟨?_, ?_, ?_⟩ <;> rw [he]
    · exact List.pairwise_map.mpr (hsorted.imp fun {a b} hlt => by rwa [(hf a).1, (hf b).1])
    · intro x hx
      obtain ⟨y, hy, rfl⟩ := List.mem_map.mp hx
      rw [(hf y).1]
      exact hbound y hy
    · have hmap : (u.dir.entries.map f).map (·.tagId) = u.dir.entries.map (·.tagId) := by
        rw [List.map_map]; exact List.map_congr_left fun e _ => (hf e).2.1
      rwa [hmap]
  · refine ⟨?_, ?_, ?_⟩ <;> rw [he]
    · exact insertBy_sorted hsorted free
    · intro x hx
      obtain rfl | hx := mem_insertBy.mp hx
      exacts [bound, hbound x hx]
    · rw [((insertBy_perm _ e _).map (·.tagId)).nodup_iff, List.map_cons, List.nodup_cons]
      refine ⟨fun hmem => ?_, hids⟩
      obtain ⟨x, hx, hxe⟩ := List.mem_map.mp hmem
      exact new x hx hxe
  · exact ⟨hsorted.sublist hsub, fun x hx => hbound x (hsub.subset hx), hids.sublist (hsub.map _)⟩

theorem Act.chargeLaw (hd : s0.store.working.defaultAllowance ≤ 65535) {u v : State} (h : Act s0 u v)
    (hu : ChargeLaw u) : ChargeLaw v := by
  intro x hx
  obtain ⟨f, hf, he⟩ | ⟨e, _, _, _, charge, he⟩ | hsub := h.entries
  · rw [he] at hx
    obtain ⟨y, hy, rfl⟩ := List.mem_map.mp hx
    exact (hf y).2.2 (hu y hy)
  · rw [he] at hx
    obtain rfl | hx := mem_insertBy.mp hx
    exacts [charge hd, hu x hx]
  · exact hu x (hsub.subset hx)

/-- Settles O54. -/
theorem directoryLawKept : Obligations.DirectoryLawKept :=
  fun _ _ hs hstep => (step_run hstep).keeps (fun _ _ => Act.directoryLaw) hs

/-- Settles O53: an entry is charged when it is enrolled, by the request's allowance or the default one, and no act on it lifts
its remaining charge over its effective allowance, or that over its allowance. -/
theorem chargeLawKept : Obligations.ChargeLawKept :=
  fun _ _ hs hset hstep => (step_run hstep).keeps (fun _ _ => Act.chargeLaw hset.1.defaultAllowance) hs

/-! ### The change table -/

/-- What an act does to the records: each moves on or ends, a new one, or some go. -/
theorem Act.records {u v : State} (h : Act s0 u v) (hu : TableLaw u) :
    (∃ f : Change → Change, (∀ r ∈ u.table.records, r.Alike (f r)) ∧ v.table.records = u.table.records.map f)
      ∨ (∃ k code b, v.table.records = u.table.records.map fun r => if r.serial = k then r.closed code b else r)
      ∨ (∃ a new blocks, Appendable s0 a new blocks u ∧ v.table.records = u.table.records ++ [new])
      ∨ v.table.records.Sublist u.table.records := by
  have same {v : State} (h : v.table.records = u.table.records) : v.table.records.Sublist u.table.records := h ▸ .refl _
  cases h with
  | frame h => exact .inr (.inr (.inr (same h.records)))
  | touch k f h =>
    refine .inl ⟨fun r => if r.serial = k then f r else r, fun r hr => ?_, rfl⟩
    beta_reduce
    split
    · next hk => exact h r (hk ▸ hu.recordOf hr)
    · exact ⟨rfl, rfl, rfl, rfl, rfl, rfl, id, Iff.rfl⟩
  | ends k code r a hr live ha =>
    refine .inr (.inl ⟨k, code, u.air.beacon, ?_⟩)
    rw [clearLive_table, endRecord_table]
    rfl
  | append a new blocks ha =>
    refine .inr (.inr (.inl ⟨a, new, blocks, ha, ?_⟩))
    unfold appendRecord
    rw [(updCampaign_dir _ _ _).2.2.1]
    rfl
  | pass room =>
    obtain h | ⟨k, h⟩ := passHead_records u
    · exact .inr (.inr (.inr (same h)))
    · exact .inr (.inr (.inr (h ▸ List.filter_sublist)))
  | done i => exact .inr (.inr (.inr (same (by rw [(doneCheck_dir i u).2.2.1]))))
  | clear _ _ _ _ records => exact .inr (.inr (.inr (records ▸ List.nil_sublist _)))
  | edit => exact .inr (.inr (.inr (same rfl)))
  | enrol => exact .inr (.inr (.inr (same rfl)))
  | delete => exact .inr (.inr (.inr (same rfl)))
  | grants => exact .inr (.inr (.inr (same rfl)))
  | strangers => exact .inr (.inr (.inr (same rfl)))
  | calendar => exact .inr (.inr (.inr (same rfl)))
  | boosts => exact .inr (.inr (.inr (same rfl)))
  | fetch => exact .inr (.inr (.inr (same rfl)))
  | count => exact .inr (.inr (.inr (same rfl)))
  | opens => exact .inr (.inr (.inr (same rfl)))
  | release => exact .inr (.inr (.inr (same rfl)))

/-- What the table law asks of one record. -/
def Change.Fits (r : Change) : Prop :=
  r.serial ≠ 0 ∧ r.acked ≤ r.blockCount ∧ r.blockCount ≤ 32 ∧ (r.outcome.isSome = true → r.state = .finished)

/-- A table whose records are changed in place, each keeping its serial, keeps the law when each keeps its own. -/
theorem TableLaw.of_map {u v : State} (hu : TableLaw u) (f : Change → Change)
    (hf : ∀ r ∈ u.table.records, (f r).serial = r.serial ∧ (r.Fits → (f r).Fits))
    (hv : v.table.records = u.table.records.map f) : TableLaw v := by
  obtain ⟨hroom, hserials, hrec⟩ := hu
  refine ⟨?_, ?_, ?_⟩ <;> rw [hv]
  · rwa [List.length_map]
  · have hmap : (u.table.records.map f).map (·.serial) = u.table.records.map (·.serial) := by
      rw [List.map_map]; exact List.map_congr_left fun r hr => (hf r hr).1
    rwa [hmap]
  · intro x hx
    obtain ⟨y, hy, rfl⟩ := List.mem_map.mp hx
    exact (hf y hy).2 (hrec y hy)

theorem Change.Alike.fits {r q : Change} (h : r.Alike q) (hr : r.Fits) : q.Fits := by
  obtain ⟨hz, ha, hn, ho⟩ := hr
  exact ⟨h.serial ▸ hz, h.acked ha, h.blockCount ▸ hn, fun hs => h.finished.mpr (ho (h.outcome ▸ hs))⟩

theorem Act.tableLaw (h0 : TableLaw s0) {u v : State} (h : Act s0 u v) (hu : TableLaw u) : TableLaw v := by
  obtain ⟨f, hf, hv⟩ | ⟨k, code, b, hv⟩ | ⟨a, new, blocks, ha, hv⟩ | hsub := h.records hu
  · exact hu.of_map f (fun r hr => ⟨(hf r hr).serial, (hf r hr).fits⟩) hv
  · refine hu.of_map _ (fun r _ => ?_) hv
    split
    · exact ⟨rfl, fun ⟨hz, ha, hn, _⟩ => ⟨hz, ha, hn, fun _ => rfl⟩⟩
    · exact ⟨rfl, id⟩
  · obtain ⟨_, hserials, hrec⟩ := hu
    refine ⟨?_, ?_, ?_⟩ <;> rw [hv]
    · rw [List.length_append]
      exact ha.room h0
    · rw [List.map_append, List.map_singleton, ← List.concat_eq_append, List.nodup_concat]
      refine ⟨fun hmem => ?_, hserials⟩
      obtain ⟨x, hx, hxe⟩ := List.mem_map.mp hmem
      exact ha.fresh h0 x hx hxe
    · intro x hx
      obtain hx | hx := List.mem_append.mp hx
      · exact hrec x hx
      · obtain rfl := List.mem_singleton.mp hx
        exact ⟨ha.nonzero h0, by simp [ha.acked], ha.count ▸ ha.few, by simp [ha.outcome]⟩
  · obtain ⟨hroom, hserials, hrec⟩ := hu
    exact ⟨hsub.length_le.trans hroom, hserials.sublist (hsub.map _), fun x hx => hrec x (hsub.subset hx)⟩

end Sys2Proof.Machine
end

section
/-! The laws that tie the change table to the directory, the pool and the campaigns, act by act. -/

namespace Sys2Proof.Machine

variable {s0 : State}

/-! ### Live changes -/

theorem LiveLaw.congr {u v : State} (hd : v.dir.entries = u.dir.entries) (hr : v.table.records = u.table.records)
    (hu : LiveLaw u) : LiveLaw v := by
  unfold LiveLaw
  rwa [hd, hr]

/-- Entries that keep their place, their tag and their live change, and records that move on, stay in step. -/
theorem LiveLaw.of_map {u v : State} (hu : LiveLaw u) (f : Entry → Entry) (g : Change → Change)
    (hf : ∀ e, (f e).addr = e.addr ∧ (f e).tagId = e.tagId ∧ (f e).live = e.live)
    (hg : ∀ r ∈ u.table.records, r.Alike (g r)) (hd : v.dir.entries = u.dir.entries.map f)
    (hr : v.table.records = u.table.records.map g) : LiveLaw v := by
  obtain ⟨hentry, hrecord⟩ := hu
  refine ⟨fun x hx k hk => ?_, fun x hx hlive => ?_⟩
  · rw [hd] at hx
    obtain ⟨e, he, rfl⟩ := List.mem_map.mp hx
    obtain ⟨haddr, hid, hl⟩ := hf e
    obtain ⟨r, hr', hs, ha, ht, hn⟩ := hentry e he k (hl ▸ hk)
    have hg := hg r hr'
    refine ⟨g r, hr ▸ List.mem_map_of_mem hr', hg.serial.trans hs, ?_, ?_, fun h => hn (hg.finished.mp h)⟩
    · rw [hg.addr, ha, haddr]
    · rw [hg.tagId, ht, hid]
  · rw [hr] at hx
    obtain ⟨r, hr', rfl⟩ := List.mem_map.mp hx
    have hg := hg r hr'
    obtain ⟨e, he, ha, hl⟩ := hrecord r hr' fun h => hlive (hg.finished.mpr h)
    exact ⟨f e, hd ▸ List.mem_map_of_mem he, by rw [(hf e).1, ha, hg.addr], by rw [(hf e).2.2, hl, hg.serial]⟩

theorem Change.Alike.refl (r : Change) : r.Alike r := ⟨rfl, rfl, rfl, rfl, rfl, rfl, id, Iff.rfl⟩

theorem outcomeRecord_some {r : Change} {o : OutcomeRecord} (h : r.outcomeRecord = some o) :
    r.outcome.isSome = true ∧ o.campaign = r.campaign := by
  unfold Change.outcomeRecord at h
  split at h
  · next hc _ => cases h; exact ⟨by rw [hc]; rfl, rfl⟩
  · cases h

/-- What passing a record does to the records: nothing, or a FINISHED one leaves (R82). -/
theorem passHead_finished {u : State} (ht : TableLaw u) : (passHead u).table.records = u.table.records
    ∨ ∃ r, r ∈ u.table.records ∧ r.state = .finished
      ∧ (passHead u).table.records = u.table.records.filter fun x => decide (x.serial ≠ r.serial) := by
  cases hq : u.table.retire with
  | nil => exact .inl (by unfold passHead; rw [hq])
  | cons k rest =>
    obtain h | ⟨r, o, hr, ho, h⟩ := passHead_table u k rest hq
    · exact .inl (by rw [h])
    · have hmem := recordOf_mem hr
      refine .inr ⟨r, hmem, (ht.2.2 r hmem).2.2.2 (outcomeRecord_some ho).1, ?_⟩
      rw [h, recordOf_serial hr]

theorem Act.liveLaw (h0 : Orderly s0) {u v : State} (h : Act s0 u v) (hu : Orderly u) : LiveLaw v := by
  obtain ⟨hdir, htab, hlive⟩ := hu
  obtain ⟨hentry, hrecord⟩ := hlive
  cases h with
  | frame h => exact LiveLaw.congr (by rw [h.dir]) h.records ⟨hentry, hrecord⟩
  | edit f hf =>
    exact LiveLaw.of_map ⟨hentry, hrecord⟩ f id (fun e => ⟨hf.addr e, hf.tagId e, hf.live e⟩)
      (fun r _ => .refl r) rfl (List.map_id _).symm
  | touch k f h =>
    refine LiveLaw.of_map ⟨hentry, hrecord⟩ id (fun r => if r.serial = k then f r else r) (fun e => ⟨rfl, rfl, rfl⟩)
      (fun r hr => ?_) (List.map_id _).symm rfl
    split
    · next hk => exact h r (hk ▸ htab.recordOf hr)
    · exact .refl r
  | enrol e free bound new live charge =>
    refine ⟨fun x hx k hk => ?_, fun r hr hn => ?_⟩
    · obtain rfl | hx := mem_insertBy.mp hx
      · rw [live] at hk; cases hk
      · exact hentry x hx k hk
    · obtain ⟨x, hx, ha, hl⟩ := hrecord r hr hn
      exact ⟨x, mem_insertBy.mpr (.inr hx), ha, hl⟩
  | delete a idle =>
    refine ⟨fun x hx k hk => hentry x (List.mem_of_mem_filter hx) k hk, fun r hr hn => ?_⟩
    obtain ⟨x, hx, ha, hl⟩ := hrecord r hr hn
    refine ⟨x, List.mem_filter.mpr ⟨hx, ?_⟩, ha, hl⟩
    rw [decide_eq_true_eq]
    rintro rfl
    rw [idle h0 x hx rfl] at hl
    cases hl
  | ends k code r a hr live ha =>
    have hvd : (clearLive a k (endRecord k code r u)).dir.entries = u.dir.entries.map (Entry.cleared a k) := by
      rw [clearLive_dir, endRecord_dir]
    have hvr : (clearLive a k (endRecord k code r u)).table.records
        = u.table.records.map fun x => if x.serial = k then x.closed code u.air.beacon else x := by
      rw [clearLive_table, endRecord_table]; rfl
    have haddr : r.addr = a := by
      obtain rfl | ⟨e, he, hea, hel⟩ := ha
      · rfl
      · obtain ⟨q, hq, hqs, hqa, _⟩ := hentry e he k hel
        rw [htab.eq_of_serial (recordOf_mem hr) hq (by rw [hqs, recordOf_serial hr]), hqa, hea]
    refine ⟨fun x hx j hj => ?_, fun x hx hn => ?_⟩
    · rw [hvd] at hx
      obtain ⟨e, he, rfl⟩ := List.mem_map.mp hx
      rw [cleared_live] at hj
      split at hj
      · cases hj
      · next hne =>
        obtain ⟨q, hq, hqs, hqa, hqt, hqn⟩ := hentry e he j hj
        have hjk : j ≠ k := by
          rintro rfl
          refine hne ⟨?_, hj⟩
          rw [← hqa, ← haddr, htab.eq_of_serial hq (recordOf_mem hr) (by rw [hqs, recordOf_serial hr])]
        refine ⟨q, ?_, hqs, by rw [hqa, cleared_addr], by rw [hqt, cleared_tagId], hqn⟩
        rw [hvr]
        exact List.mem_map.mpr ⟨q, hq, if_neg (hqs ▸ hjk)⟩
    · rw [hvr] at hx
      obtain ⟨q, hq, rfl⟩ := List.mem_map.mp hx
      split at hn
      · exact absurd rfl hn
      · next hk =>
        obtain ⟨e, he, hea, hel⟩ := hrecord q hq hn
        refine ⟨e.cleared a k, hvd ▸ List.mem_map_of_mem he, ?_, ?_⟩
        · rw [cleared_addr, hea, if_neg hk]
        · rw [cleared_live, if_neg hk, if_neg, hel]
          rintro ⟨_, he'⟩
          exact hk (Option.some.inj (hel.symm.trans he'))
  | append a new blocks ha =>
    have hvd : (appendRecord a new blocks u).dir.entries
        = u.dir.entries.map fun e => if e.addr = a then { e with live := some new.serial } else e := by
      unfold appendRecord; rw [(updCampaign_dir _ _ _).1]; rfl
    have hvr : (appendRecord a new blocks u).table.records = u.table.records ++ [new] := by
      unfold appendRecord; rw [(updCampaign_dir _ _ _).2.2.1]; rfl
    obtain ⟨d, hd, hda, hdt⟩ := ha.entry
    refine ⟨fun x hx j hj => ?_, fun x hx hn => ?_⟩
    · rw [hvd] at hx
      obtain ⟨e, he, rfl⟩ := List.mem_map.mp hx
      by_cases hea : e.addr = a
      · rw [if_pos hea] at hj ⊢
        obtain rfl := hdir.eq_of_addr hd he (hda.trans hea.symm)
        refine ⟨new, by rw [hvr]; simp, Option.some.inj hj, ha.addr.trans hea.symm, hdt.symm, ?_⟩
        rw [ha.state]; decide
      · rw [if_neg hea] at hj ⊢
        obtain ⟨q, hq, hrest⟩ := hentry e he j hj
        exact ⟨q, by rw [hvr]; exact List.mem_append_left _ hq, hrest⟩
    · rw [hvr] at hx
      obtain hx | hx := List.mem_append.mp hx
      · obtain ⟨e, he, hea, hel⟩ := hrecord x hx hn
        have hne : e.addr ≠ a := fun h => by
          rw [ha.idle h0 e he h] at hel; cases hel
        exact ⟨e, by rw [hvd]; exact List.mem_map.mpr ⟨e, he, if_neg hne⟩, hea, hel⟩
      · obtain rfl := List.mem_singleton.mp hx
        refine ⟨{ d with live := some x.serial }, ?_, hda.trans ha.addr.symm, rfl⟩
        rw [hvd]
        exact List.mem_map.mpr ⟨d, hd, if_pos hda⟩
  | pass room =>
    have hvd : (passHead u).dir.entries = u.dir.entries := by rw [(passHead_frame u).2.1]
    obtain hvr | ⟨r, hr, hf, hvr⟩ := passHead_finished htab
    · exact LiveLaw.congr hvd hvr ⟨hentry, hrecord⟩
    · refine ⟨fun e he k hk => ?_, fun x hx hn => ?_⟩
      · obtain ⟨q, hq, hqs, hqa, hqt, hqn⟩ := hentry e (hvd ▸ he) k hk
        refine ⟨q, ?_, hqs, hqa, hqt, hqn⟩
        rw [hvr, List.mem_filter, decide_eq_true_eq]
        exact ⟨hq, fun hs => hqn (htab.eq_of_serial hq hr hs ▸ hf)⟩
      · rw [hvr] at hx
        rw [hvd]
        exact hrecord x (List.mem_of_mem_filter hx) hn
  | done i =>
    exact LiveLaw.congr (by rw [(doneCheck_dir i u).1]) (by rw [(doneCheck_dir i u).2.2.1]) ⟨hentry, hrecord⟩
  | clear entries _ _ _ records =>
    refine ⟨fun e he k hk => ?_, fun r hr => by rw [records] at hr; cases hr⟩
    obtain h | h := entries
    · rw [h] at he; cases he
    · rw [h] at he
      obtain ⟨d, _, rfl⟩ := List.mem_map.mp he
      cases hk
  | grants => exact ⟨hentry, hrecord⟩
  | strangers => exact ⟨hentry, hrecord⟩
  | calendar => exact ⟨hentry, hrecord⟩
  | boosts => exact ⟨hentry, hrecord⟩
  | fetch => exact ⟨hentry, hrecord⟩
  | count => exact ⟨hentry, hrecord⟩
  | opens => exact ⟨hentry, hrecord⟩
  | release => exact ⟨hentry, hrecord⟩

theorem Act.orderly (h0 : Orderly s0) {u v : State} (h : Act s0 u v) (hu : Orderly u) : Orderly v :=
  ⟨h.directoryLaw hu.directory, h.tableLaw h0.table hu.table, h.liveLaw h0 hu⟩

/-- A run keeps the directory, the table and the live changes in order. -/
theorem Run.orderly {t : State} (h0 : Orderly s0) (h : Run s0 s0 t) : Orderly t :=
  h.keeps (fun _ _ => Act.orderly h0) h0

/-- Settles O59. -/
theorem liveLawKept : Obligations.LiveLawKept :=
  fun _ _ hd ht hl hstep => ((step_run hstep).orderly ⟨hd, ht, hl⟩).live

/-! ### The pool -/

/-- What an act does to the pool: nothing, or the blocks of an ended, an admitted, or all records. -/
theorem Act.poolLaw {u v : State} (h : Act s0 u v) (hu : PoolLaw u) : PoolLaw v := by
  have same {v : State} (h : v.pool = u.pool) : PoolLaw v := by unfold PoolLaw; rwa [h]
  cases h with
  | frame h => exact same h.pool
  | ends k code r a =>
    unfold PoolLaw
    rw [clearLive_pool, endRecord_pool, release_sum]
    exact hu
  | append a new blocks ha =>
    have hp : (appendRecord a new blocks u).pool = u.pool.take new.serial blocks := by
      unfold appendRecord; rw [(updCampaign_dir _ _ _).2.1]; rfl
    unfold PoolLaw
    rw [hp, take_sum _ _ _ ha.free]
    exact hu
  | pass => exact same (passHead_frame u).2.2.1
  | done i => exact same (doneCheck_dir i u).2.1
  | clear _ _ _ pool => unfold PoolLaw; rw [pool]; rfl
  | edit => exact same rfl
  | enrol => exact same rfl
  | delete => exact same rfl
  | grants => exact same rfl
  | strangers => exact same rfl
  | calendar => exact same rfl
  | boosts => exact same rfl
  | touch => exact same rfl
  | fetch => exact same rfl
  | count => exact same rfl
  | opens => exact same rfl
  | release => exact same rfl

/-- The serials and block counts of the records not FINISHED. -/
def holdings (rs : List Change) : List (Serial × Nat) :=
  (rs.filter fun r => decide (r.state ≠ .finished)).map fun r => (r.serial, r.blockCount)

/-- Records of other serials than `k` are the holdings that stay when `k` leaves. -/
theorem holdings_filter (k : Serial) (rs : List Change) :
    (holdings rs).filter (fun x => decide (x.1 ≠ k)) = holdings (rs.filter fun r => decide (r.serial ≠ k)) := by
  unfold holdings
  rw [List.filter_map, List.filter_filter, List.filter_filter]
  exact congrArg _ (List.filter_congr fun r _ => Bool.and_comm _ _)

/-- Closed records count as gone. -/
theorem holdings_closed (k : Serial) (code : OutcomeCode) (b : Beacon) (rs : List Change) :
    holdings (rs.map fun r => if r.serial = k then r.closed code b else r)
      = holdings (rs.filter fun r => decide (r.serial ≠ k)) := by
  induction rs with
  | nil => rfl
  | cons r rs ih =>
    by_cases hk : r.serial = k
    · rw [List.map_cons, if_pos hk, List.filter_cons_of_neg (by simp [hk])]
      exact ih
    · rw [List.map_cons, if_neg hk, List.filter_cons_of_pos (by simp [hk])]
      unfold holdings at ih ⊢
      rw [List.filter_cons, List.filter_cons]
      split
      · rw [List.map_cons, List.map_cons, ih]
      · exact ih

/-- Records that move on hold what they held. -/
theorem holdings_map {f : Change → Change} {rs : List Change} (h : ∀ r ∈ rs, r.Alike (f r)) :
    holdings (rs.map f) = holdings rs := by
  induction rs with
  | nil => rfl
  | cons r rs ih =>
    have hr := h r List.mem_cons_self
    have ih := ih fun x hx => h x (List.mem_cons_of_mem r hx)
    unfold holdings at ih ⊢
    rw [List.map_cons, List.filter_cons, List.filter_cons]
    by_cases hf : r.state = .finished
    · rw [if_neg (by simp [hr.finished.mpr hf]), if_neg (by simp [hf]), ih]
    · rw [if_pos (by simp [hr.finished, hf]), if_pos (by simp [hf]), List.map_cons, List.map_cons, ih, hr.serial,
        hr.blockCount]

/-- A FINISHED record that leaves holds nothing. -/
theorem holdings_pass {u : State} (ht : TableLaw u) {r : Change} (hr : r ∈ u.table.records) (hf : r.state = .finished) :
    holdings (u.table.records.filter fun x => decide (x.serial ≠ r.serial)) = holdings u.table.records := by
  unfold holdings
  rw [List.filter_filter]
  refine congrArg _ (List.filter_congr fun x hx => ?_)
  by_cases hs : x.serial = r.serial
  · simp [ht.eq_of_serial hx hr hs, hf]
  · simp [hs]

theorem Act.holdingLaw {u v : State} (h : Act s0 u v) (ht : TableLaw u) (hu : HoldingLaw u) : HoldingLaw v := by
  change (u.pool.held.map fun x => (x.serial, x.blocks.length)).Perm (holdings u.table.records) at hu
  change (v.pool.held.map fun x => (x.serial, x.blocks.length)).Perm (holdings v.table.records)
  cases h with
  | frame h => rwa [h.pool, h.records]
  | touch k f h =>
    have hsame : holdings (updRecord k f u).table.records = holdings u.table.records := by
      rw [updRecord_table]
      refine holdings_map fun r hr => ?_
      split
      · next hk => exact h r (hk ▸ ht.recordOf hr)
      · exact .refl r
    rw [hsame]
    exact hu
  | ends k code r a =>
    rw [clearLive_pool, endRecord_pool, clearLive_table, endRecord_table]
    refine List.Perm.trans ?_ (.of_eq (holdings_closed k code u.air.beacon u.table.records).symm)
    rw [← holdings_filter]
    have hfilter := hu.filter fun x => decide (x.1 ≠ k)
    rwa [List.filter_map] at hfilter
  | append a new blocks ha =>
    have hp : (appendRecord a new blocks u).pool = u.pool.take new.serial blocks := by
      unfold appendRecord; rw [(updCampaign_dir _ _ _).2.1]; rfl
    have hvr : (appendRecord a new blocks u).table.records = u.table.records ++ [new] := by
      unfold appendRecord; rw [(updCampaign_dir _ _ _).2.2.1]; rfl
    have hnew : holdings (u.table.records ++ [new]) = holdings u.table.records ++ [(new.serial, blocks.length)] := by
      unfold holdings
      rw [List.filter_append, List.map_append, List.filter_cons_of_pos (by simp [ha.state]), ha.count.symm]
      rfl
    rw [hp, hvr, hnew]
    unfold Pool.take
    rw [List.map_append]
    exact hu.append_right _
  | pass room =>
    rw [(passHead_frame u).2.2.1]
    obtain hvr | ⟨r, hr, hf, hvr⟩ := passHead_finished ht
    · rwa [hvr]
    · rwa [hvr, holdings_pass ht hr hf]
  | done i => rwa [(doneCheck_dir i u).2.1, (doneCheck_dir i u).2.2.1]
  | clear _ _ _ pool records => rw [pool, records]; exact .refl _
  | edit => exact hu
  | enrol => exact hu
  | delete => exact hu
  | grants => exact hu
  | strangers => exact hu
  | calendar => exact hu
  | boosts => exact hu
  | fetch => exact hu
  | count => exact hu
  | opens => exact hu
  | release => exact hu

/-- Settles O56: blocks move between the free ones and those held, and the pool's holdings follow the records' states. -/
theorem poolLawKept : Obligations.PoolLawKept := by
  intro s t hpool hstep
  refine ⟨(step_run hstep).keeps (fun _ _ => Act.poolLaw) hpool, fun ht hh => ?_⟩
  have hkept := (step_run hstep).keeps (L := fun u => TableLaw u ∧ HoldingLaw u)
    (fun _ _ hact hu => ⟨hact.tableLaw ht hu.1, hact.holdingLaw hu.1 hu.2⟩) ⟨ht, hh⟩
  exact hkept.2

end Sys2Proof.Machine
end

section
/-! The campaigns' accounts and their activations, act by act. -/

namespace Sys2Proof.Machine

variable {s0 : State}

/-! ### Counting -/

/-- The number of records of campaign `i` in a live state. -/
def State.liveCount (s : State) (i : CampaignIndex) : Nat :=
  s.table.records.countP fun r => decide (r.campaign = some i ∧ r.state ≠ .finished)

/-- The account of one campaign (R94, R103). -/
def Account (c : Campaign) (n : Nat) : Prop :=
  c.admitted = c.tallies.sum + BitVec.ofNat 32 n ∧ (c.state = .free ∨ c.state = .done → n = 0)

/-- Changed in place, records of every campaign are as many when each keeps its campaign. -/
theorem campaignRecords_map {u v : State} {f : Change → Change} (hv : v.table.records = u.table.records.map f)
    (hf : ∀ r ∈ u.table.records, (f r).campaign = r.campaign) (i : CampaignIndex) :
    v.campaignRecords i = u.campaignRecords i := by
  unfold State.campaignRecords
  rw [hv, List.countP_map]
  refine List.countP_congr fun r hr => ?_
  rw [Function.comp_apply, hf r hr]

theorem liveCount_congr {u v : State} (hv : v.table.records = u.table.records) (i : CampaignIndex) :
    v.liveCount i = u.liveCount i := by
  unfold State.liveCount
  rw [hv]

theorem campaignRecords_le {s : State} (h : TableLaw s) (i : CampaignIndex) : s.campaignRecords i ≤ 4096 :=
  List.countP_le_length.trans h.1

/-- One record of a serial leaves: what is counted with it, falls by one. -/
theorem countP_drop {rs : List Change} {r : Change} (p : Change → Bool) (h : (rs.map (·.serial)).Nodup) (hr : r ∈ rs) :
    rs.countP p = (rs.filter fun x => decide (x.serial ≠ r.serial)).countP p + if p r = true then 1 else 0 := by
  induction rs with
  | nil => cases hr
  | cons x xs ih =>
    rw [List.map_cons, List.nodup_cons] at h
    obtain ⟨hx, hxs⟩ := h
    obtain rfl | hr := List.mem_cons.mp hr
    · have hall : xs.filter (fun y => decide (y.serial ≠ r.serial)) = xs := List.filter_eq_self.mpr fun y hy => by
        rw [decide_eq_true_eq]
        exact fun hs => hx (hs ▸ List.mem_map_of_mem hy)
      rw [List.filter_cons_of_neg (by simp), hall, List.countP_cons]
    · have hne : x.serial ≠ r.serial := fun hs => hx (hs ▸ List.mem_map_of_mem hr)
      rw [List.filter_cons_of_pos (by simpa using hne), List.countP_cons, List.countP_cons, ih hxs hr]
      omega

/-! ### Accounts -/

theorem ofNat_eq_zero {n : Nat} (h : n ≤ 4096) (hz : BitVec.ofNat 32 n = 0) : n = 0 := by
  have := congrArg BitVec.toNat hz
  rw [BitVec.toNat_ofNat, Nat.mod_eq_of_lt (by omega)] at this
  exact this

/-- Done detection keeps the accounts: the tallies are the admitted count where no record is left (R103). -/
theorem doneCheck_campaignLaw (i : CampaignIndex) {s : State} (ht : TableLaw s) (h : CampaignLaw s) :
    CampaignLaw (doneCheck i s) := by
  obtain he | ⟨_, hsum, d, hd, he⟩ := doneCheck_eq i s <;> rw [he]
  · exact h
  · refine fun j => ?_
    change Account ((s.campaigns.set i d).get j) (s.campaignRecords j)
    rw [Quad.get_set]
    split
    · next hj =>
      subst hj
      subst hd
      have hacc := (h j).1
      refine ⟨hacc, fun _ => ofNat_eq_zero (campaignRecords_le ht j) ?_⟩
      rw [hsum] at hacc
      exact (left_eq_add.mp hacc)
    · exact h j

theorem bump_sum (t : Tallies) (code : OutcomeCode) : (t.bump code).sum = t.sum + 1#32 := by
  cases code <;>
    simp only [Tallies.bump, Tallies.sum, Tallies.toList, List.foldl_cons, List.foldl_nil, BitVec.ofNat_eq_ofNat] <;>
    ac_rfl

/-- A record leaves the table with a tally (R94): its campaign's account stays. -/
theorem tally_campaignLaw {u v : State} {r : Change} {code : OutcomeCode} (ht : TableLaw u) (hu : CampaignLaw u)
    (hr : r ∈ u.table.records) (i : CampaignIndex) (hi : r.campaign = some i)
    (hrec : v.table.records = u.table.records.filter fun x => decide (x.serial ≠ r.serial))
    (hcam : v.campaigns = u.campaigns.modify i fun c => { c with tallies := c.tallies.bump code }) : CampaignLaw v := by
  intro j
  have hcount : u.campaignRecords j = v.campaignRecords j + if r.campaign = some j then 1 else 0 := by
    unfold State.campaignRecords
    rw [hrec, countP_drop _ ht.2.1 hr]
    simp
  change Account (v.campaigns.get j) (v.campaignRecords j)
  obtain ⟨hsum, hzero⟩ := hu j
  rw [hcam, Quad.get_modify]
  by_cases hj : j = i
  · subst hj
    rw [if_pos rfl]
    rw [if_pos hi] at hcount
    refine ⟨?_, fun hs => absurd (hzero hs) (by omega)⟩
    change (u.campaigns.get j).admitted = ((u.campaigns.get j).tallies.bump code).sum + _
    rw [hsum, bump_sum, hcount, BitVec.ofNat_add]
    ac_rfl
  · rw [if_neg hj]
    rw [if_neg (by rw [hi]; exact fun h => hj (Option.some.inj h).symm)] at hcount
    rw [← show u.campaignRecords j = v.campaignRecords j by omega]
    exact ⟨hsum, hzero⟩

/-- What passing a record does to the work: nothing, or a FINISHED record leaves the table, joins the outcome list, is tallied, and
done detection follows (R82, R94, R103). -/
theorem passHead_cases (s : State) : SameWork s (passHead s)
    ∨ ∃ (k : Serial) (rest : List Serial) (r : Change) (o : OutcomeRecord), s.recordOf k = some r ∧ r.outcomeRecord = some o
      ∧ SameWork (tallyOutcome r.campaign o.code { s with
          table.retire := rest
          table.records := s.table.records.filter fun x => decide (x.serial ≠ r.serial)
          table.outcomes := s.table.outcomes ++ [o] }) (passHead s) := by
  cases hq : s.table.retire with
  | nil => exact .inl (by unfold passHead; rw [hq]; exact .refl s)
  | cons k rest =>
    cases hro : (s.recordOf k).bind Change.outcomeRecord with
    | none => exact .inl (by rw [passHead_none hq hro]; exact ⟨rfl, rfl, rfl, rfl, rfl, rfl, rfl⟩)
    | some o =>
      obtain ⟨r, hr, ho⟩ := Option.bind_eq_some_iff.mp hro
      refine .inr ⟨k, rest, r, o, hr, ho, ?_⟩
      rw [passHead_some hq hr ho, (outcomeRecord_some ho).2, recordOf_serial hr]
      exact latchTrigger_work _

theorem CampaignLaw.congr {u v : State} (hr : v.table.records = u.table.records) (hc : v.campaigns = u.campaigns)
    (hu : CampaignLaw u) : CampaignLaw v := by
  unfold CampaignLaw State.campaignRecords
  rwa [hr, hc]

theorem campaignLaw_pass {u : State} (ht : TableLaw u) (hu : CampaignLaw u) : CampaignLaw (passHead u) := by
  obtain h | ⟨k, rest, r, o, hr, ho, h⟩ := passHead_cases u
  · exact hu.congr h.records h.campaigns
  · refine CampaignLaw.congr h.records h.campaigns ?_
    have hmem := recordOf_mem hr
    have htab : TableLaw { u with
        table.retire := rest
        table.records := u.table.records.filter fun x => decide (x.serial ≠ r.serial)
        table.outcomes := u.table.outcomes ++ [o] } :=
      ⟨(List.length_filter_le _ _).trans ht.1, ht.2.1.sublist (List.filter_sublist.map _),
        fun x hx => ht.2.2 x (List.mem_of_mem_filter hx)⟩
    cases hi : r.campaign with
    | none =>
      refine fun j => ?_
      change Account (u.campaigns.get j) (List.countP _ (u.table.records.filter _))
      have hcount := countP_drop (fun x => decide (x.campaign = some j)) ht.2.1 hmem
      rw [hi] at hcount
      simp only [reduceCtorEq, decide_false, Bool.false_eq_true, if_false, Nat.add_zero] at hcount
      rw [← hcount]
      exact hu j
    | some i =>
      refine doneCheck_campaignLaw i ?_ (tally_campaignLaw (code := o.code) ht hu hmem i hi rfl rfl)
      exact htab

/-- The records' campaigns after an act that changes no record's campaign. -/
theorem Act.campaignLaw {u v : State} (h : Act s0 u v) (ht : TableLaw u) (hu : CampaignLaw u) : CampaignLaw v := by
  cases h with
  | frame h => exact hu.congr h.records h.campaigns
  | touch k f h =>
    have hcount (i : CampaignIndex) : (updRecord k f u).campaignRecords i = u.campaignRecords i := by
      refine campaignRecords_map rfl (fun r hr => ?_) i
      split
      · next hk => exact (h r (hk ▸ ht.recordOf hr)).campaign
      · rfl
    refine fun i => ?_
    change Account (u.campaigns.get i) _
    rw [hcount]
    exact hu i
  | ends k code r a hr =>
    have hcount (i : CampaignIndex) : (clearLive a k (endRecord k code r u)).campaignRecords i = u.campaignRecords i := by
      refine campaignRecords_map (f := fun x => if x.serial = k then x.closed code u.air.beacon else x)
        (by rw [clearLive_table, endRecord_table]; rfl) (fun x _ => ?_) i
      split <;> rfl
    refine fun i => ?_
    change Account ((endRecord k code r u).campaigns.get i) _
    rw [hcount]
    obtain ⟨hsum, hzero⟩ := hu i
    unfold endRecord
    cases hj : r.campaign with
    | none => exact ⟨hsum, hzero⟩
    | some j =>
      change Account ((u.campaigns.modify j _).get i) _
      rw [Quad.get_modify]
      split <;> exact ⟨hsum, hzero⟩
  | append a new blocks ha =>
    have hvr : (appendRecord a new blocks u).table.records = u.table.records ++ [new] := by
      unfold appendRecord; rw [(updCampaign_dir _ _ _).2.2.1]; rfl
    refine fun i => ?_
    have hcount : (appendRecord a new blocks u).campaignRecords i
        = u.campaignRecords i + if new.campaign = some i then 1 else 0 := by
      unfold State.campaignRecords
      rw [hvr, List.countP_append, List.countP_singleton]
      simp
    change Account ((appendRecord a new blocks u).campaigns.get i) _
    obtain ⟨hsum, hzero⟩ := hu i
    rw [hcount]
    unfold appendRecord
    cases hj : new.campaign with
    | none =>
      rw [if_neg (by simp)]
      exact ⟨hsum, hzero⟩
    | some j =>
      change Account ((u.campaigns.modify j _).get i) _
      rw [Quad.get_modify]
      by_cases hij : i = j
      · subst hij
        rw [if_pos rfl, if_pos rfl]
        have hopen := ha.opened i hj
        refine ⟨?_, fun hs => ?_⟩
        · change (u.campaigns.get i).admitted + 1#32 = (u.campaigns.get i).tallies.sum + _
          rw [hsum, BitVec.ofNat_add]
          ac_rfl
        · change (u.campaigns.get i).state = .free ∨ (u.campaigns.get i).state = .done at hs
          rw [hopen] at hs
          simp at hs
      · rw [if_neg hij, if_neg fun h => hij (Option.some.inj h).symm]
        exact ⟨hsum, hzero⟩
  | pass room => exact campaignLaw_pass ht hu
  | done i => exact doneCheck_campaignLaw i ht hu
  | count i f h =>
    refine fun j => ?_
    change Account ((u.campaigns.modify i f).get j) (u.campaignRecords j)
    rw [Quad.get_modify]
    split
    · obtain ⟨_, hadm, _, htal, hst⟩ := h (u.campaigns.get j)
      refine ⟨by rw [hadm, htal]; exact (hu j).1, fun hs => (hu j).2 ?_⟩
      obtain hst | ⟨hst, _⟩ := hst
      · rwa [hst] at hs
      · rw [hst] at hs; simp at hs
    · exact hu j
  | opens i time b p h0 h =>
    refine fun j => ?_
    change Account ((u.campaigns.set i _).get j) (u.campaignRecords j)
    rw [Quad.get_set]
    split
    · next hj =>
      subst hj
      rw [(hu j).2 (.inl h)]
      exact ⟨rfl, fun _ => rfl⟩
    · exact hu j
  | release i h =>
    refine fun j => ?_
    change Account ((u.campaigns.set i _).get j) (u.campaignRecords j)
    rw [Quad.get_set]
    split
    · next hj =>
      subst hj
      rw [(hu j).2 (.inr h)]
      exact ⟨rfl, fun _ => rfl⟩
    · exact hu j
  | clear _ _ _ _ records _ campaigns =>
    refine fun j => ?_
    unfold State.campaignRecords
    rw [records, campaigns]
    fin_cases j <;> exact ⟨rfl, fun _ => rfl⟩
  | edit => exact hu
  | enrol => exact hu
  | delete => exact hu
  | grants => exact hu
  | strangers => exact hu
  | calendar => exact hu
  | boosts => exact hu
  | fetch => exact hu

/-! ### Live counts -/

theorem liveCount_map {u v : State} {f : Change → Change} (hv : v.table.records = u.table.records.map f)
    (hf : ∀ r ∈ u.table.records, r.Alike (f r)) (i : CampaignIndex) : v.liveCount i = u.liveCount i := by
  unfold State.liveCount
  rw [hv, List.countP_map]
  refine List.countP_congr fun r hr => ?_
  simp only [Function.comp_apply, (hf r hr).campaign, decide_eq_true_eq, ne_eq, (hf r hr).finished]

/-- A closed record is no live one: closing it counts as taking it out. -/
theorem liveCount_closed (k : Serial) (code : OutcomeCode) (b : Beacon) (rs : List Change) (i : CampaignIndex) :
    (rs.map fun r => if r.serial = k then r.closed code b else r).countP
        (fun r => decide (r.campaign = some i ∧ r.state ≠ .finished))
      = (rs.filter fun r => decide (r.serial ≠ k)).countP fun r => decide (r.campaign = some i ∧ r.state ≠ .finished) := by
  induction rs with
  | nil => rfl
  | cons r rs ih =>
    by_cases hk : r.serial = k
    · rw [List.map_cons, if_pos hk, List.filter_cons_of_neg (by simp [hk]), List.countP_cons_of_neg, ih]
      simp [Change.closed]
    · rw [List.map_cons, if_neg hk, List.filter_cons_of_pos (by simp [hk]), List.countP_cons, List.countP_cons, ih]

theorem doneCheck_live (i j : CampaignIndex) (s : State) :
    ((doneCheck i s).campaigns.get j).live = (s.campaigns.get j).live := by
  obtain h | ⟨_, _, d, hd, h⟩ := doneCheck_eq i s <;> rw [h]
  change ((s.campaigns.set i d).get j).live = _
  rw [Quad.get_set]
  split
  · next hj => subst hj; rw [hd]
  · rfl

theorem tallyOutcome_live (i : Option CampaignIndex) (code : OutcomeCode) (j : CampaignIndex) (s : State) :
    ((tallyOutcome i code s).campaigns.get j).live = (s.campaigns.get j).live := by
  cases i with
  | none => rfl
  | some i =>
    unfold tallyOutcome
    dsimp only
    rw [doneCheck_live, Quad.get_modify]
    split <;> rfl

theorem passHead_live (j : CampaignIndex) (s : State) :
    ((passHead s).campaigns.get j).live = (s.campaigns.get j).live := by
  obtain h | ⟨k, rest, r, o, _, _, h⟩ := passHead_cases s <;> rw [h.campaigns]
  exact tallyOutcome_live _ _ _ _

/-- A live count changed in step with the records keeps its law. -/
theorem Act.liveCountLaw (h0 : Orderly s0) {u v : State} (h : Act s0 u v) (ht : TableLaw u) (hc : CampaignLaw u)
    (hu : LiveCountLaw u) : LiveCountLaw v := by
  change ∀ i, (u.campaigns.get i).live = u.liveCount i at hu
  change ∀ i, (v.campaigns.get i).live = v.liveCount i
  have hzero (i : CampaignIndex) (hs : (u.campaigns.get i).state = .free ∨ (u.campaigns.get i).state = .done) :
      u.liveCount i = 0 := by
    refine Nat.le_zero.mp (le_of_le_of_eq (List.countP_mono_left fun r _ hr => ?_) ((hc i).2 hs))
    rw [decide_eq_true_eq] at hr ⊢
    exact hr.1
  intro i
  cases h with
  | frame h => rw [h.campaigns, liveCount_congr h.records]; exact hu i
  | touch k f h =>
    rw [liveCount_map (f := fun r => if r.serial = k then f r else r) rfl fun r hr => ?_]
    · exact hu i
    · split
      · next hk => exact h r (hk ▸ ht.recordOf hr)
      · exact .refl r
  | ends k code r a hr live =>
    have hvr : (clearLive a k (endRecord k code r u)).table.records
        = u.table.records.map fun x => if x.serial = k then x.closed code u.air.beacon else x := by
      rw [clearLive_table, endRecord_table]; rfl
    have hdrop := countP_drop (fun x => decide (x.campaign = some i ∧ x.state ≠ .finished)) ht.2.1 (recordOf_mem hr)
    have hcount : u.liveCount i = (clearLive a k (endRecord k code r u)).liveCount i
        + if r.campaign = some i then 1 else 0 := by
      unfold State.liveCount
      rw [hvr, liveCount_closed, hdrop, recordOf_serial hr]
      simp [live h0]
    change ((endRecord k code r u).campaigns.get i).live = _
    have hui := hu i
    generalize (clearLive a k (endRecord k code r u)).liveCount i = n at hcount ⊢
    unfold endRecord
    cases hj : r.campaign with
    | none =>
      rw [hj, if_neg (by simp)] at hcount
      change (u.campaigns.get i).live = n
      omega
    | some j =>
      change ((u.campaigns.modify j _).get i).live = n
      rw [hj] at hcount
      rw [Quad.get_modify]
      by_cases hij : i = j
      · subst hij
        rw [if_pos rfl] at hcount ⊢
        change (u.campaigns.get i).live - 1 = n
        omega
      · rw [if_neg fun h => hij (Option.some.inj h).symm] at hcount
        rw [if_neg hij]
        omega
  | append a new blocks ha =>
    have hvr : (appendRecord a new blocks u).table.records = u.table.records ++ [new] := by
      unfold appendRecord; rw [(updCampaign_dir _ _ _).2.2.1]; rfl
    have hcount : (appendRecord a new blocks u).liveCount i
        = u.liveCount i + if new.campaign = some i then 1 else 0 := by
      unfold State.liveCount
      rw [hvr, List.countP_append, List.countP_singleton]
      simp [ha.state]
    rw [hcount, ← hu i]
    unfold appendRecord
    cases hj : new.campaign with
    | none => rfl
    | some j =>
      change ((u.campaigns.modify j _).get i).live = _
      rw [Quad.get_modify]
      by_cases hij : i = j
      · subst hij
        rw [if_pos rfl, if_pos rfl]
      · rw [if_neg hij, if_neg fun h => hij (Option.some.inj h).symm]
        rfl
  | pass room =>
    have hcount : (passHead u).liveCount i = u.liveCount i := by
      obtain hvr | ⟨r, hr, hf, hvr⟩ := passHead_finished ht
      · exact liveCount_congr hvr i
      · have hdrop := countP_drop (fun x => decide (x.campaign = some i ∧ x.state ≠ .finished)) ht.2.1 hr
        rw [if_neg (by simp [hf]), Nat.add_zero] at hdrop
        unfold State.liveCount
        rw [hvr, hdrop]
    rw [passHead_live, hcount]
    exact hu i
  | done j =>
    rw [doneCheck_live, hu i]
    exact (liveCount_congr (by rw [(doneCheck_dir j u).2.2.1]) i).symm
  | count j f h =>
    change ((u.campaigns.modify j f).get i).live = u.liveCount i
    rw [Quad.get_modify]
    split
    · rw [(h _).2.2.1]; exact hu i
    · exact hu i
  | opens j time b p _ h =>
    change ((u.campaigns.set j _).get i).live = u.liveCount i
    rw [Quad.get_set]
    split
    · next hij => subst hij; rw [hzero i (.inl h)]; rfl
    · exact hu i
  | release j h =>
    change ((u.campaigns.set j _).get i).live = u.liveCount i
    rw [Quad.get_set]
    split
    · next hij => subst hij; rw [hzero i (.inr h)]; rfl
    · exact hu i
  | clear _ _ _ _ records _ campaigns =>
    unfold State.liveCount
    rw [records, campaigns]
    fin_cases i <;> rfl
  | edit => exact hu i
  | enrol => exact hu i
  | delete => exact hu i
  | grants => exact hu i
  | strangers => exact hu i
  | calendar => exact hu i
  | boosts => exact hu i
  | fetch => exact hu i

/-- Settles O58: the table's bounds and the accounts stay together, and with entries and live records in step the live counts. -/
theorem accountsKept : Obligations.AccountsKept := by
  intro s t ht hc hstep
  have hacc := (step_run hstep).keeps (L := fun u => TableLaw u ∧ CampaignLaw u)
    (fun _ _ hact hu => ⟨hact.tableLaw ht hu.1, hact.campaignLaw hu.1 hu.2⟩) ⟨ht, hc⟩
  refine ⟨hacc.1, hacc.2, fun hd hl hcount => ?_⟩
  have hlive := (step_run hstep).keeps (L := fun u => (TableLaw u ∧ CampaignLaw u) ∧ LiveCountLaw u)
    (fun _ _ hact hu => ⟨⟨hact.tableLaw ht hu.1.1, hact.campaignLaw hu.1.1 hu.1.2⟩,
      hact.liveCountLaw ⟨hd, ht, hl⟩ hu.1.1 hu.1.2 hu.2⟩) ⟨⟨ht, hc⟩, hcount⟩
  exact hlive.2

/-! ### Activations -/

/-- The activation of campaign `i` is as it was when the step began, or the campaign has become FREE without one. -/
def Activated (s0 : State) (i : CampaignIndex) (s : State) : Prop :=
  (s.campaigns.get i).activation = (s0.campaigns.get i).activation
    ∨ (s.campaigns.get i).state = .free ∧ (s.campaigns.get i).activation = none

/-- Entries changed in place keep the law when they keep the activation, and CUT or DONE only those that have one. -/
theorem Activated.of_eq {i : CampaignIndex} {u v : State}
    (hact : (v.campaigns.get i).activation = (u.campaigns.get i).activation)
    (hstate : (v.campaigns.get i).state = (u.campaigns.get i).state ∨ (u.campaigns.get i).activation ≠ none
      ∨ (u.campaigns.get i).state ≠ .free) (h : Activated s0 i u) : Activated s0 i v := by
  unfold Activated
  rw [hact]
  obtain h | ⟨hf, hn⟩ := h
  · exact .inl h
  · obtain hs | hs | hs := hstate
    · exact .inr ⟨hs.trans hf, hn⟩
    · exact absurd hn hs
    · exact absurd hf hs

theorem Activated.congr {i : CampaignIndex} {u v : State} (hc : v.campaigns = u.campaigns) (h : Activated s0 i u) :
    Activated s0 i v := by
  unfold Activated
  rwa [hc]

theorem doneCheck_activated {i : CampaignIndex} (j : CampaignIndex) {s : State} (h : Activated s0 i s) :
    Activated s0 i (doneCheck j s) := by
  refine h.of_eq (doneCheck_activation j s i) ?_
  obtain he | ⟨hcut, _, d, hd, he⟩ := doneCheck_eq j s
  · exact .inl (by rw [he])
  · rw [he, Quad.get_set]
    split
    · next hij => subst hij; exact .inr (.inr (by rw [hcut]; decide))
    · exact .inl rfl

/-- A change of a campaign's entry that keeps state and activation keeps the law. -/
theorem updCampaign_activated {i : CampaignIndex} (j : Option CampaignIndex) (f : Campaign → Campaign)
    (hs : ∀ c, (f c).state = c.state) (ha : ∀ c, (f c).activation = c.activation) {s : State} (h : Activated s0 i s) :
    Activated s0 i (updCampaign j f s) :=
  h.of_eq (updCampaign_activation j f ha s i) (.inl (updCampaign_state j f hs s i))

theorem passHead_activated {i : CampaignIndex} {s : State} (h : Activated s0 i s) : Activated s0 i (passHead s) := by
  obtain he | ⟨k, rest, r, o, _, _, he⟩ := passHead_cases s
  · exact h.congr he.campaigns
  · refine Activated.congr he.campaigns ?_
    cases r.campaign with
    | none => exact h
    | some j =>
      exact doneCheck_activated j (updCampaign_activated (some j) (fun c => { c with tallies := c.tallies.bump o.code })
        (fun _ => rfl) (fun _ => rfl) h)

theorem Act.activated {i : CampaignIndex} (hopen : (s0.campaigns.get i).state = .opened) {u v : State} (h : Act s0 u v)
    (hu : Activated s0 i u) : Activated s0 i v := by
  cases h with
  | frame h => exact hu.congr h.campaigns
  | ends k code r a =>
    exact updCampaign_activated r.campaign (fun c => { c with live := c.live - 1 }) (fun _ => rfl) (fun _ => rfl)
      (s := closeRecord k code u) hu
  | append a new blocks ha =>
    unfold appendRecord
    exact updCampaign_activated new.campaign (fun c => { c with admitted := c.admitted + 1, live := c.live + 1 })
      (fun _ => rfl) (fun _ => rfl) hu
  | pass => exact passHead_activated hu
  | done j => exact doneCheck_activated j hu
  | count j f h =>
    refine hu.of_eq ?_ ?_ <;> rw [Quad.get_modify] <;> split
    · exact (h _).1
    · rfl
    · next hij =>
      subst hij
      exact (h _).2.2.2.2.imp_right fun h => .inl h.2
    · exact .inl rfl
  | opens j time b p h0 h =>
    have hne : i ≠ j := by rintro rfl; rw [hopen] at h0; cases h0
    unfold Activated at hu ⊢
    rwa [Quad.get_set, if_neg hne]
  | release j h =>
    unfold Activated at hu ⊢
    rw [Quad.get_set]
    split
    · exact .inr ⟨rfl, rfl⟩
    · exact hu
  | clear _ _ _ _ _ _ campaigns =>
    unfold Activated
    rw [campaigns]
    fin_cases i <;> exact .inr ⟨rfl, rfl⟩
  | edit => exact hu
  | enrol => exact hu
  | delete => exact hu
  | grants => exact hu
  | strangers => exact hu
  | calendar => exact hu
  | boosts => exact hu
  | touch => exact hu
  | fetch => exact hu

/-- Settles O37: only an opening writes an activation, and it is of a FREE campaign. -/
theorem activationKept : Obligations.ActivationKept := by
  intro i s t hstep hopen hne
  have h := (step_run hstep).keeps (L := Activated s i) (fun _ _ => Act.activated hopen) (.inl rfl)
  exact h.resolve_right fun hf => hne hf.1

end Sys2Proof.Machine
end

section
/-! What the blocks' turns leave alone: the supply, the settings, the schedule, the heads and windows, the host line, the request
in progress and the model's own fields (`SameBase`). -/

namespace Sys2Proof.Machine

/-! ### Entries, filings and boosts -/

theorem updEntry_base (a : Nat) (f : Entry → Entry) (s : State) : SameBase s (updEntry a f s) :=
  ⟨rfl, rfl, rfl, rfl, rfl, rfl, rfl, rfl⟩

theorem updRecord_base (k : Serial) (f : Change → Change) (s : State) : SameBase s (updRecord k f s) :=
  ⟨rfl, rfl, rfl, rfl, rfl, rfl, rfl, rfl⟩

theorem dropCalendar_base (a : Nat) (s : State) : SameBase s (dropCalendar a s) :=
  ⟨rfl, rfl, rfl, rfl, rfl, rfl, rfl, rfl⟩

theorem dropBoost_base (a : Nat) (s : State) : SameBase s (dropBoost a s) := ⟨rfl, rfl, rfl, rfl, rfl, rfl, rfl, rfl⟩

theorem placeCalendar_base (c : Cell) (x : CalendarEntry) (s : State) : SameBase s (placeCalendar c x s) :=
  ⟨rfl, rfl, rfl, rfl, rfl, rfl, rfl, rfl⟩

theorem placeBoost_base (c : Cell) (x : BoostEntry) (s : State) : SameBase s (placeBoost c x s) :=
  ⟨rfl, rfl, rfl, rfl, rfl, rfl, rfl, rfl⟩

theorem dropGrants_base (id : TagId) (s : State) : SameBase s (dropGrants id s) :=
  ⟨rfl, rfl, rfl, rfl, rfl, rfl, rfl, rfl⟩

theorem orderEntry_base (a : Nat) (f : Entry → Entry) (s : State) : SameBase s (orderEntry a f s) :=
  (workNotice_base a _).after (updEntry_base a f s)

theorem deleteEntry_base (e : Entry) (s : State) : SameBase s (deleteEntry e s) :=
  ⟨rfl, rfl, rfl, rfl, rfl, rfl, rfl, rfl⟩

theorem finish_base (k : Serial) (code : OutcomeCode) (within : Bool) (s : State) :
    SameBase s (finish k code within s) := (finish_frame k code within s).1

theorem moveRecord_base (k : Serial) (f : Change → Change) (s : State) : SameBase s (moveRecord k f s) :=
  (moveRecord_frame k f s).1

theorem foldl_base {α : Type} {f : State → α → State} (hf : ∀ s a, SameBase s (f s a)) (xs : List α) (s : State) :
    SameBase s (xs.foldl f s) :=
  foldl_keeps SameBase (fun _ => .rfl) (fun _ _ _ => SameBase.trans) f hf xs s

theorem passAll_base (s : State) : SameBase s (passAll s) := (passRecords_frame _ s).1

theorem debit_base (a cost : Nat) (s : State) : SameBase s (debit a cost s) := by
  unfold debit
  dsimp only
  split <;> exact ⟨rfl, rfl, rfl, rfl, rfl, rfl, rfl, rfl⟩

/-! ### A report's turns -/

theorem badReport_base (r : Change) (s : State) : SameBase s (badReport r s) := by
  unfold badReport
  dsimp only
  split
  · exact (finish_base _ _ _ _).after (updRecord_base _ _ s)
  · split <;> exact (moveRecord_base _ _ _).after (updRecord_base _ _ s)

theorem reportDelivery_base (r : Change) (p : Report) (s : State) : SameBase s (reportDelivery r p s) := by
  unfold reportDelivery
  split
  · exact finish_base _ _ _ _
  · split
    · split
      · exact badReport_base r s
      · exact moveRecord_base _ _ _
      · exact moveRecord_base _ _ _
      · exact moveRecord_base _ _ _
    · exact moveRecord_base _ _ _

theorem reportStaged_base (r : Change) (p : Report) (s : State) : SameBase s (reportStaged r p s) := by
  unfold reportStaged
  split
  · exact .rfl
  · split
    · exact badReport_base r s
    · exact moveRecord_base _ _ _

theorem reportVerifying_base (r : Change) (p : Report) (s : State) : SameBase s (reportVerifying r p s) := by
  unfold reportVerifying
  split
  · exact finish_base _ _ _ _
  · split
    · exact .rfl
    · split
      · exact badReport_base r s
      · exact moveRecord_base _ _ _

theorem reportWithdrawing_base (r : Change) (p : Report) (s : State) : SameBase s (reportWithdrawing r p s) := by
  unfold reportWithdrawing
  split
  · exact .rfl
  · exact finish_base _ _ _ _

theorem changeReport_base (a : Nat) (k : Serial) (p : Report) (s : State) : SameBase s (changeReport a k p s) := by
  unfold changeReport
  split
  · exact .rfl
  · split
    · split
      · exact .rfl
      · next r _ =>
        dsimp only
        have hstaged : SameBase s (if p.staged.serial = k then updRecord k (fun r => { r with displaced := none }) s else s) := by
          split
          · exact updRecord_base k _ s
          · exact .rfl
        refine hstaged.trans ?_
        generalize (if p.staged.serial = k then updRecord k (fun r => { r with displaced := none }) s else s) = u
        split
        · exact reportDelivery_base _ _ _
        · exact reportDelivery_base _ _ _
        · exact reportStaged_base _ _ _
        · exact reportVerifying_base _ _ _
        · exact reportWithdrawing_base _ _ _
        · exact .rfl
    · exact .rfl

theorem directoryReport_base (p : Snapshot) (rep : Report) (level : Byte) (s : State) :
    SameBase s (directoryReport p rep level s) := by
  have hflag (fell : Bool) (u : State) : SameBase u (if fell then raiseFlag .lowBattery u else u) := by
    split
    · exact raiseFlag_base _ u
    · exact .rfl
  exact (hflag _ _).after (updEntry_base p.addr (Entry.afterReport p.cell p.beacon rep level) s)

theorem budgetReport_base (p : Snapshot) (rep : Report) (s : State) : SameBase s (budgetReport p rep s) := by
  unfold budgetReport
  split
  · split
    · exact debit_base _ _ s
    · exact .rfl
  · exact .rfl

theorem resolveBoost_base (p : Snapshot) (rep : Option Report) (s : State) : SameBase s (resolveBoost p rep s) := by
  unfold resolveBoost
  split
  · exact .rfl
  · split
    · split
      · exact .rfl
      · split <;> exact ⟨rfl, rfl, rfl, rfl, rfl, rfl, rfl, rfl⟩
    · split
      · exact .rfl
      · split
        · exact dropBoost_base _ s
        · exact .rfl

theorem slotFiling_base (a : Nat) (s : State) : SameBase s (slotFiling a s) := by
  unfold slotFiling
  split
  · exact .rfl
  · split
    · split
      · exact fileTag_base a s
      · exact dropCalendar_base a s
    · exact .rfl

theorem becomeLost_base (e : Entry) (s : State) : SameBase s (becomeLost e s) := by
  unfold becomeLost
  dsimp only
  have hgone := ((((updEntry_base e.addr (fun e => { e with state := .lost }) s).trans (raiseFlag_base .tagLost _)).trans
    (dropCalendar_base e.addr _)).trans (dropBoost_base e.addr _)).trans (dropGrants_base e.tagId _)
  split
  · exact hgone
  · split
    · exact hgone
    · exact hgone.trans (finish_base _ _ _ _)

theorem countMiss_base (a : Nat) (s : State) : SameBase s (countMiss a s) := by
  unfold countMiss
  split
  · exact .rfl
  · dsimp only
    split
    · exact (becomeLost_base _ _).after (updEntry_base a _ s)
    · exact updEntry_base a _ s

theorem endSlot_base (p : Snapshot) (received : Option (List Byte)) (level : Byte) (s : State) :
    SameBase s (endSlot p received level s) := by
  unfold endSlot
  split
  · exact .rfl
  · split
    · split
      · next rep _ =>
        exact ((((directoryReport_base p rep level s).trans (changeReport_base _ _ _ _)).trans
          (budgetReport_base p rep _)).trans (resolveBoost_base p _ _)).trans (slotFiling_base _ _)
      · exact ((countMiss_base _ s).trans (resolveBoost_base p _ _)).trans (slotFiling_base _ _)
    · exact .rfl

/-! ### The instant -/

theorem commitCall_base (p : Snapshot) (s : State) : SameBase s (commitCall p s) := by
  unfold commitCall
  dsimp only
  split
  · exact ((debit_base p.addr p.debit s).trans (updRecord_base _ _ _)).trans (placeBoost_base _ _ _)
  · exact (debit_base p.addr p.debit s).trans (updRecord_base _ _ _)

theorem walkTag_base (c : Cell) (b : Beacon) (m : Mode) (cap : Nat) (acc : List Snapshot × State) (a : Nat) :
    SameBase acc.2 (walkTag c b m cap acc a).2 := by
  unfold walkTag
  dsimp only
  split
  · exact .rfl
  · split
    · exact fileTag_base a _
    · split
      · exact (fileTag_base a _).after (raiseFlag_base _ _)
      · exact commitCall_base _ _

theorem walk_base (c : Cell) (b : Beacon) (m : Mode) (cap : Nat) (due : List Nat) (acc : List Snapshot × State) :
    SameBase acc.2 (due.foldl (walkTag c b m cap) acc).2 := by
  induction due generalizing acc with
  | nil => exact .rfl
  | cons a due ih => exact (walkTag_base c b m cap acc a).trans (ih _)

/-! ### Joins -/

theorem recordStranger_base (c : Cell) (b : Beacon) (id : TagId) (s : State) : SameBase s (recordStranger c b id s) := by
  unfold recordStranger
  split <;> exact ⟨rfl, rfl, rfl, rfl, rfl, rfl, rfl, rfl⟩

theorem moveBoost_base (c : Cell) (a : Nat) (s : State) : SameBase s (moveBoost c a s) := by
  unfold moveBoost
  split
  · exact .rfl
  · split
    · exact .rfl
    · split
      · exact placeBoost_base _ _ s
      · exact dropBoost_base _ s

theorem joinState_base (c : Cell) (e : Entry) (s : State) : SameBase s (joinState c e s) := by
  unfold joinState
  split
  · exact updEntry_base _ _ s
  · exact updEntry_base _ _ s
  · split
    · exact .rfl
    · exact (moveBoost_base _ _ _).after ⟨rfl, rfl, rfl, rfl, rfl, rfl, rfl, rfl⟩

theorem joinFiling_base (c : Cell) (a : Nat) (s : State) : SameBase s (joinFiling c a s) := by
  unfold joinFiling
  split
  · exact .rfl
  · split
    · exact placeCalendar_base _ _ s
    · exact dropCalendar_base _ s

theorem acceptJoin_base (c : Cell) (j : Join) (e : Entry) (s : State) : SameBase s (acceptJoin c j e s) := by
  unfold acceptJoin
  have hgrant (u : State) : SameBase u (queueGrant c e u) := ⟨rfl, rfl, rfl, rfl, rfl, rfl, rfl, rfl⟩
  exact (((joinState_base c e s).trans (updEntry_base e.addr (Entry.afterJoin j) _)).trans (hgrant _)).trans
    (joinFiling_base c _ _)

theorem screenJoin_base (c : Cell) (b : Beacon) (j : Join) (s : State) : SameBase s (screenJoin c b j s) := by
  unfold screenJoin
  split
  · exact .rfl
  · split
    · exact recordStranger_base _ _ _ s
    · split
      · exact .rfl
      · split
        · exact .rfl
        · split
          · exact .rfl
          · exact acceptJoin_base c j _ s

/-! ### Admission, removal, the refresh -/

theorem takeChange_base (e : Entry) (new : Change) (blocks : List (List Byte)) (superseded : Option Change) (s : State) :
    SameBase s (takeChange e new blocks superseded s) := by
  have hlow (n : Nat) (u : State) : SameBase u (poolLowTest n u) := by
    unfold poolLowTest
    split
    · exact raiseFlag_base _ u
    · exact .rfl
  have htable (u : State) (records : List Change) (pool : Pool) (serial : Serial) (sequence : Sequence) :
      SameBase u { u with table.records := records, table.nextSerial := serial, table.nextSequence := sequence, pool := pool } :=
    ⟨rfl, rfl, rfl, rfl, rfl, rfl, rfl, rfl⟩
  have hnext : SameBase s
      { s with table.nextSerial := new.serial + 1, table.nextSequence := s.table.nextSequence + 1 } :=
    htable s _ _ _ _
  unfold takeChange
  dsimp only
  refine (workNotice_base _ _).after ((updCampaign_base _ _ _).after ((updEntry_base _ _ _).after ((hlow _ _).after ?_)))
  cases superseded with
  | none => exact htable s _ _ _ _
  | some r => exact (htable _ _ _ _ _).after ((finish_base r.serial .superseded true _).after hnext)

theorem admitFinal_base (e : Entry) (campaign : Option CampaignIndex) (img : FinalImage) (s : State) :
    SameBase s (admitFinal e campaign img s).2 := by
  unfold admitFinal
  dsimp only
  split
  · exact .rfl
  · split
    · exact .rfl
    · split
      · exact .rfl
      · exact takeChange_base _ _ _ _ s

theorem actPostChange_base (payload : List Byte) (s : State) : SameBase s (actPostChange payload s).2 := by
  unfold actPostChange
  split
  · unfold postChange
    split
    · exact .rfl
    · split
      · exact .rfl
      · split
        · exact .rfl
        · split
          · exact .rfl
          · split
            · exact .rfl
            · exact admitFinal_base _ _ _ s
  · exact .rfl

end Sys2Proof.Machine
end

section
/-! The laws of the settings and of the line queues: what each command does to them. -/

namespace Sys2Proof.Machine

/-! ### Settings -/

/-- The ranges of Table 10-1, but for C_D and the window checks, which are tested when all items are in. -/
structure Settings.InRange (w : Settings) : Prop where
  period           : 512 ≤ w.period ∧ w.period ≤ 8192
  groups           : ∀ c, (w.cells.get c).group ≤ 3
  capacityNight    : 1 ≤ w.capacityNight ∧ w.capacityNight ≤ 12
  costs            : w.callCost ≤ 255 ∧ w.blockCost ≤ 255 ∧ w.reportCost ≤ 255 ∧ w.boostWakeCost ≤ 255
  defaultAllowance : w.defaultAllowance ≤ 65535
  missLimit        : 1 ≤ w.missLimit ∧ w.missLimit ≤ 15
  guardBeacons     : w.guardBeacons ≤ 64
  span             : 8 ≤ w.span ∧ w.span ≤ 128
  refreshTime      : w.refreshTime ≤ 86399
  outcomeTrigger   : 1 ≤ w.outcomeTrigger ∧ w.outcomeTrigger ≤ 64

theorem Settings.Legal.inRange {w : Settings} (h : w.Legal) : w.InRange :=
  ⟨h.period, h.groups, h.capacityNight, h.costs, h.defaultAllowance, h.missLimit, h.guardBeacons, h.span, h.refreshTime,
    h.outcomeTrigger⟩

theorem clamp_range (lo hi n : Nat) (h : lo ≤ hi) : lo ≤ clamp lo hi n ∧ clamp lo hi n ≤ hi := by
  unfold clamp
  omega

/-- A cell of legal group put in place keeps the groups. -/
theorem groups_set {w : Settings} (h : ∀ c, (w.cells.get c).group ≤ 3) (c : Cell) {x : CellSetting} (hx : x.group ≤ 3) :
    ∀ d, ((w.cells.set c x).get d).group ≤ 3 := fun d => by
  rw [Quad.get_set]
  split
  · exact hx
  · exact h d

theorem cellInRange_group {p : Nat} {v : List Byte} (h : cellInRange p v = true) : (cellOfValue v).group ≤ 3 := by
  unfold cellInRange at h
  simp only [Bool.and_eq_true, decide_eq_true_eq] at h
  obtain ⟨⟨_, hg⟩, _⟩ := h
  exact hg

/-- An item in its range keeps the ranges (Table 10-1). -/
theorem Settings.InRange.withItem {w : Settings} (h : w.InRange) {p n : Nat} {v : List Byte}
    (hv : itemInRange p n v = true) : (w.withItem n v).InRange := by
  unfold Settings.withItem
  split
  · exact { h with }
  · have hv : (decide (512 ≤ leNat v) && decide (leNat v ≤ 8192)) = true := hv
    rw [Bool.and_eq_true, decide_eq_true_eq, decide_eq_true_eq] at hv
    exact { h with period := hv }
  · exact { h with groups := groups_set h.groups 0 (cellInRange_group hv) }
  · exact { h with groups := groups_set h.groups 1 (cellInRange_group hv) }
  · exact { h with groups := groups_set h.groups 2 (cellInRange_group hv) }
  · exact { h with groups := groups_set h.groups 3 (cellInRange_group hv) }
  · exact { h with capacityNight := clamp_range 1 12 _ (by omega) }
  · exact { h with }
  · exact { h with costs := ⟨(clamp_range 0 255 _ (by omega)).2, h.costs.2⟩ }
  · exact { h with costs := ⟨h.costs.1, (clamp_range 0 255 _ (by omega)).2, h.costs.2.2⟩ }
  · exact { h with costs := ⟨h.costs.1, h.costs.2.1, (clamp_range 0 255 _ (by omega)).2, h.costs.2.2.2⟩ }
  · exact { h with costs := ⟨h.costs.1, h.costs.2.1, h.costs.2.2.1, (clamp_range 0 255 _ (by omega)).2⟩ }
  · exact { h with defaultAllowance := of_decide_eq_true hv }
  · exact { h with missLimit := clamp_range 1 15 _ (by omega) }
  · exact { h with guardBeacons := (clamp_range 0 64 _ (by omega)).2 }
  · exact { h with span := clamp_range 8 128 _ (by omega) }
  · exact { h with refreshTime := of_decide_eq_true hv }
  · exact { h with outcomeTrigger := clamp_range 1 64 _ (by omega) }
  · exact { h with }
  · exact { h with }
  · exact h

/-- Items in their ranges, taken together, make legal settings where the windows then fit (R176, R177). -/
theorem Settings.InRange.withItems {w : Settings} (h : w.InRange) {p : Nat} {items : List (Nat × List Byte)}
    (hitems : items.all (fun i => itemInRange p i.1 i.2) = true) (hfits : (w.withItems items).fits = true) :
    (w.withItems items).Legal := by
  have hall : (items.foldl (fun w i => w.withItem i.1 i.2) w).InRange := by
    clear hfits
    induction items generalizing w with
    | nil => exact h
    | cons i items ih =>
      rw [List.all_cons, Bool.and_eq_true] at hitems
      exact ih (h.withItem hitems.1) hitems.2
  exact { hall with capacityDay := Nat.min_le_right _ _, fits := hfits }

theorem defaults_legal : Settings.defaults.Legal where
  period := by decide
  groups := by decide
  capacityNight := by decide
  capacityDay := by decide
  costs := by decide
  defaultAllowance := by decide
  missLimit := by decide
  guardBeacons := by decide
  span := by decide
  refreshTime := by decide
  outcomeTrigger := by decide
  fits := by decide

/-- A start-up works with legal settings: those of a valid block, or the defaults (R180). -/
theorem stored_legal (b : StoredBlock) : b.settings.Legal := by
  unfold StoredBlock.settings
  cases h : b.load with
  | none => exact defaults_legal
  | some w =>
    unfold StoredBlock.load at h
    split at h
    · cases h
    · cases h
    · rw [Option.ite_none_right_eq_some] at h
      obtain ⟨hvalid, hw⟩ := h
      rw [Option.getD_some, ← Option.some.inj hw]
      unfold storedValid at hvalid
      simp only [Bool.and_eq_true] at hvalid
      obtain ⟨⟨_, hitems⟩, hfits⟩ := hvalid
      exact defaults_legal.inRange.withItems hitems hfits

/-! ### The two laws -/

/-- The laws of the settings, the geometry in force, the counter and the mode. -/
def ConfigLaw (s : State) : Prop := SettingsLaw s ∧ SiteLaw s

/-- The bounds of the line queues (R167, R168). -/
def LineLaw (s : State) : Prop := s.line.inbound.length ≤ 16 ∧ s.line.outbound.length + s.handler.task.claimed ≤ 8

/-- Settings, mode, geometry in force, counter, line queues and the request in progress stay. -/
structure Calm (s t : State) : Prop where
  working  : t.store.working = s.store.working
  mode     : t.store.mode = s.store.mode
  geometry : t.air.geometry = s.air.geometry
  counter  : t.air.counter = s.air.counter
  inbound  : t.line.inbound = s.line.inbound
  outbound : t.line.outbound = s.line.outbound
  task     : t.handler.task = s.handler.task

theorem Calm.refl (s : State) : Calm s s := ⟨rfl, rfl, rfl, rfl, rfl, rfl, rfl⟩

theorem SameBase.calm {s t : State} (h : SameBase s t) : Calm s t :=
  ⟨by rw [h.store], by rw [h.store], by rw [h.air], by rw [h.air], by rw [h.line], by rw [h.line], h.task⟩

theorem ConfigLaw.congr {s t : State} (hw : t.store.working = s.store.working) (hm : t.store.mode = s.store.mode)
    (hg : t.air.geometry = s.air.geometry) (hc : t.air.counter = s.air.counter) (h : ConfigLaw s) : ConfigLaw t := by
  unfold ConfigLaw SettingsLaw SiteLaw at *
  rwa [hw, hm, hg, hc]

theorem Calm.config {s t : State} (h : Calm s t) (hs : ConfigLaw s) : ConfigLaw t :=
  hs.congr h.working h.mode h.geometry h.counter

theorem Calm.line {s t : State} (h : Calm s t) (hs : LineLaw s) : LineLaw t := by
  unfold LineLaw at *
  rwa [h.inbound, h.outbound, h.task]

/-- Both laws, each kept for itself. -/
def FrontKept (s t : State) : Prop := (ConfigLaw s → ConfigLaw t) ∧ (LineLaw s → LineLaw t)

theorem Calm.front {s t : State} (h : Calm s t) : FrontKept s t := ⟨h.config, h.line⟩

theorem SameBase.front {s t : State} (h : SameBase s t) : FrontKept s t := h.calm.front

/-! ### Requests -/

theorem offerFrame_config (f : Frame) {s : State} (h : ConfigLaw s) : ConfigLaw (offerFrame f s) := by
  obtain ⟨_, he⟩ | ⟨_, he⟩ := offerFrame_eq f s <;> rw [he]
  exacts [h, h]

theorem offerFrame_line (f : Frame) {s : State} (h : LineLaw s) : LineLaw (offerFrame f s) := by
  obtain ⟨hin, hout⟩ := h
  unfold offerFrame
  split
  · next hroom =>
    obtain ⟨_, he⟩ := withFlow_eq { s.line with inbound := s.line.inbound ++ [f] }
      (s.line.flow.onRise (s.line.inbound.length + 1))
    unfold LineLaw
    dsimp only
    rw [he]
    exact ⟨by rw [List.length_append]; exact hroom, hout⟩
  · refine ⟨hin, ?_⟩
    rw [(raiseFlag_base _ s).task]
    exact hout

/-- What an answer may do to the queues: nothing, and it claims a place only instead of its reply. -/
def Answer.Places (u : State) (a : Answer) : Prop :=
  a.2.line.inbound = u.line.inbound ∧ a.2.line.outbound = u.line.outbound
    ∧ (u.handler.task = .idle → a.1 = none ∨ a.2.handler.task.claimed = 0)

theorem claimed_le (t : Task) : t.claimed ≤ 1 := by cases t <;> simp [Task.claimed]

theorem request_config (kind num : Byte) (payload : List Byte) {act : State → Answer}
    (hact : ∀ u, ConfigLaw u → ConfigLaw (act u).2) {s : State} (h : ConfigLaw s) :
    ConfigLaw (request kind num payload act s) := by
  have htake (u : State) (hu : ConfigLaw u) : ConfigLaw (takeAndAnswer kind num act u) := by
    have ha := hact (takeHead u) hu
    unfold takeAndAnswer answerWith
    split
    · split
      · exact ha
      · exact ha
    · exact hu
  unfold request
  split
  · split
    · split
      · exact htake s h
      · exact offerFrame_config _ h
    · exact htake _ (offerFrame_config _ h)
  · exact h

theorem request_line (kind num : Byte) (payload : List Byte) {act : State → Answer}
    (hact : ∀ u, (act u).Places u) {s : State} (h : LineLaw s) : LineLaw (request kind num payload act s) := by
  have htake (u : State) (hu : LineLaw u) : LineLaw (takeAndAnswer kind num act u) := by
    obtain ⟨hin, hout⟩ := hu
    unfold takeAndAnswer
    split
    · next hcan =>
      unfold State.canTake State.freePlaces at hcan
      simp only [Bool.and_eq_true, decide_eq_true_eq] at hcan
      obtain ⟨hidle, hplace⟩ := hcan
      obtain ⟨ha, hb, hc⟩ := hact (takeHead u)
      have hc := hc hidle
      have htin : (takeHead u).line.inbound.length ≤ 16 := by
        unfold takeHead
        obtain ⟨_, he⟩ := withFlow_eq { u.line with inbound := u.line.inbound.tail }
          (u.line.flow.onFall u.line.inbound.tail.length)
        dsimp only
        rw [he]
        exact le_trans (by simp) hin
      have htout : (takeHead u).line.outbound = u.line.outbound := by
        unfold takeHead
        obtain ⟨_, he⟩ := withFlow_eq { u.line with inbound := u.line.inbound.tail }
          (u.line.flow.onFall u.line.inbound.tail.length)
        dsimp only
        rw [he]
      have hlt := claimed_le (act (takeHead u)).2.handler.task
      rw [← ha] at htin
      rw [← htout, ← hb] at hplace
      unfold answerWith
      split
      · exact ⟨htin, by omega⟩
      · next heq =>
        refine ⟨htin, ?_⟩
        rw [placeFrame_line, placeFrame_handler, List.length_append, List.length_singleton]
        rw [heq] at hc
        have := hc.resolve_left (by simp)
        omega
    · exact ⟨hin, hout⟩
  unfold request
  split
  · split
    · split
      · exact htake s h
      · exact offerFrame_line _ h
    · exact htake _ (offerFrame_line _ h)
  · exact h

/-- A request whose answer leaves settings and queues alone keeps both laws. -/
theorem request_front (kind num : Byte) (payload : List Byte) {act : State → Answer} (hact : ∀ u, Calm u (act u).2)
    (s : State) : FrontKept s (request kind num payload act s) :=
  ⟨request_config kind num payload fun u => (hact u).config,
    request_line kind num payload fun u => ⟨(hact u).inbound, (hact u).outbound, fun h => .inr (by
      rw [(hact u).task, h]; rfl)⟩⟩

theorem ofLength_calm (n : Nat) (payload : List Byte) {act : State → Answer} (hact : ∀ u, Calm u (act u).2) (u : State) :
    Calm u (ofLength n payload act u).2 := by
  unfold ofLength
  split
  · exact hact u
  · exact .refl u

/-- A request whose answer leaves the queues alone keeps both laws where its answer keeps the settings law. -/
theorem request_settings (kind num : Byte) (payload : List Byte) {act : State → Answer}
    (hconfig : ∀ u, ConfigLaw u → ConfigLaw (act u).2) (hplaces : ∀ u, (act u).Places u) (s : State) :
    FrontKept s (request kind num payload act s) :=
  ⟨request_config kind num payload hconfig, request_line kind num payload hplaces⟩

theorem ofLength_config (n : Nat) (payload : List Byte) {act : State → Answer}
    (hact : ∀ u, ConfigLaw u → ConfigLaw (act u).2) (u : State) (hu : ConfigLaw u) :
    ConfigLaw (ofLength n payload act u).2 := by
  unfold ofLength
  split
  · exact hact u hu
  · exact hu

/-- An answer with the queues and the request in progress as they were places its reply. -/
theorem Answer.Places.of_same {u : State} {a : Answer} (hl : a.2.line.inbound = u.line.inbound)
    (ho : a.2.line.outbound = u.line.outbound) (ht : a.2.handler.task = u.handler.task) : a.Places u :=
  ⟨hl, ho, fun h => .inr (by rw [ht, h]; rfl)⟩

theorem ofLength_places (n : Nat) (payload : List Byte) {act : State → Answer} (hact : ∀ u, (act u).Places u) (u : State) :
    (ofLength n payload act u).Places u := by
  unfold ofLength
  split
  · exact hact u
  · exact .of_same rfl rfl rfl

theorem event_front {act : State → State} (hact : ∀ u, FrontKept u (act u)) (s : State) : FrontKept s (event act s) := by
  unfold event
  split
  · exact hact s
  · exact ⟨id, id⟩

end Sys2Proof.Machine
end

section
/-! Every step keeps the laws of the settings and of the line queues. -/

namespace Sys2Proof.Machine

/-! ### Requests on the settings and the Record Handler -/

/-- What a CONFIG-SET that is taken has passed (R177). -/
theorem configRefusal_none {items : List (Nat × List Byte)} {w : Settings} {s : State}
    (h : configRefusal items w s = none) :
    items.all (fun i => itemInRange w.period i.1 i.2) = true
      ∧ (s.store.working.geometryDiffers w = true → w.fits = true) := by
  unfold configRefusal at h
  dsimp only at h
  split at h
  · cases h
  · split at h
    · cases h
    · next hitems =>
      split at h
      · cases h
      · split at h
        · cases h
        · split at h
          · cases h
          · next hfits => exact ⟨not_not.mp hitems, fun hd => by_contra fun hf => hfits ⟨hd, hf⟩⟩

theorem withItem_siteCode (w : Settings) {n : Nat} (v : List Byte) (h : n ≠ 1) :
    (w.withItem n v).siteCode = w.siteCode := by
  unfold Settings.withItem
  split
  · exact absurd rfl h
  all_goals rfl

/-- Items without item 1 leave the site code. -/
theorem withItems_siteCode (w : Settings) (items : List (Nat × List Byte)) (h : ∀ i ∈ items, i.1 ≠ 1) :
    (w.withItems items).siteCode = w.siteCode := by
  change (items.foldl (fun w i => w.withItem i.1 i.2) w).siteCode = w.siteCode
  induction items generalizing w with
  | nil => rfl
  | cons i items ih =>
    rw [List.foldl_cons, ih _ fun j hj => h j (List.mem_cons_of_mem i hj), withItem_siteCode w i.2 (h i List.mem_cons_self)]

/-- The window checks look at the geometry alone. -/
theorem fits_of_same {a b : Settings} (h : a.geometryDiffers b = false) (ha : a.fits = true) : b.fits = true := by
  unfold Settings.geometryDiffers at h
  simp only [Bool.or_eq_false_iff, decide_eq_false_iff_not, not_not] at h
  obtain ⟨⟨hp, hn⟩, hc⟩ := h
  unfold Settings.fits at *
  rwa [← hp, ← hn, ← hc]

theorem configSetItems_config (items : List (Nat × List Byte)) (u : State) (hu : ConfigLaw u) :
    ConfigLaw (configSetItems items u).2 := by
  obtain ⟨⟨hlegal, hgeometry, hcounter⟩, hsite⟩ := hu
  unfold configSetItems
  dsimp only
  split
  · exact ⟨⟨hlegal, hgeometry, hcounter⟩, hsite⟩
  · next hnone =>
    obtain ⟨hrange, hfits⟩ := configRefusal_none hnone
    have hfit : (u.store.working.withItems items).fits = true := by
      cases hd : u.store.working.geometryDiffers (u.store.working.withItems items) with
      | true => exact hfits hd
      | false => exact fits_of_same hd hlegal.fits
    have hnew := hlegal.inRange.withItems hrange hfit
    split
    · exact ⟨⟨hnew, hgeometry, hcounter⟩, fun _ => rfl⟩
    · next hquiet =>
      refine ⟨⟨hnew, hgeometry, hcounter⟩, fun hzero => hsite ?_⟩
      change (u.store.working.withItems items).siteCode = 0 at hzero
      have hnot : ∀ i ∈ items, i.1 ≠ 1 := fun i hi h1 => hquiet (by
        rw [Bool.and_eq_true, List.any_eq_true]
        exact ⟨decide_eq_true hzero, i, hi, decide_eq_true h1⟩)
      rw [← withItems_siteCode _ _ hnot, hzero]

theorem actConfigSet_config (payload : List Byte) (u : State) (hu : ConfigLaw u) :
    ConfigLaw (actConfigSet payload u).2 := by
  unfold actConfigSet
  split
  · exact hu
  · split
    · exact configSetItems_config _ u hu
    · exact hu

theorem actConfigSet_places (payload : List Byte) (u : State) : (actConfigSet payload u).Places u := by
  unfold actConfigSet
  split
  · exact .of_same rfl rfl rfl
  · split
    · unfold configSetItems
      dsimp only
      split
      · exact .of_same rfl rfl rfl
      · split <;> exact .of_same rfl rfl rfl
    · exact .of_same rfl rfl rfl

theorem actSetMode_config (payload : List Byte) (u : State) (hu : ConfigLaw u) : ConfigLaw (actSetMode payload u).2 := by
  unfold actSetMode
  split
  · exact hu
  · next m _ =>
    split
    · exact hu
    · next hsite =>
      split
      · exact hu
      · refine ⟨hu.1, fun hzero => ?_⟩
        change m = .quiet
        by_contra hm
        exact hsite ⟨hm, hzero⟩

theorem actSetMode_places (payload : List Byte) (u : State) : (actSetMode payload u).Places u := by
  unfold actSetMode
  split
  · exact .of_same rfl rfl rfl
  · split
    · exact .of_same rfl rfl rfl
    · split <;> exact .of_same rfl rfl rfl

/-- SAVE-SETTINGS claims a place and sends no reply yet; it changes no setting. -/
theorem saving_front (num : Byte) (payload : List Byte) (s : State) :
    FrontKept s (request 0x07 num payload (ofLength 0 payload fun u =>
      (none, { u with handler.task := .saving num u.store.working })) s) :=
  request_settings _ _ _ (ofLength_config _ _ fun _ hu => hu)
    (ofLength_places _ _ fun _ => ⟨rfl, rfl, fun _ => .inl rfl⟩) s

theorem actReset_config (payload : List Byte) (u : State) (hu : ConfigLaw u) : ConfigLaw (actReset payload u).2 := by
  unfold actReset
  split
  · exact hu
  · exact hu

theorem actReset_places (payload : List Byte) (u : State) : (actReset payload u).Places u := by
  unfold actReset
  split
  · exact .of_same rfl rfl rfl
  · exact ⟨rfl, rfl, fun _ => .inr rfl⟩

theorem actSetLine_config (payload : List Byte) (u : State) (hu : ConfigLaw u) : ConfigLaw (actSetLine payload u).2 := by
  unfold actSetLine
  split
  · exact hu
  · obtain ⟨⟨hlegal, hrest⟩, hsite⟩ := hu
    exact ⟨⟨{ hlegal with }, hrest⟩, hsite⟩

theorem actSetLine_places (payload : List Byte) (u : State) : (actSetLine payload u).Places u := by
  unfold actSetLine
  split <;> exact .of_same rfl rfl rfl

theorem actSetNotices_config (payload : List Byte) (u : State) (hu : ConfigLaw u) :
    ConfigLaw (actSetNotices payload u).2 := by
  obtain ⟨⟨hlegal, hrest⟩, hsite⟩ := hu
  exact (latchTrigger_base _).calm.config
    ⟨⟨{ hlegal with outcomeTrigger := clamp_range 1 64 _ (by omega) }, hrest⟩, hsite⟩

theorem actSetNotices_places (payload : List Byte) (u : State) : (actSetNotices payload u).Places u := by
  obtain ⟨_, _, _, _, hline, htask, _, _⟩ := latchTrigger_base (putSettings { u.store.working with
    enableMask := BitVec.ofNat 12 (field 0 2 payload), outcomeTrigger := clamp 1 64 (field 2 1 payload) } u)
  exact .of_same (congrArg (·.inbound) hline) (congrArg (·.outbound) hline) htask

/-! ### Requests on the tags and the changes -/

theorem actEnrol_base (payload : List Byte) (u : State) : SameBase u (actEnrol payload u).2 := by
  unfold actEnrol
  dsimp only
  split
  · split
    · exact .rfl
    · split
      · exact .rfl
      · split
        · exact .rfl
        · exact ⟨rfl, rfl, rfl, rfl, rfl, rfl, rfl, rfl⟩
  · exact .rfl

theorem actRemove_base (payload : List Byte) (u : State) : SameBase u (actRemove payload u).2 := by
  unfold actRemove
  split
  · exact .rfl
  · split
    · exact deleteEntry_base _ u
    · split
      · exact (deleteEntry_base _ _).after (finish_base _ _ _ u)
      · exact .rfl

theorem actSetWakeTag_base (payload : List Byte) (u : State) : SameBase u (actSetWakeTag payload u).2 := by
  unfold actSetWakeTag
  split
  · exact .rfl
  · exact orderEntry_base _ _ u

theorem actSetWakeZone_base (payload : List Byte) (u : State) : SameBase u (actSetWakeZone payload u).2 :=
  foldl_base (fun s (e : Entry) => orderEntry_base e.addr _ s) _ u

theorem actLocate_base (payload : List Byte) (u : State) : SameBase u (actLocate payload u).2 := by
  unfold actLocate
  split
  · exact .rfl
  · dsimp only [okWith]
    split
    · exact .rfl
    · exact orderEntry_base _ _ u

theorem actSetAllowance_base (payload : List Byte) (u : State) : SameBase u (actSetAllowance payload u).2 := by
  unfold actSetAllowance
  split
  · exact .rfl
  · exact updEntry_base _ _ u

theorem actOpenCampaign_base (payload : List Byte) (u : State) : SameBase u (actOpenCampaign payload u).2 := by
  unfold actOpenCampaign
  dsimp only
  split
  · exact .rfl
  · split
    · exact .rfl
    · split
      · exact .rfl
      · split
        · exact .rfl
        · split
          · exact .rfl
          · split
            · exact .rfl
            · exact ⟨rfl, rfl, rfl, rfl, rfl, rfl, rfl, rfl⟩

theorem actReleaseCampaign_base (payload : List Byte) (u : State) : SameBase u (actReleaseCampaign payload u).2 := by
  unfold actReleaseCampaign
  split
  · exact .rfl
  · dsimp only
    split
    · exact ⟨rfl, rfl, rfl, rfl, rfl, rfl, rfl, rfl⟩
    · exact .rfl

theorem actCancelChange_base (payload : List Byte) (u : State) : SameBase u (actCancelChange payload u).2 := by
  unfold actCancelChange
  dsimp only
  split
  · exact .rfl
  · split
    · exact finish_base _ _ _ u
    · exact finish_base _ _ _ u
    · exact (workNotice_base _ _).after (updRecord_base _ _ u)
    · exact .rfl
    · exact .rfl
    · exact .rfl

theorem actFetchOutcomes_base (u : State) : SameBase u (actFetchOutcomes u).2 := by
  have hlatch (v : State) : SameBase v (fetchLatch v) := by
    unfold fetchLatch
    split
    · exact ⟨rfl, rfl, rfl, rfl, rfl, rfl, rfl, rfl⟩
    · split
      · exact ⟨rfl, rfl, rfl, rfl, rfl, rfl, rfl, rfl⟩
      · exact .rfl
  have hdrop : SameBase u { u with table.outcomes := u.table.outcomes.drop 16 } :=
    ⟨rfl, rfl, rfl, rfl, rfl, rfl, rfl, rfl⟩
  exact (hlatch _).after ((passAll_base _).after hdrop)

/-- A request whose answer is work on tags and changes. -/
theorem request_base_front (kind num : Byte) (payload : List Byte) {act : State → Answer}
    (hact : ∀ u, SameBase u (act u).2) (s : State) : FrontKept s (request kind num payload act s) :=
  request_front kind num payload (fun u => (hact u).calm) s

theorem ofLength_base (n : Nat) (payload : List Byte) {act : State → Answer} (hact : ∀ u, SameBase u (act u).2)
    (u : State) : SameBase u (ofLength n payload act u).2 := by
  unfold ofLength
  split
  · exact hact u
  · exact .rfl

/-! ### Events -/

/-- Fewer frames wait, and the request in progress is none that claims a place: the line law holds on. -/
theorem LineLaw.fewer {s t : State} (h : LineLaw s) (hi : t.line.inbound.length ≤ s.line.inbound.length)
    (ho : t.line.outbound.length ≤ s.line.outbound.length)
    (ht : t.handler.task.claimed ≤ s.handler.task.claimed) : LineLaw t := by
  obtain ⟨hin, hout⟩ := h
  exact ⟨hi.trans hin, by omega⟩

theorem settingsWriteEnd_front (completed : Bool) (u : State) : FrontKept u (settingsWriteEnd completed u) := by
  unfold settingsWriteEnd
  split
  · next num copied htask =>
    have hone (h : LineLaw u) : u.line.outbound.length + 1 ≤ 8 := by
      have hclaim : u.handler.task.claimed = 1 := by rw [htask]; rfl
      have := h.2
      omega
    dsimp only
    split
    · refine ⟨id, fun h => ⟨h.1, ?_⟩⟩
      rw [placeFrame_line, List.length_append]
      exact hone h
    · refine ⟨id, fun h => ⟨h.1, ?_⟩⟩
      rw [placeFrame_line, List.length_append, placeFrame_handler, (raiseFlag_base _ _).task]
      exact hone h
  · exact ⟨id, id⟩

theorem sendThrough_front (p : Frame → Bool) (u : State) : FrontKept u (sendThrough p u) := by
  obtain h | ⟨sent, f, rest, flow, free, rate, due, ho, _, h⟩ := sendThrough_eq p u <;> rw [h]
  · exact ⟨id, id⟩
  · exact ⟨id, fun hl => hl.fewer le_rfl (by rw [ho, List.length_append, List.length_cons]; dsimp only; omega) le_rfl⟩

theorem changeRate_front (u : State) : FrontKept u (changeRate u) := by
  unfold changeRate
  split
  · exact ⟨id, id⟩
  · dsimp only
    split
    · exact sendThrough_front isSetLineReply u
    · exact ⟨id, id⟩

theorem startUp_front (stored : StoredBlock) (heads : Quad Bool) (n : Nat) (pending : List Instr) (u : State) :
    FrontKept u (startUp stored heads n pending) := by
  refine ⟨fun _ => ⟨⟨stored_legal stored, (stored_legal stored).fits, ?_⟩, fun _ => rfl⟩, fun _ => ⟨Nat.zero_le _, Nat.zero_le _⟩⟩
  have hperiod := (stored_legal stored).period
  change stored.settings.period - 1 < stored.settings.period
  omega

theorem actWarm_front {u : State} (h : ∃ k, u.handler.task = .resetting k) : FrontKept u (actWarm u) := by
  obtain ⟨k, htask⟩ := h
  have hclear : FrontKept u (clearWork u) := by
    refine ⟨id, fun hl => hl.fewer le_rfl le_rfl ?_⟩
    rw [htask]
    exact le_rfl
  have hfiled := (foldl_base (fun s a => fileTag_base a s) ((u.dir.entries.filter Entry.filedAtWarm).map (·.addr))
    (clearWork u)).front
  exact ⟨fun hc => hfiled.1 (hclear.1 hc), fun hl => hfiled.2 (hclear.2 hl)⟩

theorem actKind_front (k : ResetKind) {u : State} (h : ∃ k, u.handler.task = .resetting k) : FrontKept u (actKind k u) := by
  cases k with
  | cold => exact startUp_front u.store.stored u.cells.heads u.freeIndex u.pending u
  | warm => exact actWarm_front h

theorem FrontKept.trans {s t u : State} (h : FrontKept s t) (k : FrontKept t u) : FrontKept s u :=
  ⟨fun hc => k.1 (h.1 hc), fun hl => k.2 (h.2 hl)⟩

theorem sendThrough_task (p : Frame → Bool) (u : State) : (sendThrough p u).handler.task = u.handler.task := by
  obtain ⟨_, h⟩ := sendThrough_line p u
  rw [h]

theorem resetActs_front (u : State) : FrontKept u (resetActs u) := by
  unfold resetActs
  split
  · next k htask =>
    exact (sendThrough_front isResetReply u).trans (actKind_front k ⟨k, by rw [sendThrough_task, htask]⟩)
  · exact ⟨id, id⟩

theorem dropFrame_front (u : State) : FrontKept u (dropFrame u) :=
  (raiseFlag_base _ (huntAgain u)).front

theorem lineBreak_front (u : State) : FrontKept u (lineBreak u) := by
  have hdrop : FrontKept u (if u.line.rx = .hunt then u else dropFrame u) := by
    split
    · exact ⟨id, id⟩
    · exact dropFrame_front u
  unfold lineBreak
  dsimp only
  generalize (if u.line.rx = .hunt then u else dropFrame u) = v at hdrop ⊢
  have hbreak : FrontKept v (breakLine v) :=
    ⟨id, fun hl => hl.fewer (Nat.zero_le _) (Nat.zero_le _) le_rfl⟩
  split
  · next k htask => exact (hdrop.trans hbreak).trans (actKind_front k ⟨k, htask⟩)
  · exact hdrop.trans hbreak

theorem offerFrame_front (f : Frame) (u : State) : FrontKept u (offerFrame f u) :=
  ⟨offerFrame_config f, offerFrame_line f⟩

theorem receiveByte_front (b : Byte) (faulty : Bool) (u : State) : FrontKept u (receiveByte b faulty u) := by
  unfold receiveByte
  split
  · split <;> exact ⟨id, id⟩
  · split
    · exact dropFrame_front u
    · unfold takeByte
      dsimp only
      split
      · exact ⟨id, id⟩
      · split
        · exact ⟨id, id⟩
        · split
          · exact dropFrame_front u
          · exact ⟨id, id⟩
      · exact ⟨id, id⟩
      · split
        · exact ⟨id, id⟩
        · unfold completeFrame
          dsimp only
          split
          · split
            · exact offerFrame_front _ (huntAgain u)
            · exact ⟨id, id⟩
          · exact (raiseFlag_base _ (huntAgain u)).front

theorem frameSent_front (u : State) : FrontKept u (frameSent u) := by
  obtain h | ⟨f, rest, ho, _, h⟩ := frameSent_eq u <;> rw [h]
  · exact ⟨id, id⟩
  · exact ⟨id, fun hl => hl.fewer le_rfl (by rw [ho, List.length_cons]; dsimp only; omega) le_rfl⟩

theorem moveNotice_front (u : State) : FrontKept u (moveNotice u) := by
  unfold moveNotice
  split
  · next hfree =>
    split
    · exact ⟨id, id⟩
    · refine ⟨id, fun hl => ⟨hl.1, ?_⟩⟩
      unfold State.freePlaces at hfree
      rw [placeFrame_line, List.length_append, List.length_singleton]
      change u.line.outbound.length + 1 + u.handler.task.claimed ≤ 8
      omega
  · exact ⟨id, id⟩

theorem windows_front (q : Quad (Option Window)) (u : State) : FrontKept u { u with cells.windows := q } := ⟨id, id⟩

theorem abandonWindow_front (c : Cell) (u : State) : FrontKept u (abandonWindow c u) := by
  unfold abandonWindow
  split
  · exact ⟨id, id⟩
  · next w _ =>
    exact (windows_front _ u).trans (foldl_base (fun s p => endSlot_base p none 0 s) w.remaining _).front

theorem headLost_front (c : Cell) (u : State) : FrontKept u (headLost c u) := by
  unfold headLost
  split
  · have hraise : FrontKept u (raiseFlag .cellDown { u with cells.heads := u.cells.heads.set c false }) :=
      (raiseFlag_base _ _).front
    exact hraise.trans (abandonWindow_front c _)
  · exact ⟨id, id⟩

theorem slotEnd_front (c : Cell) (received : Option (List Byte)) (level : Byte) (u : State) :
    FrontKept u (slotEnd c received level u) := by
  unfold slotEnd
  split
  · exact ⟨id, id⟩
  · split
    · exact ⟨id, id⟩
    · exact (windows_front _ u).trans (endSlot_base _ received level _).front

theorem joinSlotEnd_front (c : Cell) (heard : JoinHeard) (u : State) : FrontKept u (joinSlotEnd c heard u) := by
  unfold joinSlotEnd
  split
  · exact ⟨id, id⟩
  · next w _ =>
    split
    · cases heardJoin heard with
      | none => exact ⟨id, id⟩
      | some j => exact (screenJoin_base c w.beacon j u).front
    · exact ⟨id, id⟩

theorem takeCuts_front (u : State) : FrontKept u (takeCuts u) := by
  have hcuts := (foldl_base (fun s i => cutCampaign_base i s) (freeOrder 4 u.freeIndex (dueCuts u)) u).front
  unfold takeCuts
  dsimp only
  split <;> exact hcuts

theorem beaconStart_front (u : State) : FrontKept u (beaconStart u) := by
  have hreload : FrontKept u (reloadGeometry u) := by
    refine ⟨fun hc => ?_, id⟩
    obtain ⟨⟨hlegal, _, _⟩, hsite⟩ := hc
    refine ⟨⟨hlegal, hlegal.fits, ?_⟩, hsite⟩
    change u.store.working.period - 1 < u.store.working.period
    have := hlegal.period
    omega
  have hnext (v : State) : FrontKept v (nextBeacon v) := by
    unfold nextBeacon
    split
    · exact ⟨id, id⟩
    · split <;> exact ⟨id, id⟩
  exact (hreload.trans (hnext _)).trans (takeCuts_front _)

theorem instant_front (c : Cell) (b : Beacon) (g : Geometry) (u : State) : FrontKept u (instant c b g u) := by
  have hopen (called : List Snapshot) (v : State) : FrontKept v (openWindow c b called v) := by
    unfold openWindow takeGrant
    dsimp only
    split <;> exact ⟨id, id⟩
  have hbegin : FrontKept u (takeDue c b (beginInstant c b u)).2 := ⟨id, id⟩
  unfold instant
  dsimp only
  generalize (takeDue c b (beginInstant c b u)).1 = due
  generalize (takeDue c b (beginInstant c b u)).2 = v at hbegin ⊢
  generalize hr : (if v.capacity g c = 0 then (([] : List Snapshot), due.foldl (fun s a => fileTag a s) v)
    else ((dueList v b due).map (·.addr)).foldl (walkTag c b v.store.mode (v.capacity g c)) ([], v)) = r
  have hwalk : FrontKept v r.2 := by
    rw [← hr]
    split
    · exact (foldl_base (fun s a => fileTag_base a s) due v).front
    · exact (walk_base c b v.store.mode (v.capacity g c) _ ([], v)).front
  split
  · exact (hbegin.trans hwalk).trans (hopen _ _)
  · exact hbegin.trans hwalk

theorem idle_front (u : State) : FrontKept u (idle u) := by
  have hqueue (events : List Instr) (v : State) : FrontKept v (enqueue events v) := by
    unfold enqueue
    dsimp only
    split <;> exact ⟨id, id⟩
  have hticked : FrontKept u (ticked u) := by
    refine ⟨fun hc => ?_, id⟩
    obtain ⟨⟨hlegal, hfits, hcounter⟩, hsite⟩ := hc
    exact ⟨⟨hlegal, hfits, lt_of_le_of_lt (Nat.sub_le _ _) hcounter⟩, hsite⟩
  unfold idle
  split
  · split
    · rw [tick_eq]
      split
      · exact hticked.trans ⟨id, id⟩
      · split
        · exact hticked
        · exact hticked.trans (hqueue _ _)
    · exact hqueue _ u
  · exact ⟨id, id⟩

/-! ### Steps -/

theorem outcomesTimeout_base (u : State) : SameBase u (outcomesTimeout u) := by
  unfold outcomesTimeout
  split
  · exact ⟨rfl, rfl, rfl, rfl, rfl, rfl, rfl, rfl⟩
  · exact .rfl

theorem cellBeaconInstant_front (c : Cell) (order : InstantOrder) (u : State) :
    FrontKept u (match instantPlace u c order with
      | none => u
      | some (b, g) => if u.instantOpen c b then instant c b g u else u) := by
  split
  · exact ⟨id, id⟩
  · split
    · exact instant_front _ _ _ u
    · exact ⟨id, id⟩

/-- What a command does keeps the laws of the settings and of the line queues. -/
theorem exec_front (c : Instr) (s : State) : ∃ t, exec c s = .next t ∧ FrontKept s t := by
  cases c with
  | powerOn heads => exact ⟨_, rfl, startUp_front _ _ _ _ s⟩
  | status num p => exact ⟨_, rfl, request_base_front _ _ _ (ofLength_base _ _ fun _ => .rfl) s⟩
  | setClock num p => exact ⟨_, rfl, request_front _ _ _ (ofLength_calm _ _ fun u => ⟨rfl, rfl, rfl, rfl, rfl, rfl, rfl⟩) s⟩
  | setBeacon num p =>
    refine ⟨_, rfl, request_front _ _ _ (ofLength_calm _ _ fun u => ?_) s⟩
    unfold actSetBeacon
    split
    · exact ⟨rfl, rfl, rfl, rfl, rfl, rfl, rfl⟩
    · exact .refl u
  | setMode num p =>
    exact ⟨_, rfl, request_settings _ _ _ (ofLength_config _ _ (actSetMode_config p))
      (ofLength_places _ _ (actSetMode_places p)) s⟩
  | configSet num p => exact ⟨_, rfl, request_settings _ _ _ (actConfigSet_config p) (actConfigSet_places p) s⟩
  | configGet num p => exact ⟨_, rfl, request_base_front _ _ _ (ofLength_base _ _ fun _ => .rfl) s⟩
  | saveSettings num p => exact ⟨_, rfl, saving_front num p s⟩
  | settingsWriteEnd completed => exact ⟨_, rfl, event_front (settingsWriteEnd_front completed) s⟩
  | resetCold num p =>
    refine ⟨_, rfl, ?_⟩
    split
    · exact ⟨id, id⟩
    · exact request_settings _ _ _ (ofLength_config _ _ (actReset_config p)) (ofLength_places _ _ (actReset_places p)) s
  | resetWarm num p =>
    refine ⟨_, rfl, ?_⟩
    split
    · exact ⟨id, id⟩
    · exact request_settings _ _ _ (ofLength_config _ _ (actReset_config p)) (ofLength_places _ _ (actReset_places p)) s
  | resetActs => exact ⟨_, rfl, event_front resetActs_front s⟩
  | setLine num p =>
    exact ⟨_, rfl, request_settings _ _ _ (ofLength_config _ _ (actSetLine_config p))
      (ofLength_places _ _ (actSetLine_places p)) s⟩
  | lineRateChange => exact ⟨_, rfl, event_front changeRate_front s⟩
  | setNotices num p =>
    exact ⟨_, rfl, request_settings _ _ _ (ofLength_config _ _ (actSetNotices_config p))
      (ofLength_places _ _ (actSetNotices_places p)) s⟩
  | clearEvents num p =>
    exact ⟨_, rfl, request_front _ _ _ (ofLength_calm _ _ fun u => ⟨rfl, rfl, rfl, rfl, rfl, rfl, rfl⟩) s⟩
  | enrol num p => exact ⟨_, rfl, request_base_front _ _ _ (ofLength_base _ _ (actEnrol_base p)) s⟩
  | remove num p => exact ⟨_, rfl, request_base_front _ _ _ (ofLength_base _ _ (actRemove_base p)) s⟩
  | setWakeTag num p =>
    refine ⟨_, rfl, ?_⟩
    split
    · exact ⟨id, id⟩
    · refine request_base_front _ _ _ (ofLength_base _ _ fun u => ?_) s
      split
      · exact actSetWakeTag_base p u
      · exact .rfl
  | setWakeZone num p =>
    refine ⟨_, rfl, ?_⟩
    split
    · exact ⟨id, id⟩
    · refine request_base_front _ _ _ (ofLength_base _ _ fun u => ?_) s
      split
      · exact actSetWakeZone_base p u
      · exact .rfl
  | setAllowance num p => exact ⟨_, rfl, request_base_front _ _ _ (ofLength_base _ _ (actSetAllowance_base p)) s⟩
  | locate num p => exact ⟨_, rfl, request_base_front _ _ _ (ofLength_base _ _ (actLocate_base p)) s⟩
  | queryTag num p =>
    refine ⟨_, rfl, request_base_front _ _ _ (ofLength_base _ _ fun u => ?_) s⟩
    split <;> exact .rfl
  | listStrangers num p =>
    exact ⟨_, rfl, request_front _ _ _ (ofLength_calm _ _ fun u => ⟨rfl, rfl, rfl, rfl, rfl, rfl, rfl⟩) s⟩
  | refreshBudgets num p => exact ⟨_, rfl, request_base_front _ _ _ (ofLength_base _ _ refresh_base) s⟩
  | openCampaign num p => exact ⟨_, rfl, request_base_front _ _ _ (ofLength_base _ _ (actOpenCampaign_base p)) s⟩
  | queryCampaign num p =>
    refine ⟨_, rfl, request_base_front _ _ _ (ofLength_base _ _ fun u => ?_) s⟩
    split <;> exact .rfl
  | releaseCampaign num p => exact ⟨_, rfl, request_base_front _ _ _ (ofLength_base _ _ (actReleaseCampaign_base p)) s⟩
  | postChange num p => exact ⟨_, rfl, request_base_front _ _ _ (actPostChange_base p) s⟩
  | cancelChange num p => exact ⟨_, rfl, request_base_front _ _ _ (ofLength_base _ _ (actCancelChange_base p)) s⟩
  | queryChange num p =>
    refine ⟨_, rfl, request_base_front _ _ _ (ofLength_base _ _ fun u => ?_) s⟩
    split <;> exact .rfl
  | fetchOutcomes num p => exact ⟨_, rfl, request_base_front _ _ _ (ofLength_base _ _ actFetchOutcomes_base) s⟩
  | outcomesReadyTimeout => exact ⟨_, rfl, event_front (fun u => (outcomesTimeout_base u).front) s⟩
  | hostByteReceived b faulty => exact ⟨_, rfl, event_front (receiveByte_front b faulty) s⟩
  | idleGap =>
    refine ⟨_, rfl, event_front (fun u => ?_) s⟩
    split
    · exact ⟨id, id⟩
    · exact dropFrame_front u
  | lineBreak => exact ⟨_, rfl, event_front lineBreak_front s⟩
  | hold =>
    refine ⟨_, rfl, event_front (fun u => ?_) s⟩
    split <;> exact ⟨id, id⟩
  | go =>
    refine ⟨_, rfl, event_front (fun u => ?_) s⟩
    split <;> exact ⟨id, id⟩
  | outboundFrameSent => exact ⟨_, rfl, event_front frameSent_front s⟩
  | noticeMove => exact ⟨_, rfl, event_front moveNotice_front s⟩
  | headLost c => exact ⟨_, rfl, event_front (headLost_front c) s⟩
  | headReturned c =>
    refine ⟨_, rfl, event_front (fun u => ?_) s⟩
    exact ⟨id, id⟩
  | beaconStart => exact ⟨_, rfl, event_front beaconStart_front s⟩
  | refreshCrossing =>
    refine ⟨_, rfl, event_front (fun u => ?_) s⟩
    unfold refreshCrossing
    split
    · exact (refresh_base u).front
    · exact ⟨id, id⟩
  | cellBeaconInstant c order => exact ⟨_, rfl, event_front (cellBeaconInstant_front c order) s⟩
  | slotEnd c received level => exact ⟨_, rfl, event_front (slotEnd_front c received level) s⟩
  | joinSlotEnd c heard => exact ⟨_, rfl, event_front (joinSlotEnd_front c heard) s⟩
  | unknownKind kind num p =>
    refine ⟨_, rfl, ?_⟩
    split
    · exact ⟨id, id⟩
    · exact request_base_front _ _ _ (fun _ => .rfl) s
  | powerLoss =>
    refine ⟨_, rfl, event_front (fun u => ?_) s⟩
    exact ⟨id, id⟩

theorem step_front {s t : State} (h : step s = .next t) : FrontKept s t := by
  unfold step at h
  split at h
  · next c rest _ =>
    obtain ⟨u, hu, hfront⟩ := exec_front c { s with pending := rest }
    rw [hu] at h
    cases h
    exact hfront
  · cases h
    exact idle_front s

/-- Settles O60: only CONFIG-SET, SET-LINE, SET-NOTICES and a start-up write the settings, each within the ranges; a beacon start
takes the geometry of settings that fit; the mode leaves QUIET under a site code alone. -/
theorem settingsLawKept : Obligations.SettingsLawKept :=
  fun _ _ hset hsite hstep => (step_front hstep).1 ⟨hset, hsite⟩

/-! ### The other queues -/

theorem Act.outcomes {s0 u v : State} (h : Act s0 u v) (hu : u.table.outcomes.length ≤ 1024) :
    v.table.outcomes.length ≤ 1024 := by
  cases h with
  | frame h => rwa [h.outcomes]
  | ends k code r a => rwa [clearLive_table, endRecord_table]
  | append a new blocks ha => unfold appendRecord; rwa [(updCampaign_dir _ _ _).2.2.1]
  | pass room =>
    cases hq : u.table.retire with
    | nil => unfold passHead; rwa [hq]
    | cons k rest =>
      obtain h | ⟨_, _, _, _, h⟩ := passHead_table u k rest hq <;> rw [h]
      · exact hu
      · rw [List.length_append]
        exact room
  | fetch n => exact List.length_drop.trans_le ((Nat.sub_le _ _).trans hu)
  | done i => rwa [(doneCheck_dir i u).2.2.1]
  | clear _ _ _ _ _ outcomes => rw [outcomes]; exact Nat.zero_le _
  | edit => exact hu
  | enrol => exact hu
  | delete => exact hu
  | grants => exact hu
  | strangers => exact hu
  | calendar => exact hu
  | boosts => exact hu
  | touch => exact hu
  | count => exact hu
  | opens => exact hu
  | release => exact hu

/-- The lists of the directory and the planner that an act may change, each within its bounds. -/
structure ListLaw (s : State) : Prop where
  grants    : GrantBounds s.dir.grants
  strangers : StrangerBounds s.dir.strangers
  boosts    : ∀ c, (s.planner.boosts.get c).length ≤ 16

theorem grantBounds_empty : GrantBounds ⟨[], [], [], []⟩ :=
  ⟨fun c => by fin_cases c <;> exact Nat.zero_le _, List.nodup_nil⟩

theorem Act.lists {s0 u v : State} (h : Act s0 u v) (hu : ListLaw u) : ListLaw v := by
  have same {v : State} (hg : v.dir.grants = u.dir.grants) (hs : v.dir.strangers = u.dir.strangers)
      (hb : v.planner.boosts = u.planner.boosts) : ListLaw v :=
    ⟨hg ▸ hu.grants, hs ▸ hu.strangers, hb ▸ hu.boosts⟩
  cases h with
  | frame h => exact same (by rw [h.dir]) (by rw [h.dir]) h.boosts
  | grants q h => exact { hu with grants := h hu.grants }
  | strangers l h => exact { hu with strangers := h hu.strangers }
  | boosts q hd hb => exact { hu with boosts := hb hu.boosts }
  | ends k code r a =>
    have hd : (clearLive a k (endRecord k code r u)).dir = { u.dir with
        entries := u.dir.entries.map (Entry.cleared a k) } := by rw [clearLive_dir, endRecord_dir]
    exact same (by rw [hd]) (by rw [hd]) (by rw [clearLive_planner, endRecord_planner])
  | append a new blocks ha =>
    unfold appendRecord
    obtain ⟨hdir, _, _, hplanner, _⟩ := updCampaign_dir new.campaign
      (fun c => { c with admitted := c.admitted + 1, live := c.live + 1 })
      (updEntry a (fun e => { e with live := some new.serial })
        { u with table.records := u.table.records ++ [new], pool := u.pool.take new.serial blocks })
    exact same (by rw [hdir]; rfl) (by rw [hdir]; rfl) (by rw [hplanner]; rfl)
  | pass =>
    obtain ⟨_, hdir, _, hplanner, _⟩ := passHead_frame u
    exact same (by rw [hdir]) (by rw [hdir]) (by rw [hplanner])
  | done i =>
    obtain ⟨hdir, _, _, hplanner, _⟩ := doneCheck_dir i u
    exact same (by rw [hdir]) (by rw [hdir]) (by rw [hplanner])
  | clear entries grants strangers _ _ _ _ _ boosts =>
    refine ⟨?_, ?_, ?_⟩
    · obtain h | h := grants <;> rw [h]
      exacts [grantBounds_empty, hu.grants]
    · obtain h | h := strangers <;> rw [h]
      exacts [⟨Nat.zero_le _, List.nodup_nil⟩, hu.strangers]
    · rw [boosts]
      exact fun c => by fin_cases c <;> exact Nat.zero_le _
  | edit => exact same rfl rfl rfl
  | enrol => exact same rfl rfl rfl
  | delete => exact same rfl rfl rfl
  | calendar => exact same rfl rfl rfl
  | touch => exact same rfl rfl rfl
  | fetch => exact same rfl rfl rfl
  | count => exact same rfl rfl rfl
  | opens => exact same rfl rfl rfl
  | release => exact same rfl rfl rfl

/-- Settles O55: the line queues keep their bounds command by command, the other lists act by act. -/
theorem queueBoundsKept : Obligations.QueueBoundsKept := by
  intro s t h hstep
  obtain ⟨hin, hout, houtcomes, hstrangers, hgrants, hboosts, hdistinct, hids⟩ := h
  obtain ⟨hin', hout'⟩ := (step_front hstep).2 ⟨hin, hout⟩
  have hlists := (step_run hstep).keeps (fun _ _ => Act.lists) ⟨⟨hgrants, hdistinct⟩, ⟨hstrangers, hids⟩, hboosts⟩
  exact ⟨hin', hout', (step_run hstep).keeps (L := fun u => u.table.outcomes.length ≤ 1024) (fun _ _ => Act.outcomes)
    houtcomes, hlists.strangers.1, hlists.grants.1, hlists.boosts, hlists.grants.2, hlists.strangers.2⟩

end Sys2Proof.Machine
end

section
/-! The filing law: a calendar entry lies in the calendar of its tag's home cell, and its tag is a PRESENT one with work (R120,
R121). The rules of the operations that file and unfile. -/

namespace Sys2Proof.Machine

/-! ### Tags that may be filed -/

/-- The tag at short address `a` is PRESENT and its home cell is `c`. -/
def Homed (s : State) (c : Cell) (a : Nat) : Prop :=
  ∃ e ∈ s.dir.entries, e.addr = a ∧ e.state = .present ∧ e.home = some c

/-- The tag at short address `a` is PRESENT, its home cell is `c`, and it has work. -/
def Fileable (s : State) (c : Cell) (a : Nat) : Prop :=
  ∃ e ∈ s.dir.entries, e.addr = a ∧ e.state = .present ∧ e.home = some c ∧ s.hasWork e = true

/-- The filing law but for the work of the tag at `a`, which is about to be looked at again. -/
def FilingBut (a : Nat) (s : State) : Prop :=
  ∀ c, ∀ y ∈ s.planner.calendar.get c, Homed s c y.addr ∧ (y.addr ≠ a → Fileable s c y.addr)

/-- The filing law but for the tag at `a`. -/
def FilingOff (a : Nat) (s : State) : Prop :=
  ∀ c, ∀ y ∈ s.planner.calendar.get c, y.addr ≠ a → Fileable s c y.addr

theorem Fileable.homed {s : State} {c : Cell} {a : Nat} (h : Fileable s c a) : Homed s c a := by
  obtain ⟨e, he, ha, hp, hh, _⟩ := h
  exact ⟨e, he, ha, hp, hh⟩

/-- The work the filing law speaks of is the work of R121. -/
theorem hasWork_iff (s : State) (e : Entry) : s.hasWork e = true ↔
    e.commanded.isSome = true ∨ e.flash = true ∨ (s.liveRecord e).any (fun r =>
      decide (r.state = .queued ∨ r.state = .sending ∨ r.state = .withdrawing ∨ r.state = .verifying)) = true := by
  unfold State.hasWork
  rw [Bool.or_eq_true, Bool.or_eq_true]
  cases s.liveRecord e with
  | none => simp
  | some r =>
    have hstate : r.state.isWork = decide (r.state = .queued ∨ r.state = .sending ∨ r.state = .withdrawing
        ∨ r.state = .verifying) := by cases r.state <;> rfl
    simp only [Option.any_some, hstate]
    tauto

theorem filingLaw_iff {s : State} : FilingLaw s ↔ ∀ c, ∀ y ∈ s.planner.calendar.get c, Fileable s c y.addr := by
  unfold FilingLaw Fileable
  simp only [hasWork_iff]

theorem FilingLaw.but {s : State} (h : FilingLaw s) (a : Nat) : FilingBut a s := fun c y hy =>
  ⟨(filingLaw_iff.mp h c y hy).homed, fun _ => filingLaw_iff.mp h c y hy⟩

theorem FilingBut.off {s : State} {a : Nat} (h : FilingBut a s) : FilingOff a s := fun c y hy => (h c y hy).2

theorem FilingLaw.off {s : State} (h : FilingLaw s) (a : Nat) : FilingOff a s := (h.but a).off

theorem DirectoryLaw.homed_entry {s : State} (hd : DirectoryLaw s) {c : Cell} {a : Nat} (h : Homed s c a) {e : Entry}
    (he : s.entryAt a = some e) : e.state = .present ∧ e.home = some c := by
  obtain ⟨d, hd', ha, hp, hh⟩ := h
  obtain ⟨he, hea⟩ := entryAt_mem he
  obtain rfl := hd.eq_of_addr hd' he (ha.trans hea.symm)
  exact ⟨hp, hh⟩

theorem DirectoryLaw.homed_found {s : State} (hd : DirectoryLaw s) {c : Cell} {a : Nat} (h : Homed s c a) :
    ∃ e, s.entryAt a = some e := by
  obtain ⟨e, he, rfl, _⟩ := h
  exact ⟨e, hd.entryAt he⟩

/-! ### What the law looks at -/

/-- Work is the same where the live record is. -/
theorem hasWork_congr {s t : State} {e : Entry} (h : ∀ j, e.live = some j → t.recordOf j = s.recordOf j) :
    t.hasWork e = s.hasWork e := by
  have hlive : t.liveRecord e = s.liveRecord e := by
    unfold State.liveRecord
    cases hl : e.live with
    | none => rfl
    | some j => exact h j hl
  unfold State.hasWork
  rw [hlive]

/-- Two states with the same entries and records have the same tags that may be filed. -/
theorem Fileable.congr {s t : State} (hd : t.dir.entries = s.dir.entries) (hr : t.table.records = s.table.records)
    {c : Cell} {a : Nat} (h : Fileable s c a) : Fileable t c a := by
  obtain ⟨e, he, ha, hp, hh, hw⟩ := h
  exact ⟨e, hd ▸ he, ha, hp, hh, (hasWork_congr fun j _ => recordOf_congr hr j).trans hw⟩

theorem FilingLaw.congr {s t : State} (hd : t.dir.entries = s.dir.entries) (hr : t.table.records = s.table.records)
    (hc : t.planner.calendar = s.planner.calendar) (h : FilingLaw s) : FilingLaw t := by
  rw [filingLaw_iff, hc] at *
  exact fun c y hy => (h c y hy).congr hd hr

theorem FilingBut.congr {s t : State} {a : Nat} (hd : t.dir.entries = s.dir.entries)
    (hr : t.table.records = s.table.records) (hc : t.planner.calendar = s.planner.calendar) (h : FilingBut a s) :
    FilingBut a t := by
  unfold FilingBut Homed at *
  rw [hd, hc]
  exact fun c y hy => ⟨(h c y hy).1, fun hne => ((h c y hy).2 hne).congr hd hr⟩

theorem SameWork.filing {s t : State} (h : SameWork s t) (hs : FilingLaw s) : FilingLaw t :=
  hs.congr (by rw [h.dir]) h.records h.calendar

/-! ### Filing and unfiling -/

/-- A tag with work but no such doubt: the law without exception. -/
theorem FilingBut.law {s : State} {a : Nat} (hd : DirectoryLaw s) (h : FilingBut a s)
    (hw : ∀ e, s.entryAt a = some e → e.state = .present → s.hasWork e = true) : FilingLaw s := by
  refine filingLaw_iff.mpr fun c y hy => ?_
  obtain ⟨hhome, hfile⟩ := h c y hy
  by_cases hya : y.addr = a
  · obtain ⟨e, he⟩ := hd.homed_found hhome
    obtain ⟨hp, hh⟩ := hd.homed_entry hhome he
    obtain ⟨hmem, hea⟩ := entryAt_mem he
    exact ⟨e, hmem, hea, hp, hh, hw e (hya ▸ he) hp⟩
  · exact hfile hya

/-- What dropping leaves of the calendars. -/
theorem mem_dropCalendar {a : Nat} {s : State} {c : Cell} {y : CalendarEntry} :
    y ∈ (dropCalendar a s).planner.calendar.get c ↔ y ∈ s.planner.calendar.get c ∧ y.addr ≠ a := by
  rw [dropCalendar_planner, Quad.get_map, List.mem_filter, decide_eq_true_eq]

/-- What a filing leaves of the calendars. -/
theorem mem_placeCalendar {c d : Cell} {x y : CalendarEntry} {s : State} :
    y ∈ (placeCalendar c x s).planner.calendar.get d
      ↔ (d = c ∧ y = x) ∨ (y ∈ s.planner.calendar.get d ∧ y.addr ≠ x.addr) := by
  unfold placeCalendar
  dsimp only
  rw [Quad.get_modify]
  split
  · next h => rw [mem_insertBy, mem_dropCalendar]; simp [h]
  · next h => rw [mem_dropCalendar]; simp [h]

theorem dropCalendar_filing {a : Nat} {s : State} (h : FilingOff a s) : FilingLaw (dropCalendar a s) := by
  refine filingLaw_iff.mpr fun c y hy => ?_
  obtain ⟨hy, hne⟩ := mem_dropCalendar.mp hy
  exact (h c y hy hne).congr rfl rfl

theorem placeCalendar_filing {c : Cell} {x : CalendarEntry} {s : State} (h : FilingOff x.addr s)
    (hx : Fileable s c x.addr) : FilingLaw (placeCalendar c x s) := by
  refine filingLaw_iff.mpr fun d y hy => ?_
  obtain ⟨rfl, rfl⟩ | ⟨hy, hne⟩ := mem_placeCalendar.mp hy
  · exact hx.congr rfl rfl
  · exact (h d y hy hne).congr rfl rfl

/-- A tag with work filed by R122. -/
theorem fileTag_filing {a : Nat} {s : State} (h : FilingLaw s)
    (hw : ∀ e, s.entryAt a = some e → e.state = .present ∧ s.hasWork e = true) : FilingLaw (fileTag a s) := by
  obtain he | ⟨e, c, he, hc, hf⟩ := fileTag_eq a s
  · rwa [he]
  · rw [hf]
    obtain ⟨hp, hwork⟩ := hw e he
    obtain ⟨hmem, ha⟩ := entryAt_mem he
    exact placeCalendar_filing (h.off a) ⟨e, hmem, ha, hp, hc, hwork⟩

/-- The work notice restores the law where the work of its tag was in doubt (Table 7-2). -/
theorem workNotice_filing {a : Nat} {s : State} (hd : DirectoryLaw s) (h : FilingBut a s) :
    FilingLaw (workNotice a s) := by
  unfold workNotice
  split
  · next hnone => exact h.law hd fun e he => by rw [hnone] at he; cases he
  · next e he =>
    have hlaw (hw : e.state = .present → s.hasWork e = true) : FilingLaw s :=
      h.law hd fun d hde hp => by
        obtain rfl := Option.some.inj (he.symm.trans hde)
        exact hw hp
    split
    · next hp =>
      split
      · next hw =>
        split
        · exact hlaw fun _ => hw
        · exact fileTag_filing (hlaw fun _ => hw) fun d hde => by
            obtain rfl := Option.some.inj (he.symm.trans hde)
            exact ⟨hp, hw⟩
      · exact dropCalendar_filing h.off
    · next hp => exact hlaw fun hp' => absurd hp' hp

/-- The filing at a slot end restores the law (R138). -/
theorem slotFiling_filing {a : Nat} {s : State} (hd : DirectoryLaw s) (h : FilingBut a s) :
    FilingLaw (slotFiling a s) := by
  unfold slotFiling
  split
  · next hnone => exact h.law hd fun e he => by rw [hnone] at he; cases he
  · next e he =>
    have hlaw (hw : e.state = .present → s.hasWork e = true) : FilingLaw s :=
      h.law hd fun d hde hp => by
        obtain rfl := Option.some.inj (he.symm.trans hde)
        exact hw hp
    split
    · next hp =>
      split
      · next hw =>
        exact fileTag_filing (hlaw fun _ => hw) fun d hde => by
          obtain rfl := Option.some.inj (he.symm.trans hde)
          exact ⟨hp, hw⟩
      · exact dropCalendar_filing h.off
    · next hp => exact hlaw fun hp' => absurd hp' hp

/-! ### Changes of entries and records -/

/-- An entry is changed at `a`, its place, state and home kept: its work alone is in doubt. -/
theorem updEntry_filingBut {a : Nat} {f : Entry → Entry} {s : State}
    (hf : ∀ e, (f e).addr = e.addr ∧ (f e).state = e.state ∧ (f e).home = e.home) (h : FilingBut a s) :
    FilingBut a (updEntry a f s) := by
  intro c y hy
  obtain ⟨⟨e, he, hea, hp, hh⟩, hfile⟩ := h c y hy
  refine ⟨⟨if e.addr = a then f e else e, List.mem_map_of_mem he, ?_, ?_, ?_⟩, fun hne => ?_⟩
  · split
    · rw [(hf e).1, hea]
    · exact hea
  · split
    · rw [(hf e).2.1, hp]
    · exact hp
  · split
    · rw [(hf e).2.2, hh]
    · exact hh
  · obtain ⟨d, hd, hda, hdp, hdh, hdw⟩ := hfile hne
    refine ⟨d, List.mem_map.mpr ⟨d, hd, if_neg (hda ▸ hne)⟩, hda, hdp, hdh, ?_⟩
    exact (hasWork_congr fun j _ => recordOf_congr rfl j).trans hdw

/-- The tag whose live change a record is alone has its work changed with it. -/
theorem updRecord_filingBut {k : Serial} {f : Change → Change} {s : State} (hf : ∀ r, (f r).serial = r.serial)
    (ho : Orderly s) {r : Change} (hr : s.recordOf k = some r) (h : FilingBut r.addr s) :
    FilingBut r.addr (updRecord k f s) := by
  intro c y hy
  obtain ⟨hhome, hfile⟩ := h c y hy
  refine ⟨hhome, fun hne => ?_⟩
  obtain ⟨e, he, hea, hp, hh, hw⟩ := hfile hne
  refine ⟨e, he, hea, hp, hh, Eq.trans (hasWork_congr fun j hj => ?_) hw⟩
  have hjk : j ≠ k := by
    rintro rfl
    obtain ⟨q, hq, hqa, _⟩ := ho.liveRecord he hj
    obtain rfl := Option.some.inj (hr.symm.trans hq)
    exact hne (hea.symm.trans hqa.symm)
  rw [recordOf_updRecord hf]
  cases hx : s.recordOf j with
  | none => rfl
  | some x => rw [Option.map_some, if_neg (recordOf_serial hx ▸ hjk)]

/-- Records changed with their work as it was leave the law. -/
theorem updRecord_fileable {k : Serial} {f : Change → Change} {s : State} (hf : ∀ r, (f r).serial = r.serial)
    (hw : ∀ r, s.recordOf k = some r → (f r).state.isWork = r.state.isWork) {c : Cell} {a : Nat} (h : Fileable s c a) :
    Fileable (updRecord k f s) c a := by
  obtain ⟨e, he, hea, hp, hh, hwork⟩ := h
  refine ⟨e, he, hea, hp, hh, ?_⟩
  unfold State.hasWork State.liveRecord at *
  cases hl : e.live with
  | none => rw [hl] at hwork; exact hwork
  | some j =>
    rw [hl, Option.bind_some] at hwork
    rw [Option.bind_some, recordOf_updRecord hf]
    cases hx : s.recordOf j with
    | none => rw [hx] at hwork; exact hwork
    | some x =>
      rw [hx] at hwork
      rw [Option.map_some]
      by_cases hk : x.serial = k
      · rw [if_pos hk]
        dsimp only at hwork ⊢
        rw [hw x (hk ▸ recordOf_self hx)]
        exact hwork
      · rw [if_neg hk]
        exact hwork

theorem updRecord_filing {k : Serial} {f : Change → Change} {s : State} (hf : ∀ r, (f r).serial = r.serial)
    (hw : ∀ r, s.recordOf k = some r → (f r).state.isWork = r.state.isWork) (h : FilingLaw s) :
    FilingLaw (updRecord k f s) :=
  filingLaw_iff.mpr fun c y hy => updRecord_fileable hf hw (filingLaw_iff.mp h c y hy)

/-- The law but for one tag survives a record's change of state, the Call Planner being told when its work changes (R63). -/
theorem moveRecord_filingBut {k : Serial} {f : Change → Change} {s : State} (hf : ∀ r, (f r).serial = r.serial)
    (ho : Orderly s) {r : Change} (hr : s.recordOf k = some r) (h : FilingBut r.addr s) :
    FilingBut r.addr (moveRecord k f s) := by
  unfold moveRecord
  rw [hr]
  dsimp only
  have hupd := updRecord_filingBut hf ho hr h
  split
  · exact hupd
  · exact (workNotice_filing (s := updRecord k f s) ho.directory hupd).but _

theorem moveRecord_filing {k : Serial} {f : Change → Change} {s : State} (hf : ∀ r, (f r).serial = r.serial)
    (ho : Orderly s) (h : FilingLaw s) : FilingLaw (moveRecord k f s) := by
  unfold moveRecord
  split
  · exact h
  · next r hr =>
    dsimp only
    split
    · next hw =>
      refine updRecord_filing hf (fun q hq => ?_) h
      obtain rfl := Option.some.inj (hr.symm.trans hq)
      exact hw
    · exact workNotice_filing (s := updRecord k f s) ho.directory (updRecord_filingBut hf ho hr (h.but _))

/-! ### Records that leave -/

/-- With entries and records in step, a live change found is the one that was there: the work stays. -/
theorem Fileable.of_back {s t : State} (ho : Orderly t) (hd : t.dir.entries = s.dir.entries)
    (hback : ∀ j r, t.recordOf j = some r → s.recordOf j = some r) {c : Cell} {a : Nat} (h : Fileable s c a) :
    Fileable t c a := by
  obtain ⟨e, he, hea, hp, hh, hw⟩ := h
  refine ⟨e, hd ▸ he, hea, hp, hh, Eq.trans (hasWork_congr fun j hj => ?_) hw⟩
  obtain ⟨r, hr, _⟩ := ho.liveRecord (hd ▸ he) hj
  rw [hr, hback j r hr]

theorem FilingLaw.of_back {s t : State} (ho : Orderly t) (hd : t.dir.entries = s.dir.entries)
    (hc : t.planner.calendar = s.planner.calendar) (hback : ∀ j r, t.recordOf j = some r → s.recordOf j = some r)
    (h : FilingLaw s) : FilingLaw t := by
  rw [filingLaw_iff, hc]
  exact fun c y hy => (filingLaw_iff.mp h c y hy).of_back ho hd hback

/-- A record ended takes the work of its tag alone. -/
theorem endRecord_filingBut {k : Serial} {s : State} (code : OutcomeCode) (ho : Orderly s) {r : Change}
    (hr : s.recordOf k = some r) (h : FilingBut r.addr s) :
    FilingBut r.addr (dropBoost r.addr (clearLive r.addr k (closeRecord k code s))) := by
  have hclosed := updRecord_filingBut (f := Change.closed code s.air.beacon) (fun _ => rfl) ho hr h
  have hlive : FilingBut r.addr (clearLive r.addr k (updRecord k (Change.closed code s.air.beacon) s)) := by
    refine updEntry_filingBut (f := fun e => if e.live = some k then { e with live := none } else e) (fun e => ?_) hclosed
    split <;> exact ⟨rfl, rfl, rfl⟩
  exact hlive.congr rfl rfl rfl

/-- A finishing restores the law where the work of its tag was in doubt (R81, R121). -/
theorem finish_filing {k : Serial} {s : State} (code : OutcomeCode) (ho : Orderly s) {r : Change}
    (hr : s.recordOf k = some r) (hlive : r.state ≠ .finished) (h : FilingBut r.addr s) :
    FilingLaw (finish k code false s) := by
  have horder : Orderly (finish k code false s) := (finish_run (s0 := s) k code s fun q hq _ => by
    obtain rfl := Option.some.inj (hr.symm.trans hq)
    exact hlive).orderly ho
  set v := dropBoost r.addr (clearLive r.addr k (closeRecord k code s)) with hv
  have hdir : DirectoryLaw v := by
    have := horder.directory
    unfold DirectoryLaw at *
    rw [finish_dir code hr] at this
    exact this
  have hlaw := workNotice_filing hdir (endRecord_filingBut code ho hr h)
  refine hlaw.of_back horder ?_ ?_ fun j q hq => ?_
  · rw [finish_dir code hr]
    obtain ⟨_, hn⟩ := workNotice_planner r.addr v
    rw [hn]
    rfl
  · rw [finish_eq code hr, (joinRetire_frame _ _).2.2.2]
  · rw [finish_eq code hr] at hq
    have hq := joinRetire_recordOf hq
    obtain ⟨_, hn⟩ := workNotice_planner r.addr v
    rw [hn]
    rw [recordOf_congr (s := v) (by rw [hv]; exact congrArg (·.records) (endRecord_table k code r s))] at hq
    exact hq

theorem finish_law {k : Serial} {s : State} (code : OutcomeCode) (ho : Orderly s)
    (hlive : ∀ r, s.recordOf k = some r → r.state ≠ .finished) (h : FilingLaw s) : FilingLaw (finish k code false s) := by
  cases hr : s.recordOf k with
  | none => rwa [finish_none code false hr]
  | some r => exact finish_filing code ho hr (hlive r hr) (h.but _)

end Sys2Proof.Machine
end

section
/-! Every command keeps the filing law: a slot end, a join, an instant, a cut, an admission. -/

namespace Sys2Proof.Machine

/-! ### Good states -/

/-- Directory, table and live changes in order, and the calendars with them. -/
structure Good (s : State) : Prop where
  orderly : Orderly s
  filing  : FilingLaw s

/-- A run that keeps the filing law keeps all. -/
theorem Good.run {s t : State} (h : Good s) (hrun : Run s s t) (hf : FilingLaw t) : Good t := ⟨hrun.orderly h.orderly, hf⟩

theorem Good.same {s t : State} (h : Good s) (hw : SameWork s t) : Good t :=
  h.run (hw.run s) (hw.filing h.filing)

theorem foldl_good {α : Type} {f : State → α → State} (hf : ∀ s a, Good s → Good (f s a)) (xs : List α) {s : State}
    (h : Good s) : Good (xs.foldl f s) := by
  induction xs generalizing s with
  | nil => exact h
  | cons a xs ih => exact ih (hf s a h)

/-- Entries changed in place keep the tags that may be filed where each keeps its place, state, home and work. -/
theorem mapEntries_filing {f : Entry → Entry}
    (hf : ∀ e, (f e).addr = e.addr ∧ (f e).state = e.state ∧ (f e).home = e.home ∧ (f e).live = e.live
      ∧ (f e).commanded = e.commanded ∧ (f e).flash = e.flash) {s : State} (h : FilingLaw s) :
    FilingLaw { s with dir.entries := s.dir.entries.map f } := by
  refine filingLaw_iff.mpr fun c y hy => ?_
  obtain ⟨e, he, hea, hp, hh, hw⟩ := filingLaw_iff.mp h c y hy
  obtain ⟨ha, hst, hho, hl, hc, hfl⟩ := hf e
  refine ⟨f e, List.mem_map_of_mem he, ha.trans hea, hst.trans hp, hho.trans hh, ?_⟩
  rw [hasWork_iff] at hw ⊢
  rw [hc, hfl, State.liveRecord, hl]
  exact hw

theorem updEntry_filingOff {a : Nat} {f : Entry → Entry} {s : State} (h : FilingOff a s) :
    FilingOff a (updEntry a f s) := by
  intro c y hy hne
  obtain ⟨d, hd, hda, hdp, hdh, hdw⟩ := h c y hy hne
  refine ⟨d, List.mem_map.mpr ⟨d, hd, if_neg (hda ▸ hne)⟩, hda, hdp, hdh, ?_⟩
  exact (hasWork_congr fun j _ => recordOf_congr rfl j).trans hdw

theorem FilingOff.congr {s t : State} {a : Nat} (hd : t.dir.entries = s.dir.entries)
    (hr : t.table.records = s.table.records) (hc : t.planner.calendar = s.planner.calendar) (h : FilingOff a s) :
    FilingOff a t := by
  unfold FilingOff at *
  rw [hc]
  exact fun c y hy hne => (h c y hy hne).congr hd hr

/-! ### A report's turns -/

/-- The tag at `a` is in doubt, and the record of serial `k` is its live one. -/
structure InDoubt (a : Nat) (k : Serial) (s : State) : Prop where
  orderly : Orderly s
  record  : ∃ r, s.recordOf k = some r ∧ r.addr = a ∧ r.state ≠ .finished
  filing  : FilingBut a s

theorem InDoubt.finish {a : Nat} {k : Serial} {s : State} (h : InDoubt a k s) (code : OutcomeCode) :
    FilingBut a (finish k code false s) := by
  obtain ⟨r, hr, rfl, hlive⟩ := h.record
  exact (finish_filing code h.orderly hr hlive h.filing).but _

theorem InDoubt.move {a : Nat} {k : Serial} {s : State} (h : InDoubt a k s) {f : Change → Change}
    (hf : ∀ r, (f r).serial = r.serial) : FilingBut a (moveRecord k f s) := by
  obtain ⟨r, hr, rfl, _⟩ := h.record
  exact moveRecord_filingBut hf h.orderly hr h.filing

theorem InDoubt.upd {a : Nat} {k : Serial} {s : State} (h : InDoubt a k s) {f : Change → Change}
    (hf : ∀ r : Change, r.Alike (f r)) : InDoubt a k (updRecord k f s) := by
  obtain ⟨r, hr, rfl, hlive⟩ := h.record
  refine ⟨(updRecord_run (s0 := s) k f s fun r _ => hf r).orderly h.orderly,
    ⟨f r, recordOf_updRecord_same (fun r => (hf r).serial) hr, (hf r).addr, fun he => hlive ((hf r).finished.mp he)⟩, ?_⟩
  exact updRecord_filingBut (fun r => (hf r).serial) h.orderly hr h.filing

theorem badReport_filing {a : Nat} {r : Change} {s : State} (h : InDoubt a r.serial s) : FilingBut a (badReport r s) := by
  have hupd := h.upd (f := fun r => { r with displaced := none, acked := 0, failures := r.failures + 1 })
    fun r => ⟨rfl, rfl, rfl, rfl, rfl, rfl, fun _ => Nat.zero_le _, .rfl⟩
  unfold badReport
  dsimp only
  split
  · exact hupd.finish _
  · split
    · exact hupd.move fun _ => rfl
    · exact hupd.move fun _ => rfl

theorem reportDelivery_filing {a : Nat} {r : Change} (p : Report) {s : State} (h : InDoubt a r.serial s) :
    FilingBut a (reportDelivery r p s) := by
  unfold reportDelivery
  split
  · exact h.finish _
  · split
    · split
      · exact badReport_filing h
      · exact h.move fun _ => rfl
      · exact h.move fun _ => rfl
      · exact h.move fun _ => rfl
    · exact h.move fun _ => rfl

theorem reportStaged_filing {a : Nat} {r : Change} (p : Report) {s : State} (h : InDoubt a r.serial s) :
    FilingBut a (reportStaged r p s) := by
  unfold reportStaged
  split
  · exact h.filing
  · split
    · exact badReport_filing h
    · exact h.move fun _ => rfl

theorem reportVerifying_filing {a : Nat} {r : Change} (p : Report) {s : State} (h : InDoubt a r.serial s) :
    FilingBut a (reportVerifying r p s) := by
  unfold reportVerifying
  split
  · exact h.finish _
  · split
    · exact h.filing
    · split
      · exact badReport_filing h
      · exact h.move fun _ => rfl

theorem reportWithdrawing_filing {a : Nat} {r : Change} (p : Report) {s : State} (h : InDoubt a r.serial s) :
    FilingBut a (reportWithdrawing r p s) := by
  unfold reportWithdrawing
  split
  · exact h.filing
  · exact h.finish _

theorem changeReport_filing {a : Nat} (k : Serial) (p : Report) {s : State} (ho : Orderly s) (h : FilingBut a s) :
    FilingBut a (changeReport a k p s) := by
  unfold changeReport
  split
  · exact h
  · next e he =>
    split
    · next hk =>
      obtain ⟨_, hlive⟩ := hk
      obtain ⟨hmem, hea⟩ := entryAt_mem he
      obtain ⟨q, hq, hqa, _, hqn⟩ := ho.liveRecord hmem hlive
      have hdoubt : InDoubt a k s := ⟨ho, ⟨q, hq, hqa.trans hea, hqn⟩, h⟩
      have hclear : InDoubt a k (if p.staged.serial = k then updRecord k (fun r => { r with displaced := none }) s else s) := by
        split
        · exact hdoubt.upd fun r => ⟨rfl, rfl, rfl, rfl, rfl, rfl, id, .rfl⟩
        · exact hdoubt
      split
      · exact h
      · next r hr =>
        dsimp only
        generalize (if p.staged.serial = k then updRecord k (fun r => { r with displaced := none }) s else s) = u at hclear ⊢
        rw [← recordOf_serial hr] at hclear
        split
        · exact reportDelivery_filing p hclear
        · exact reportDelivery_filing p hclear
        · exact reportStaged_filing p hclear
        · exact reportVerifying_filing p hclear
        · exact reportWithdrawing_filing p hclear
        · exact hclear.filing
    · exact h

/-- A debit leaves places, states, homes and work (R112). -/
theorem debit_filingBut {a b : Nat} (cost : Nat) {s : State} (h : FilingBut a s) : FilingBut a (debit b cost s) := by
  have hmap : FilingBut a (updEntry b (fun e => { e with remaining := e.remaining - cost }) s) := by
    intro c y hy
    obtain ⟨⟨e, he, hea, hp, hh⟩, hfile⟩ := h c y hy
    refine ⟨⟨if e.addr = b then { e with remaining := e.remaining - cost } else e, List.mem_map_of_mem he, ?_, ?_, ?_⟩,
      fun hne => ?_⟩
    · split <;> exact hea
    · split <;> exact hp
    · split <;> exact hh
    · obtain ⟨d, hd, hda, hdp, hdh, hdw⟩ := hfile hne
      refine ⟨if d.addr = b then { d with remaining := d.remaining - cost } else d, List.mem_map_of_mem hd, ?_, ?_, ?_, ?_⟩
      · split <;> exact hda
      · split <;> exact hdp
      · split <;> exact hdh
      · split <;> exact hdw
  unfold debit
  dsimp only
  split
  · exact hmap
  · next r _ =>
    intro c y hy
    obtain ⟨hhome, hfile⟩ := hmap c y hy
    exact ⟨hhome, fun hne => updRecord_fileable (f := fun r => { r with spent := min (r.spent + cost) 65535 })
      (fun _ => rfl) (fun _ _ => rfl) (hfile hne)⟩

theorem budgetReport_filing {a : Nat} (p : Snapshot) (rep : Report) {s : State} (h : FilingBut a s) :
    FilingBut a (budgetReport p rep s) := by
  unfold budgetReport
  split
  · split
    · exact debit_filingBut _ h
    · exact h
  · exact h

theorem resolveBoost_filing {a : Nat} (p : Snapshot) (rep : Option Report) {s : State} (h : FilingBut a s) :
    FilingBut a (resolveBoost p rep s) := by
  unfold resolveBoost
  split
  · exact h
  · split
    · split
      · exact h
      · split <;> exact h.congr rfl rfl rfl
    · split
      · exact h
      · split
        · exact h.congr rfl rfl rfl
        · exact h

theorem directoryReport_filing (p : Snapshot) (rep : Report) (level : Byte) {s : State} (h : FilingBut p.addr s) :
    FilingBut p.addr (directoryReport p rep level s) := by
  have hupd := updEntry_filingBut (f := Entry.afterReport p.cell p.beacon rep level)
    (fun e => ⟨rfl, rfl, rfl⟩) h
  have hflag (fell : Bool) (u : State) (hu : FilingBut p.addr u) :
      FilingBut p.addr (if fell then raiseFlag .lowBattery u else u) := by
    split
    · exact hu.congr rfl rfl rfl
    · exact hu
  exact hflag _ _ hupd

/-! ### Slot ends -/

/-- The effects of R42 on the tag that becomes LOST, before its live change ends. -/
def loseTag (e : Entry) (s : State) : State :=
  dropGrants e.tagId (dropBoost e.addr (dropCalendar e.addr
    (raiseFlag .tagLost (updEntry e.addr (fun e => { e with state := .lost }) s))))

theorem lost_edit : EntryEdit fun e => { e with state := .lost } :=
  ⟨fun _ => rfl, fun _ => rfl, fun _ => rfl, fun _ h => h⟩

theorem misses_edit (limit : Nat) : EntryEdit fun e => { e with misses := min (e.misses + 1) limit } :=
  ⟨fun _ => rfl, fun _ => rfl, fun _ => rfl, fun _ h => h⟩

theorem loseTag_run (s0 : State) (e : Entry) (s : State) : Run s0 s (loseTag e s) :=
  ((((updEntry_run e.addr lost_edit s).trans
    ((raiseFlag_work _ _).run s0)).trans (dropCalendar_run _ _)).trans (dropBoost_run _ _)).trans (dropGrants_run _ _)

/-- The LOST transition takes the tag off every list, and ends its live change where Table 8-2 says so. -/
theorem becomeLost_cases (e : Entry) (s : State) : becomeLost e s = loseTag e s
    ∨ ∃ r code, (loseTag e s).liveRecord e = some r ∧ lostOutcome r.state = some code
      ∧ becomeLost e s = finish r.serial code false (loseTag e s) := by
  change (match (loseTag e s).liveRecord e with
    | none => loseTag e s
    | some r => match lostOutcome r.state with
      | none => loseTag e s
      | some code => finish r.serial code false (loseTag e s)) = _ ∨ ∃ r code, _ ∧ _ ∧ (match (loseTag e s).liveRecord e with
    | none => loseTag e s
    | some r => match lostOutcome r.state with
      | none => loseTag e s
      | some code => finish r.serial code false (loseTag e s)) = _
  cases hr : (loseTag e s).liveRecord e with
  | none => exact .inl rfl
  | some r =>
    cases hc : lostOutcome r.state with
    | none => exact .inl (by simp only [hc])
    | some code => exact .inr ⟨r, code, rfl, hc, by simp only [hc]⟩

theorem becomeLost_filing {e : Entry} {s : State} (ho : Orderly s) (h : FilingOff e.addr s) :
    FilingLaw (becomeLost e s) := by
  have hoff : FilingOff e.addr (raiseFlag .tagLost (updEntry e.addr (fun e => { e with state := .lost }) s)) :=
    (updEntry_filingOff h).congr rfl rfl rfl
  have hgone : FilingLaw (loseTag e s) := (dropCalendar_filing hoff).congr rfl rfl rfl
  obtain hb | ⟨r, code, hr, hc, hb⟩ := becomeLost_cases e s <;> rw [hb]
  · exact hgone
  · refine finish_law code ((loseTag_run s e s).orderly ho) (fun q hq => ?_) hgone
    obtain rfl := Option.some.inj ((liveRecord_eq_some hr).2.symm.trans hq)
    rintro hf
    simp [lostOutcome, hf] at hc

theorem countMiss_filing (a : Nat) {s : State} (h : Good s) : FilingBut a (countMiss a s) := by
  have hupd := updEntry_filingBut (f := fun e => { e with misses := min (e.misses + 1) s.store.working.missLimit })
    (fun e => ⟨rfl, rfl, rfl⟩) (h.filing.but a)
  unfold countMiss
  split
  · exact h.filing.but a
  · next e he =>
    dsimp only
    split
    · obtain ⟨_, hea⟩ := entryAt_mem he
      have horder : Orderly (updEntry a (fun e => { e with misses := min (e.misses + 1) s.store.working.missLimit }) s) :=
        (updEntry_run (s0 := s) a (misses_edit _) s).orderly h.orderly
      exact (becomeLost_filing horder (hea ▸ hupd.off)).but a
    · exact hupd

theorem endSlot_good (p : Snapshot) (received : Option (List Byte)) (level : Byte) {s : State} (h : Good s) :
    Good (endSlot p received level s) := by
  refine h.run (endSlot_run p received level s) ?_
  unfold endSlot
  split
  · exact h.filing
  · split
    · split
      · next rep _ =>
        have hdir := directoryReport_run (s0 := s) p rep level s
        have hchange := hdir.trans (changeReport_run p.addr p.serial rep _)
        have hrest := (hchange.trans (budgetReport_run p rep _)).trans (resolveBoost_run p (some rep) _)
        refine slotFiling_filing (hrest.orderly h.orderly).directory (resolveBoost_filing p _ (budgetReport_filing p rep ?_))
        exact changeReport_filing _ _ (hdir.orderly h.orderly) (directoryReport_filing p rep level (h.filing.but _))
      · have hrest := (countMiss_run (s0 := s) p.addr s).trans (resolveBoost_run p none _)
        exact slotFiling_filing (hrest.orderly h.orderly).directory
          (resolveBoost_filing p _ (countMiss_filing p.addr h))
    · exact h.filing

theorem slotEnd_good (c : Cell) (received : Option (List Byte)) (level : Byte) {s : State} (h : Good s) :
    Good (slotEnd c received level s) := by
  unfold slotEnd
  split
  · exact h
  · split
    · exact h
    · exact endSlot_good _ received level (h.same (windows_work _ s))

theorem headLost_good (c : Cell) {s : State} (h : Good s) : Good (headLost c s) := by
  have habandon {u : State} (hu : Good u) : Good (abandonWindow c u) := by
    unfold abandonWindow
    split
    · exact hu
    · exact foldl_good (fun s p hs => endSlot_good p none 0 hs) _ (hu.same (windows_work _ u))
  unfold headLost
  split
  · exact habandon ((h.same (t := { s with cells.heads := s.cells.heads.set c false })
      ⟨rfl, rfl, rfl, rfl, rfl, rfl, rfl⟩).same (raiseFlag_work _ _))
  · exact h

/-! ### Requests on tags -/

theorem orderEntry_good (a : Nat) {f : Entry → Entry} (hf : EntryEdit f)
    (hs : ∀ e, (f e).state = e.state ∧ (f e).home = e.home) {s : State} (h : Good s) : Good (orderEntry a f s) := by
  refine h.run (orderEntry_run a hf s) ?_
  exact workNotice_filing ((updEntry_run (s0 := s) a hf s).orderly h.orderly).directory
    (updEntry_filingBut (fun e => ⟨hf.addr e, hs e⟩) (h.filing.but a))

theorem placeEntry_filing (e : Entry) {s : State} (h : FilingLaw s) : FilingLaw (placeEntry e s) := by
  refine filingLaw_iff.mpr fun c y hy => ?_
  obtain ⟨d, hd, hrest⟩ := filingLaw_iff.mp h c y hy
  exact ⟨d, mem_insertBy.mpr (.inr hd), hrest⟩

theorem actEnrol_good (payload : List Byte) {s : State} (h : Good s) : Good (actEnrol payload s).2 := by
  refine h.run (actEnrol_run payload s) ?_
  unfold actEnrol
  dsimp only
  split
  · split
    · exact h.filing
    · split
      · exact h.filing
      · split
        · exact h.filing
        · exact (placeEntry_filing _ h.filing).congr rfl rfl rfl
  · exact h.filing

theorem deleteEntry_filing (e : Entry) {s : State} (h : FilingLaw s) : FilingLaw (deleteEntry e s) := by
  refine filingLaw_iff.mpr fun c y hy => ?_
  obtain ⟨hy, hne⟩ := mem_dropCalendar.mp hy
  obtain ⟨d, hd, hda, hrest⟩ := filingLaw_iff.mp h c y hy
  exact ⟨d, List.mem_filter.mpr ⟨hd, decide_eq_true (hda ▸ hne)⟩, hda, hrest⟩

theorem actRemove_good (payload : List Byte) {s : State} (h : Good s) : Good (actRemove payload s).2 := by
  refine h.run (actRemove_run payload s) ?_
  unfold actRemove
  split
  · exact h.filing
  · split
    · exact deleteEntry_filing _ h.filing
    · next r hr =>
      split
      · next hq =>
        refine deleteEntry_filing _ (finish_law _ h.orderly (fun q hq' => ?_) h.filing)
        obtain rfl := Option.some.inj ((liveRecord_eq_some hr).2.symm.trans hq')
        simp [hq]
      · exact h.filing

theorem actSetWakeTag_good (payload : List Byte) {s : State} (h : Good s) : Good (actSetWakeTag payload s).2 := by
  unfold actSetWakeTag
  split
  · exact h
  · exact orderEntry_good _ (orderClass_edit _) (fun _ => ⟨rfl, rfl⟩) h

theorem actSetWakeZone_good (payload : List Byte) {s : State} (h : Good s) : Good (actSetWakeZone payload s).2 :=
  foldl_good (fun _ (e : Entry) hs => orderEntry_good e.addr (orderClass_edit _) (fun _ => ⟨rfl, rfl⟩) hs) _ h

theorem actLocate_good (payload : List Byte) {s : State} (h : Good s) : Good (actLocate payload s).2 := by
  unfold actLocate
  split
  · exact h
  · dsimp only [okWith]
    split
    · exact h
    · exact orderEntry_good _ flash_edit (fun _ => ⟨rfl, rfl⟩) h

theorem actSetAllowance_good (payload : List Byte) {s : State} (h : Good s) : Good (actSetAllowance payload s).2 := by
  refine h.run (actSetAllowance_run payload s) ?_
  unfold actSetAllowance
  split
  · exact h.filing
  · next e he =>
    refine mapEntries_filing (f := fun x => if x.addr = e.addr then
      Entry.withAllowance (field 4 2 payload) x else x) (fun x => ?_) h.filing
    split
    · unfold Entry.withAllowance
      split <;> exact ⟨rfl, rfl, rfl, rfl, rfl, rfl⟩
    · exact ⟨rfl, rfl, rfl, rfl, rfl, rfl⟩

theorem finishAll_good (xs : List (Serial × OutcomeCode)) {s : State} (h : Good s) (hd : (xs.map (·.1)).Nodup)
    (hlive : ∀ x ∈ xs, ∀ r, s.recordOf x.1 = some r → r.state ≠ .finished) :
    Good (xs.foldl (fun s x => finish x.1 x.2 false s) s) := by
  induction xs generalizing s with
  | nil => exact h
  | cons x xs ih =>
    rw [List.map_cons, List.nodup_cons] at hd
    have hx := hlive x List.mem_cons_self
    have hfin : Good (finish x.1 x.2 false s) :=
      h.run (finish_run x.1 x.2 s fun r hr _ => hx r hr) (finish_law x.2 h.orderly hx h.filing)
    refine ih hfin hd.2 fun y hy r hr => ?_
    have hne : y.1 ≠ x.1 := fun he => hd.1 (he ▸ List.mem_map_of_mem hy)
    exact hlive y (List.mem_cons_of_mem x hy) r (finish_recordOf_ne hne hr)

theorem refresh_good {s : State} (h : Good s) : Good (refresh s) := by
  have hrenewed : Good (renewedState s) :=
    h.run (Act.edit Entry.renewed renewed_edit).run
      (mapEntries_filing (f := Entry.renewed) (fun _ => ⟨rfl, rfl, rfl, rfl, rfl, rfl⟩) h.filing)
  rw [refresh_eq]
  exact finishAll_good _ hrenewed (refreshList_distinct h.orderly) (refreshList_live s)

/-! ### Requests on changes -/

theorem actCancelChange_good (payload : List Byte) {s : State} (h : Good s) : Good (actCancelChange payload s).2 := by
  refine h.run (actCancelChange_run payload s) ?_
  unfold actCancelChange
  dsimp only
  split
  · exact h.filing
  · next r hr =>
    have hlive (hs : r.state ≠ .finished) : ∀ q, s.recordOf (BitVec.ofNat 16 (leNat payload)) = some q →
        q.state ≠ .finished := fun q hq => by
      obtain rfl := Option.some.inj (hr.symm.trans hq)
      exact hs
    split
    · next hs => exact finish_law _ h.orderly (hlive (by simp [hs])) h.filing
    · next hs => exact finish_law _ h.orderly (hlive (by simp [hs])) h.filing
    · exact workNotice_filing (s := updRecord _ (fun r => { r with state := .withdrawing }) s)
        h.orderly.directory
        (updRecord_filingBut (f := fun r => { r with state := .withdrawing }) (fun _ => rfl) h.orderly hr (h.filing.but _))
    · exact h.filing
    · exact h.filing
    · exact h.filing

theorem passAll_back {s : State} {j : Serial} {r : Change} (h : (passAll s).recordOf j = some r) :
    s.recordOf j = some r := passRecords_recordOf h

theorem actFetchOutcomes_good {s : State} (h : Good s) : Good (actFetchOutcomes s).2 := by
  refine h.run (actFetchOutcomes_run s) ?_
  set u : State := { s with table.outcomes := s.table.outcomes.drop 16 } with hu
  have hgood : Good u := h.run (Act.fetch 16).run (h.filing.congr rfl rfl rfl)
  have hpass : FilingLaw (passAll u) :=
    hgood.filing.of_back ((passAll_run (s0 := u) u).orderly hgood.orderly) (by unfold passAll; rw [(passRecords_frame _ u).2.1])
      (by unfold passAll; rw [(passRecords_frame _ u).2.2.2.1]) fun j r hr => passAll_back hr
  change FilingLaw (fetchLatch (passAll u))
  unfold fetchLatch
  split
  · exact hpass.congr rfl rfl rfl
  · split
    · exact hpass.congr rfl rfl rfl
    · exact hpass

theorem beforeAppend_frame (new : Change) (superseded : Option Change) (s : State) :
    (beforeAppend new superseded s).dir = s.dir ∧ (beforeAppend new superseded s).planner = s.planner := by
  unfold beforeAppend
  dsimp only
  cases superseded with
  | none => exact ⟨rfl, rfl⟩
  | some r =>
    dsimp only
    cases hr : ({ s with table.nextSerial := new.serial + 1, table.nextSequence := s.table.nextSequence + 1 } : State).recordOf
        r.serial with
    | none => rw [finish_none _ _ hr]; exact ⟨rfl, rfl⟩
    | some q =>
      rw [finish_within _ hr, (joinRetire_frame _ _).2.1, (joinRetire_frame _ _).2.2.2, endRecord_dir, endRecord_planner]
      exact ⟨rfl, rfl⟩

/-- The making room for a record finds every record but the superseded one as it was, or gone. -/
theorem beforeAppend_back {new : Change} {superseded : Option Change} {s : State} {j : Serial} {r : Change}
    (hj : ∀ q, superseded = some q → j ≠ q.serial) (h : (beforeAppend new superseded s).recordOf j = some r) :
    s.recordOf j = some r := by
  unfold beforeAppend at h
  dsimp only at h
  set u : State := { s with table.nextSerial := new.serial + 1, table.nextSequence := s.table.nextSequence + 1 } with hu
  have hsame : u.recordOf j = s.recordOf j := recordOf_congr rfl j
  cases superseded with
  | none => exact hsame ▸ h
  | some q =>
    dsimp only at h
    rw [← hsame]
    cases hq : u.recordOf q.serial with
    | none => rwa [finish_none _ _ hq] at h
    | some x =>
      rw [finish_within _ hq] at h
      have h := joinRetire_recordOf h
      rw [recordOf_congr (s := updRecord q.serial (Change.closed .superseded u.air.beacon) u) (by rw [endRecord_table]),
        recordOf_updRecord (f := Change.closed .superseded u.air.beacon) (fun _ => rfl)] at h
      obtain ⟨y, hy, rfl⟩ := Option.map_eq_some_iff.mp h
      rw [if_neg (by rw [recordOf_serial hy]; exact hj q rfl), hy]

/-- The tag a change is admitted for is in doubt until the Call Planner is told (R69, step 6). -/
theorem appendRecord_filingBut {e : Entry} {campaign : Option CampaignIndex} {blocks : List (List Byte)}
    {superseded : Option Change} {s : State} (h : Good s) (ha : Admissible e campaign blocks superseded s) {new : Change}
    (hnew : ∀ r ∈ s.table.records, r.serial ≠ new.serial)
    (ho : Orderly (appendRecord e.addr new blocks (beforeAppend new superseded s))) :
    FilingBut e.addr (appendRecord e.addr new blocks (beforeAppend new superseded s)) := by
  obtain ⟨hbdir, hbplanner⟩ := beforeAppend_frame new superseded s
  set b := beforeAppend new superseded s with hb
  have hdir : (appendRecord e.addr new blocks b).dir.entries
      = s.dir.entries.map fun x => if x.addr = e.addr then { x with live := some new.serial } else x := by
    unfold appendRecord
    rw [(updCampaign_dir _ _ _).1, ← hbdir]
    rfl
  have hcal : (appendRecord e.addr new blocks b).planner.calendar = s.planner.calendar := by
    unfold appendRecord
    rw [(updCampaign_dir _ _ _).2.2.2.1, ← hbplanner]
    rfl
  have hrec : (appendRecord e.addr new blocks b).table.records = b.table.records ++ [new] := by
    unfold appendRecord
    rw [(updCampaign_dir _ _ _).2.2.1]
    rfl
  intro c y hy
  rw [hcal] at hy
  obtain ⟨d, hd, hda, hp, hh, hw⟩ := filingLaw_iff.mp h.filing c y hy
  refine ⟨⟨_, hdir ▸ List.mem_map_of_mem hd, ?_, ?_, ?_⟩, fun hne => ?_⟩
  · split <;> exact hda
  · split <;> exact hp
  · split <;> exact hh
  · have hmem : d ∈ (appendRecord e.addr new blocks b).dir.entries :=
      hdir ▸ List.mem_map.mpr ⟨d, hd, if_neg (hda ▸ hne)⟩
    refine ⟨d, hmem, hda, hp, hh, Eq.trans (hasWork_congr fun j hj => ?_) hw⟩
    obtain ⟨q, hq, hqa, _⟩ := h.orderly.liveRecord hd hj
    have hnewj : new.serial ≠ j := fun he => hnew q (recordOf_mem hq) ((recordOf_serial hq).trans he.symm)
    have hsup : ∀ x, superseded = some x → j ≠ x.serial := by
      rintro x rfl rfl
      obtain ⟨hel, hxr⟩ := liveRecord_eq_some ha.live
      obtain ⟨z, hz, hza, _⟩ := h.orderly.liveRecord ha.entry hel
      obtain rfl := Option.some.inj (hq.symm.trans hz)
      exact hne (hda.symm.trans (hqa.symm.trans hza))
    obtain ⟨r, hr, _⟩ := ho.liveRecord hmem hj
    have hbr : b.recordOf j = some r := by
      rw [← hr]
      unfold State.recordOf
      rw [hrec, List.find?_append, List.find?_cons_of_neg (by simpa using hnewj), List.find?_nil, Option.or_none]
    rw [hr, beforeAppend_back hsup hbr]

theorem admit_good {e : Entry} {campaign : Option CampaignIndex} {blocks : List (List Byte)}
    {superseded : Option Change} {s : State} (h : Good s) (ha : Admissible e campaign blocks superseded s) :
    Good (takeChange e (newChange s e campaign blocks superseded) blocks superseded s) := by
  have hrun := admit_run ha
  refine h.run hrun ?_
  have ho := hrun.orderly h.orderly
  obtain ⟨handler, htake, _⟩ := takeChange_eq e (newChange s e campaign blocks superseded) blocks superseded s
  rw [htake] at ho ⊢
  set new := newChange s e campaign blocks superseded with hnewdef
  obtain ⟨_, _, _, hsearch⟩ := findSerial_free e h.orderly.table.1 s.table.nextSerial
  obtain ⟨_, hfree, _⟩ := serialTaken_eq_false hsearch
  set v : State := { appendRecord e.addr new blocks (beforeAppend new superseded s) with handler := handler } with hv
  have hvo : Orderly v := by
    obtain ⟨_, hn⟩ := workNotice_planner e.addr v
    rw [hn] at ho
    exact ⟨ho.directory, ho.table, ho.live⟩
  have hvo' : Orderly (appendRecord e.addr new blocks (beforeAppend new superseded s)) :=
    ⟨hvo.directory, hvo.table, hvo.live⟩
  exact workNotice_filing hvo.directory ((appendRecord_filingBut h ha hfree hvo').congr rfl rfl rfl)

theorem admitFinal_good {e : Entry} {campaign : Option CampaignIndex} {img : FinalImage} {s : State} (h : Good s)
    (he : e ∈ s.dir.entries) (hopened : ∀ i, campaign = some i → (s.campaigns.get i).state = .opened)
    (hpage : img.bytes.length ≤ pageCapacity e.pageClass) : Good (admitFinal e campaign img s).2 := by
  unfold admitFinal
  dsimp only
  split
  · exact h
  · next superseded hok =>
    obtain ⟨hlive, hstates⟩ := liveChangeTest_ok hok
    split
    · exact h
    · next htable =>
      split
      · exact h
      · next hpool =>
        exact admit_good h ⟨he, hlive, hstates, hopened, few_blocks hpage, not_not.mp htable, not_not.mp hpool⟩

theorem actPostChange_good (payload : List Byte) {s : State} (h : Good s) : Good (actPostChange payload s).2 := by
  unfold actPostChange
  split
  · unfold postChange
    split
    · exact h
    · next e he =>
      split
      · exact h
      · split
        · exact h
        · next campaign _ hc =>
          split
          · exact h
          · split
            · exact h
            · next hpage =>
              refine admitFinal_good h (entryOf_mem he).1 (fun i hi => ?_) (not_lt.mp hpage)
              subst hi
              simpa using hc
  · exact h

/-! ### The beacon start and the cuts -/

theorem cutDelivery_good (i : CampaignIndex) (policy : LatePolicy) {r : Change} {s : State} (h : Good s)
    (hr : s.recordOf r.serial = some r) (hlive : r.state ≠ .finished) : Good (cutDelivery i policy r s) := by
  refine h.run (cutDelivery_run i policy hr hlive) ?_
  unfold cutDelivery
  dsimp only
  generalize hs1 : (if r.displaced.isSome then
    raiseFlag .staleCut (updCampaign (some i) (fun c => { c with staleCount := c.staleCount + 1 })
      (updRecord r.serial (fun r => { r with staleCut := true }) s)) else s) = s1
  have hmarked : Orderly s1 ∧ FilingLaw s1 ∧ ∃ q, s1.recordOf r.serial = some q ∧ q.state = r.state := by
    rw [← hs1]
    split
    · have hrun := updRecord_run (s0 := s) r.serial (fun r => { r with staleCut := true }) s
        fun q _ => ⟨rfl, rfl, rfl, rfl, rfl, rfl, id, .rfl⟩
      have hord := hrun.orderly h.orderly
      refine ⟨⟨hord.directory, hord.table, hord.live⟩,
        (updRecord_filing (f := fun r => { r with staleCut := true }) (fun _ => rfl) (fun _ _ => rfl) h.filing).congr rfl rfl rfl,
        { r with staleCut := true }, ?_, rfl⟩
      rw [← recordOf_updRecord_same (f := fun r => { r with staleCut := true }) (fun _ => rfl) hr]
      exact recordOf_congr rfl _
    · exact ⟨h.orderly, h.filing, r, hr, rfl⟩
  obtain ⟨hord, hfil, q, hq, hqs⟩ := hmarked
  split
  · exact (updRecord_filing (f := fun r => { r with late := true }) (fun _ => rfl) (fun _ _ => rfl) hfil).congr rfl rfl rfl
  · refine finish_law _ hord (fun x hx => ?_) hfil
    obtain rfl := Option.some.inj (hq.symm.trans hx)
    rwa [hqs]

theorem cutRecord_good (i : CampaignIndex) (policy : LatePolicy) (k : Serial) {s : State} (h : Good s) :
    Good (cutRecord i policy k s) := by
  refine h.run (cutRecord_run i policy k s) ?_
  unfold cutRecord
  split
  · exact h.filing
  · next r hr =>
    split
    · next hs => exact (cutDelivery_good i policy h (recordOf_self hr) (by simp [hs])).filing
    · next hs => exact (cutDelivery_good i policy h (recordOf_self hr) (by simp [hs])).filing
    · exact moveRecord_filing (fun _ => rfl) h.orderly h.filing
    · next hs =>
      refine finish_law _ h.orderly (fun q hq => ?_) h.filing
      obtain rfl := Option.some.inj (hr.symm.trans hq)
      simp [hs]
    · exact h.filing
    · exact h.filing

theorem cutCampaign_good (i : CampaignIndex) {s : State} (h : Good s) : Good (cutCampaign i s) := by
  refine h.run (cutCampaign_run i s) ?_
  unfold cutCampaign
  split
  · exact h.filing
  · next a _ =>
    have hfold : Good ((campaignSerials i s).foldl (fun s k => cutRecord i a.policy k s) s) :=
      foldl_good (fun _ k hs => cutRecord_good i a.policy k hs) _ h
    obtain ⟨hd, _, ht, hp, _⟩ := doneCheck_dir i (updCampaign (some i) (fun c => { c with state := .cut })
      ((campaignSerials i s).foldl (fun s k => cutRecord i a.policy k s) s))
    exact hfold.filing.congr (by rw [hd]; rfl) (by rw [ht]; rfl) (by rw [hp]; rfl)

theorem beaconStart_good {s : State} (h : Good s) : Good (beaconStart s) := by
  have hcuts {u : State} (hu : Good u) : Good (takeCuts u) := by
    have hfold : Good ((freeOrder 4 u.freeIndex (dueCuts u)).foldl (fun s i => cutCampaign i s) u) :=
      foldl_good (fun _ i hs => cutCampaign_good i hs) _ hu
    unfold takeCuts
    dsimp only
    split
    · exact hfold
    · exact hfold.same ⟨rfl, rfl, rfl, rfl, rfl, rfl, rfl⟩
  have hnext {u : State} (hu : Good u) : Good (nextBeacon u) := by
    unfold nextBeacon
    split
    · exact hu.same ⟨rfl, rfl, rfl, rfl, rfl, rfl, rfl⟩
    · next p _ =>
      split
      · refine hu.run (applyPreset_run p u) (filingLaw_iff.mpr fun c y hy => ?_)
        change y ∈ (u.planner.calendar.map fun l => l.map (refiled u (p - 1))).get c at hy
        rw [Quad.get_map] at hy
        obtain ⟨x, hx, rfl⟩ := List.mem_map.mp hy
        rw [refiled_addr]
        have hmap := mapEntries_filing (f := fun e => { e with boostEnd := none }) (fun _ => ⟨rfl, rfl, rfl, rfl, rfl, rfl⟩)
          hu.filing
        exact (filingLaw_iff.mp hmap c x hx).congr rfl rfl
      · exact hu.same ⟨rfl, rfl, rfl, rfl, rfl, rfl, rfl⟩
  exact hcuts (hnext (h.same ⟨rfl, rfl, rfl, rfl, rfl, rfl, rfl⟩))

/-! ### The instant -/

/-- Tags taken out of the calendar that may still be filed at cell `c`. -/
def MayFile (s : State) (c : Cell) (as : List Nat) : Prop := ∀ a ∈ as, Fileable s c a

theorem Fileable.debit {a b cost : Nat} {c : Cell} {s : State} (h : Fileable s c a) : Fileable (debit b cost s) c a := by
  have hmap : Fileable (updEntry b (fun e => { e with remaining := e.remaining - cost }) s) c a := by
    obtain ⟨d, hd, hda, hdp, hdh, hdw⟩ := h
    refine ⟨if d.addr = b then { d with remaining := d.remaining - cost } else d, List.mem_map_of_mem hd, ?_, ?_, ?_, ?_⟩
    · split <;> exact hda
    · split <;> exact hdp
    · split <;> exact hdh
    · split <;> exact hdw
  unfold Machine.debit
  dsimp only
  split
  · exact hmap
  · exact updRecord_fileable (f := fun r => { r with spent := min (r.spent + cost) 65535 }) (fun _ => rfl) (fun _ _ => rfl)
      hmap

theorem Fileable.commitCall {a : Nat} {c : Cell} {p : Snapshot} {s : State} (h : Fileable s c a) :
    Fileable (commitCall p s) c a := by
  have hcall := updRecord_fileable (k := p.serial) (f := fun r => { r with
      calls := min (r.calls + 1) 255
      state := if r.state = .queued then .sending else r.state }) (fun _ => rfl)
    (fun r _ => by dsimp only; split <;> simp [*, ChangeState.isWork]) (h.debit (b := p.addr) (cost := p.debit))
  unfold Machine.commitCall
  dsimp only
  split
  · exact hcall.congr rfl rfl
  · exact hcall

theorem commitCall_calendar (p : Snapshot) (s : State) : (commitCall p s).planner.calendar = s.planner.calendar := by
  have hdebit : (debit p.addr p.debit s).planner = s.planner := by
    unfold debit
    dsimp only
    split <;> rfl
  unfold commitCall
  dsimp only
  split
  · change (debit p.addr p.debit s).planner.calendar = _
    rw [hdebit]
  · change (debit p.addr p.debit s).planner.calendar = _
    rw [hdebit]

theorem fileTag_of_fileable {a : Nat} {c : Cell} {s : State} (hd : DirectoryLaw s) (h : FilingLaw s)
    (ha : Fileable s c a) : FilingLaw (fileTag a s) := by
  refine fileTag_filing h fun e he => ?_
  obtain ⟨d, hdm, hda, hp, _, hw⟩ := ha
  obtain ⟨hem, hea⟩ := entryAt_mem he
  obtain rfl := hd.eq_of_addr hdm hem (hda.trans hea.symm)
  exact ⟨hp, hw⟩

theorem fileTag_mayFile {as : List Nat} {c : Cell} {a : Nat} {s : State} (h : MayFile s c as) :
    MayFile (fileTag a s) c as := fun b hb => by
  obtain ⟨_, he⟩ := fileTag_planner a s
  rw [he]
  exact (h b hb).congr rfl rfl

theorem walk_filing (c : Cell) (b : Beacon) (m : Mode) (cap : Nat) (as : List Nat) (acc : List Snapshot × State)
    (h : Good acc.2) (hm : MayFile acc.2 c as) : Good (as.foldl (walkTag c b m cap) acc).2 := by
  induction as generalizing acc with
  | nil => exact h
  | cons a as ih =>
    have hrest : MayFile acc.2 c as := fun x hx => hm x (List.mem_cons_of_mem a hx)
    have ha : Fileable acc.2 c a := hm a List.mem_cons_self
    have hstep : FilingLaw (walkTag c b m cap acc a).2 ∧ MayFile (walkTag c b m cap acc a).2 c as := by
      unfold walkTag
      dsimp only
      split
      · exact ⟨h.filing, hrest⟩
      · split
        · exact ⟨fileTag_of_fileable h.orderly.directory h.filing ha, fileTag_mayFile hrest⟩
        · split
          · exact ⟨fileTag_of_fileable (s := raiseFlag .budgetShort acc.2) h.orderly.directory (h.filing.congr rfl rfl rfl)
              (ha.congr rfl rfl), fileTag_mayFile fun x hx => (hrest x hx).congr rfl rfl⟩
          · refine ⟨filingLaw_iff.mpr fun d y hy => (filingLaw_iff.mp h.filing d y ?_).commitCall,
              fun x hx => (hrest x hx).commitCall⟩
            rwa [commitCall_calendar] at hy
    exact ih _ (h.run (walkTag_run c b m cap acc a) hstep.1) hstep.2

theorem instant_good (c : Cell) (b : Beacon) (g : Geometry) {s : State} (h : Good s) : Good (instant c b g s) := by
  refine h.run (instant_run c b g s) ?_
  set s1 := (takeDue c b (beginInstant c b s)).2 with hs1
  have hsub : ∀ d, ∀ y ∈ s1.planner.calendar.get d, y ∈ s.planner.calendar.get d := by
    intro d y hy
    change y ∈ (s.planner.calendar.modify c fun l => l.filter fun x => !inBucket b x).get d at hy
    rw [Quad.get_modify] at hy
    split at hy
    · exact List.mem_of_mem_filter hy
    · exact hy
  have hgood : Good s1 := by
    refine ⟨⟨h.orderly.directory, h.orderly.table, h.orderly.live⟩, filingLaw_iff.mpr fun d y hy => ?_⟩
    exact (filingLaw_iff.mp h.filing d y (hsub d y hy)).congr rfl rfl
  have hdue : MayFile s1 c (takeDue c b (beginInstant c b s)).1 := by
    intro a ha
    obtain ⟨y, hy, rfl⟩ := List.mem_map.mp ha
    exact (filingLaw_iff.mp h.filing c y (List.mem_of_mem_filter hy)).congr rfl rfl
  have hlist : MayFile s1 c ((dueList s1 b (takeDue c b (beginInstant c b s)).1).map (·.addr)) := by
    intro a ha
    obtain ⟨x, hx, rfl⟩ := List.mem_map.mp ha
    rw [dueList, (sortBy_perm _ _).mem_iff] at hx
    obtain ⟨d, hd, hdx⟩ := List.mem_filterMap.mp hx
    obtain ⟨e, _, rfl⟩ := Option.map_eq_some_iff.mp hdx
    exact hdue d hd
  have hfiled (as : List Nat) (u : State) (hu : Good u) (hm : MayFile u c as) :
      Good (as.foldl (fun s a => fileTag a s) u) := by
    induction as generalizing u with
    | nil => exact hu
    | cons a as ih =>
      exact ih _ (hu.run (fileTag_run a u) (fileTag_of_fileable hu.orderly.directory hu.filing (hm a List.mem_cons_self)))
        (fileTag_mayFile fun x hx => hm x (List.mem_cons_of_mem a hx))
  have hopen (called : List Snapshot) (u : State) (hu : FilingLaw u) : FilingLaw (openWindow c b called u) := by
    unfold openWindow takeGrant
    dsimp only
    split <;> exact hu.congr rfl rfl rfl
  unfold instant
  dsimp only
  rw [← hs1]
  generalize hr : (if s1.capacity g c = 0 then (([] : List Snapshot),
      (takeDue c b (beginInstant c b s)).1.foldl (fun s a => fileTag a s) s1)
    else ((dueList s1 b (takeDue c b (beginInstant c b s)).1).map (·.addr)).foldl
      (walkTag c b s1.store.mode (s1.capacity g c)) ([], s1)) = r
  have hwalk : FilingLaw r.2 := by
    rw [← hr]
    split
    · exact (hfiled _ s1 hgood hdue).filing
    · exact (walk_filing c b _ _ _ ([], s1) hgood hlist).filing
  split
  · exact hopen _ _ hwalk
  · exact hwalk

/-! ### Joins -/

/-- The entry at `a` is PRESENT at home cell `c`. -/
def At (c : Cell) (a : Nat) (s : State) : Prop :=
  ∀ e ∈ s.dir.entries, e.addr = a → e.state = .present ∧ e.home = some c

theorem moveBoost_planner (c : Cell) (a : Nat) (s : State) :
    (moveBoost c a s).dir = s.dir ∧ (moveBoost c a s).table = s.table
      ∧ (moveBoost c a s).planner.calendar = s.planner.calendar := by
  unfold moveBoost
  split
  · exact ⟨rfl, rfl, rfl⟩
  · split
    · exact ⟨rfl, rfl, rfl⟩
    · split <;> exact ⟨rfl, rfl, rfl⟩

/-- A join makes its tag PRESENT at the cell, and may leave its filing for the join's own (R35 to R37). -/
theorem joinState_filing (c : Cell) {e : Entry} {s : State} (hd : DirectoryLaw s) (he : e ∈ s.dir.entries)
    (h : FilingOff e.addr s) : FilingOff e.addr (joinState c e s) ∧ At c e.addr (joinState c e s) := by
  have hentry : ∀ x ∈ s.dir.entries, x.addr = e.addr → x = e := fun x hx ha => hd.eq_of_addr hx he ha
  have hupd (f : Entry → Entry) (hf : (f e).state = .present ∧ (f e).home = some c) :
      At c e.addr (updEntry e.addr f s) := by
    intro x hx hxa
    obtain ⟨y, hy, rfl⟩ := List.mem_map.mp hx
    by_cases hya : y.addr = e.addr
    · rw [if_pos hya, hentry y hy hya]
      exact hf
    · rw [if_neg hya] at hxa
      exact absurd hxa hya
  unfold joinState
  split
  · exact ⟨updEntry_filingOff h, hupd _ ⟨rfl, rfl⟩⟩
  · exact ⟨updEntry_filingOff h, hupd _ ⟨rfl, rfl⟩⟩
  · next hp =>
    split
    · next hh => exact ⟨h, fun x hx hxa => hentry x hx hxa ▸ ⟨hp, hh⟩⟩
    · have hmoved := moveBoost_planner c e.addr (dropCalendar e.addr
        (updEntry e.addr (fun e => { e with home := some c, link := none }) s))
      obtain ⟨hmd, hmt, hmc⟩ := hmoved
      have hat := hupd (fun e => { e with home := some c, link := none }) ⟨hp, rfl⟩
      refine ⟨?_, ?_⟩
      · exact ((dropCalendar_filing (updEntry_filingOff h)).off _).congr (by rw [hmd]) (by rw [hmt]) hmc
      · unfold At
        rw [hmd]
        exact hat

theorem acceptJoin_filing (c : Cell) (j : Join) {e : Entry} {s : State} (hd : DirectoryLaw s) (he : e ∈ s.dir.entries)
    (h : FilingLaw s) : FilingLaw (acceptJoin c j e s) := by
  obtain ⟨hoff, hat⟩ := joinState_filing c hd he (h.off e.addr)
  have hmem : ∃ x ∈ (joinState c e s).dir.entries, x.addr = e.addr := by
    unfold joinState
    have hmap (f : Entry → Entry) (hf : ∀ x, (f x).addr = x.addr) : ∃ x ∈ (updEntry e.addr f s).dir.entries, x.addr = e.addr :=
      ⟨_, List.mem_map_of_mem he, by rw [if_pos rfl, hf]⟩
    split
    · exact hmap _ fun _ => rfl
    · exact hmap _ fun _ => rfl
    · split
      · exact ⟨e, he, rfl⟩
      · rw [(moveBoost_planner _ _ _).1]
        exact hmap _ fun _ => rfl
  set u := queueGrant c e (updEntry e.addr (Entry.afterJoin j) (joinState c e s)) with hu
  have huoff : FilingOff e.addr u := (updEntry_filingOff (f := Entry.afterJoin j) hoff).congr rfl rfl rfl
  have huat : At c e.addr u := by
    intro x hx hxa
    obtain ⟨y, hy, rfl⟩ := List.mem_map.mp hx
    by_cases hya : y.addr = e.addr
    · rw [if_pos hya]
      exact hat y hy hya
    · rw [if_neg hya] at hxa
      exact absurd hxa hya
  obtain ⟨x, hx, hxa⟩ := hmem
  have hfound : (u.entryAt e.addr).isSome := by
    rw [State.entryAt, List.find?_isSome]
    exact ⟨_, List.mem_map_of_mem hx, by rw [if_pos hxa]; exact decide_eq_true hxa⟩
  change FilingLaw (joinFiling c e.addr u)
  unfold joinFiling
  obtain ⟨d, hde⟩ := Option.isSome_iff_exists.mp hfound
  obtain ⟨hdm, hda⟩ := entryAt_mem hde
  obtain ⟨hp, hh⟩ := huat d hdm hda
  rw [hde]
  dsimp only
  split
  · next hw => exact placeCalendar_filing huoff ⟨d, hdm, hda, hp, hh, hw⟩
  · exact dropCalendar_filing huoff

theorem joinSlotEnd_good (c : Cell) (heard : JoinHeard) {s : State} (h : Good s) : Good (joinSlotEnd c heard s) := by
  refine h.run (joinSlotEnd_run c heard s) ?_
  unfold joinSlotEnd
  split
  · exact h.filing
  · next w _ =>
    split
    · have hscreen (j : Join) : FilingLaw (screenJoin c w.beacon j s) := by
        unfold screenJoin
        split
        · exact h.filing
        · split
          · unfold recordStranger
            split
            · exact h.filing.congr rfl rfl rfl
            · exact h.filing.congr rfl rfl rfl
          · split
            · exact h.filing
            · split
              · exact h.filing
              · split
                · exact h.filing
                · next e he => exact acceptJoin_filing c j h.orderly.directory (entryOf_mem he).1 h.filing
      cases heardJoin heard with
      | none => exact h.filing.congr rfl rfl rfl
      | some j => exact (hscreen j).congr rfl rfl rfl
    · exact h.filing

/-! ### Resets and the line -/

theorem startUp_good (stored : StoredBlock) (heads : Quad Bool) (n : Nat) (pending : List Instr) {s : State}
    (h : Good s) : Good (startUp stored heads n pending) := by
  refine h.run (startUp_run stored heads n pending s) (filingLaw_iff.mpr fun c y hy => ?_)
  fin_cases c <;> cases hy

/-- The tag at `a`, where one is held there, is PRESENT and has work. -/
def Workable (a : Nat) (s : State) : Prop := ∀ e, s.entryAt a = some e → e.state = .present ∧ s.hasWork e = true

theorem Workable.fileTag {a b : Nat} {s : State} (h : Workable a s) : Workable a (fileTag b s) := by
  obtain ⟨_, hf⟩ := fileTag_planner b s
  rw [hf]
  intro e he
  obtain ⟨hp, hw⟩ := h e he
  exact ⟨hp, hw⟩

theorem fileAll_filing (as : List Nat) {s : State} (h : FilingLaw s) (hw : ∀ a ∈ as, Workable a s) :
    FilingLaw (as.foldl (fun s a => fileTag a s) s) := by
  induction as generalizing s with
  | nil => exact h
  | cons a as ih =>
    exact ih (fileTag_filing h (hw a List.mem_cons_self)) fun b hb => (hw b (List.mem_cons_of_mem a hb)).fileTag

theorem actWarm_good {s : State} (h : Good s) : Good (actWarm s) := by
  refine h.run (actWarm_run s) (fileAll_filing _ (filingLaw_iff.mpr fun c y hy => ?_) fun a ha e he => ?_)
  · fin_cases c <;> cases hy
  · obtain ⟨d, hd, rfl⟩ := List.mem_map.mp ha
    obtain ⟨hd, hfiled⟩ := List.mem_filter.mp hd
    obtain ⟨hem, hea⟩ := entryAt_mem he
    obtain ⟨x, hx, rfl⟩ := List.mem_map.mp hem
    obtain rfl := h.orderly.directory.eq_of_addr hx hd hea
    simp only [Entry.filedAtWarm, Bool.and_eq_true, decide_eq_true_eq, Bool.or_eq_true] at hfiled
    obtain ⟨hp, hw⟩ := hfiled
    exact ⟨hp, (hasWork_iff _ _).mpr (hw.imp_right .inl)⟩

theorem actKind_good (k : ResetKind) {s : State} (h : Good s) : Good (actKind k s) := by
  cases k with
  | cold =>
    exact (startUp_good s.store.stored s.cells.heads s.freeIndex s.pending h).same ⟨rfl, rfl, rfl, rfl, rfl, rfl, rfl⟩
  | warm => exact actWarm_good h

theorem resetActs_good {s : State} (h : Good s) : Good (resetActs s) := by
  unfold resetActs
  split
  · obtain ⟨l, hl⟩ := sendThrough_line isResetReply s
    rw [hl]
    exact actKind_good _ (h.same (line_work l s))
  · exact h

theorem lineBreak_good {s : State} (h : Good s) : Good (lineBreak s) := by
  have hbreak : Good (breakLine (if s.line.rx = .hunt then s else dropFrame s)) := by
    split <;> exact h.same ⟨rfl, rfl, rfl, rfl, rfl, rfl, rfl⟩
  unfold lineBreak
  dsimp only
  split
  · exact actKind_good _ hbreak
  · exact hbreak

/-! ### Campaigns -/

theorem actOpenCampaign_campaigns (payload : List Byte) (u : State) :
    ∃ q, (actOpenCampaign payload u).2 = { u with campaigns := q } := by
  unfold actOpenCampaign
  dsimp only
  split
  · exact ⟨u.campaigns, rfl⟩
  · split
    · exact ⟨u.campaigns, rfl⟩
    · split
      · exact ⟨u.campaigns, rfl⟩
      · split
        · exact ⟨u.campaigns, rfl⟩
        · split
          · exact ⟨u.campaigns, rfl⟩
          · split
            · exact ⟨u.campaigns, rfl⟩
            · exact ⟨_, rfl⟩

theorem actReleaseCampaign_campaigns (payload : List Byte) (u : State) :
    ∃ q n, (actReleaseCampaign payload u).2 = { u with campaigns := q, handler.notices := n } := by
  unfold actReleaseCampaign
  split
  · exact ⟨u.campaigns, u.handler.notices, rfl⟩
  · dsimp only
    split
    · exact ⟨_, _, rfl⟩
    · exact ⟨u.campaigns, u.handler.notices, rfl⟩

/-! ### Commands -/

theorem request_good (kind num : Byte) (payload : List Byte) {act : State → Answer}
    (hact : ∀ u, Good u → Good (act u).2) {s : State} (h : Good s) : Good (request kind num payload act s) := by
  have htake {u : State} (hu : Good u) : Good (takeAndAnswer kind num act u) := by
    unfold takeAndAnswer
    split
    · have ha := hact (takeHead u) (hu.same ⟨rfl, rfl, rfl, rfl, rfl, rfl, rfl⟩)
      unfold answerWith
      split
      · exact ha
      · exact ha.same (placeFrame_work _ _)
    · exact hu
  unfold request
  split
  · split
    · split
      · exact htake h
      · exact h.same (offerFrame_work _ s)
    · exact htake (h.same (offerFrame_work _ s))
  · exact h

theorem ofLength_good (n : Nat) (payload : List Byte) {act : State → Answer} (hact : ∀ u, Good u → Good (act u).2)
    (u : State) (h : Good u) : Good (ofLength n payload act u).2 := by
  unfold ofLength
  split
  · exact hact u h
  · exact h

theorem event_good {act : State → State} (hact : ∀ u, Good u → Good (act u)) {s : State} (h : Good s) :
    Good (event act s) := by
  unfold event
  split
  · exact hact s h
  · exact h

theorem cellBeaconInstant_good (c : Cell) (order : InstantOrder) {u : State} (h : Good u) :
    Good (match instantPlace u c order with
      | none => u
      | some (b, g) => if u.instantOpen c b then instant c b g u else u) := by
  split
  · exact h
  · split
    · exact instant_good _ _ _ h
    · exact h

theorem exec_good (c : Instr) {s : State} (h : Good s) : ∃ t, exec c s = .next t ∧ Good t := by
  by_cases hc : doesNoWork c = true
  · obtain ⟨t, ht, hw⟩ := exec_work hc s
    exact ⟨t, ht, h.same hw⟩
  cases c
  case powerOn heads => exact ⟨_, rfl, startUp_good _ _ _ _ h⟩
  case resetActs => exact ⟨_, rfl, event_good (fun _ => resetActs_good) h⟩
  case enrol num p => exact ⟨_, rfl, request_good _ _ _ (ofLength_good _ _ fun _ => actEnrol_good p) h⟩
  case remove num p => exact ⟨_, rfl, request_good _ _ _ (ofLength_good _ _ fun _ => actRemove_good p) h⟩
  case setWakeTag num p =>
    refine ⟨_, rfl, ?_⟩
    split
    · exact h
    · refine request_good _ _ _ (ofLength_good _ _ fun u hu => ?_) h
      split
      · exact actSetWakeTag_good p hu
      · exact hu
  case setWakeZone num p =>
    refine ⟨_, rfl, ?_⟩
    split
    · exact h
    · refine request_good _ _ _ (ofLength_good _ _ fun u hu => ?_) h
      split
      · exact actSetWakeZone_good p hu
      · exact hu
  case setAllowance num p => exact ⟨_, rfl, request_good _ _ _ (ofLength_good _ _ fun _ => actSetAllowance_good p) h⟩
  case locate num p => exact ⟨_, rfl, request_good _ _ _ (ofLength_good _ _ fun _ => actLocate_good p) h⟩
  case listStrangers num p =>
    refine ⟨_, rfl, request_good _ _ _ (ofLength_good _ _ fun u hu => ?_) h⟩
    exact hu.run (Act.strangers _ fun _ => ⟨by simp, by simp⟩).run (hu.filing.congr rfl rfl rfl)
  case refreshBudgets num p => exact ⟨_, rfl, request_good _ _ _ (ofLength_good _ _ fun _ => refresh_good) h⟩
  case openCampaign num p =>
    refine ⟨_, rfl, request_good _ _ _ (ofLength_good _ _ fun u hu => hu.run (actOpenCampaign_run p u) ?_) h⟩
    obtain ⟨q, hq⟩ := actOpenCampaign_campaigns p u
    rw [hq]
    exact hu.filing.congr rfl rfl rfl
  case releaseCampaign num p =>
    refine ⟨_, rfl, request_good _ _ _ (ofLength_good _ _ fun u hu => hu.run (actReleaseCampaign_run p u) ?_) h⟩
    obtain ⟨q, n, hq⟩ := actReleaseCampaign_campaigns p u
    rw [hq]
    exact hu.filing.congr rfl rfl rfl
  case postChange num p => exact ⟨_, rfl, request_good _ _ _ (fun _ => actPostChange_good p) h⟩
  case cancelChange num p => exact ⟨_, rfl, request_good _ _ _ (ofLength_good _ _ fun _ => actCancelChange_good p) h⟩
  case fetchOutcomes num p => exact ⟨_, rfl, request_good _ _ _ (ofLength_good _ _ fun _ => actFetchOutcomes_good) h⟩
  case lineBreak => exact ⟨_, rfl, event_good (fun _ => lineBreak_good) h⟩
  case headLost c => exact ⟨_, rfl, event_good (fun _ => headLost_good c) h⟩
  case beaconStart => exact ⟨_, rfl, event_good (fun _ => beaconStart_good) h⟩
  case refreshCrossing =>
    refine ⟨_, rfl, event_good (fun u hu => ?_) h⟩
    unfold refreshCrossing
    split
    · exact refresh_good hu
    · exact hu
  case cellBeaconInstant c order => exact ⟨_, rfl, event_good (fun _ => cellBeaconInstant_good c order) h⟩
  case slotEnd c received level => exact ⟨_, rfl, event_good (fun _ => slotEnd_good c received level) h⟩
  case joinSlotEnd c heard => exact ⟨_, rfl, event_good (fun _ => joinSlotEnd_good c heard) h⟩
  all_goals exact absurd rfl hc

theorem step_good {s t : State} (h : Good s) (hstep : step s = .next t) : Good t := by
  unfold step at hstep
  split at hstep
  · next c rest _ =>
    obtain ⟨u, hu, hgood⟩ := exec_good c (h.same (t := { s with pending := rest }) ⟨rfl, rfl, rfl, rfl, rfl, rfl, rfl⟩)
    rw [hu] at hstep
    cases hstep
    exact hgood
  · cases hstep
    exact h.same (idle_work s)

/-! ### One filing -/

/-- No tag is filed twice, nor on the boost lists twice. -/
structure OneEach (s : State) : Prop where
  calendar : Distinct (·.addr) s.planner.calendar
  boosts   : Distinct (·.addr) s.planner.boosts

theorem Act.oneEach {s0 u v : State} (h : Act s0 u v) (hu : OneEach u) : OneEach v := by
  have same {v : State} (hc : v.planner.calendar = u.planner.calendar) (hb : v.planner.boosts = u.planner.boosts) :
      OneEach v := ⟨hc ▸ hu.calendar, hb ▸ hu.boosts⟩
  cases h with
  | frame h => exact same h.calendar h.boosts
  | calendar q h => exact { hu with calendar := h hu.calendar }
  | boosts q hd hb => exact { hu with boosts := hd hu.boosts }
  | ends k code r a => exact same (by rw [clearLive_planner, endRecord_planner]) (by rw [clearLive_planner, endRecord_planner])
  | append a new blocks ha =>
    unfold appendRecord
    have hplanner := (updCampaign_dir new.campaign (fun c => { c with admitted := c.admitted + 1, live := c.live + 1 })
      (updEntry a (fun e => { e with live := some new.serial })
        { u with table.records := u.table.records ++ [new], pool := u.pool.take new.serial blocks })).2.2.2.1
    exact same (by rw [hplanner]; rfl) (by rw [hplanner]; rfl)
  | pass => exact same (by rw [(passHead_frame u).2.2.2.1]) (by rw [(passHead_frame u).2.2.2.1])
  | done i => exact same (by rw [(doneCheck_dir i u).2.2.2.1]) (by rw [(doneCheck_dir i u).2.2.2.1])
  | clear _ _ _ _ _ _ _ calendar boosts =>
    refine ⟨?_, ?_⟩
    · rw [calendar]; exact List.nodup_nil
    · rw [boosts]; exact List.nodup_nil
  | edit => exact same rfl rfl
  | enrol => exact same rfl rfl
  | delete => exact same rfl rfl
  | grants => exact same rfl rfl
  | strangers => exact same rfl rfl
  | touch => exact same rfl rfl
  | fetch => exact same rfl rfl
  | count => exact same rfl rfl
  | opens => exact same rfl rfl
  | release => exact same rfl rfl

/-- Settles O57: at most one filing act by act, and the filing law command by command, each looking at its tag's work again when
it has changed. -/
theorem oneFilingKept : Obligations.OneFilingKept := by
  intro s t hone hstep
  have heach := (step_run hstep).keeps (fun _ _ => Act.oneEach) ⟨hone.1, hone.2⟩
  exact ⟨⟨heach.calendar, heach.boosts⟩, fun hd ht hl hf => (step_good ⟨⟨hd, ht, hl⟩, hf⟩ hstep).filing⟩

end Sys2Proof.Machine
end

section
/-! Reading the fields of a payload back at their offsets (R185), whatever stands before and behind them. -/

namespace Sys2Proof.Machine

theorem leNat_le_mod (n v : Nat) : leNat (le n v) = v % 256 ^ n := by
  induction n generalizing v with
  | zero => simp [le, leNat, Nat.mod_one]
  | succ n ih =>
    simp only [le, leNat, ih, BitVec.toNat_ofNat]
    calc v % 2 ^ 8 + 256 * (v / 256 % 256 ^ n)
      _ = v % (256 * 256 ^ n) := Nat.mod_mul.symm
      _ = v % 256 ^ (n + 1) := by rw [pow_succ']

/-- A field behind some bytes is read in what follows them. -/
theorem field_append_skip {off : Nat} (len : Nat) {as : List Byte} (bs : List Byte) (h : as.length ≤ off) :
    field off len (as ++ bs) = field (off - as.length) len bs := by
  unfold field
  rw [List.drop_append, List.drop_of_length_le h, List.nil_append]

/-- A field that ends within some bytes is read there. -/
theorem field_append_within {off len : Nat} {as : List Byte} (bs : List Byte) (h : off + len ≤ as.length) :
    field off len (as ++ bs) = field off len as := by
  unfold field
  rw [List.drop_append_of_le_length (by omega), List.take_append_of_le_length (by rw [List.length_drop]; omega)]

theorem field_cons_skip {off : Nat} (len : Nat) (b : Byte) (bs : List Byte) (h : 1 ≤ off) :
    field off len (b :: bs) = field (off - 1) len bs := by
  obtain ⟨off, rfl⟩ := Nat.exists_eq_add_of_le' h
  rfl

@[simp] theorem field_head (b : Byte) (bs : List Byte) : field 0 1 (b :: bs) = b.toNat := by
  simp [field, leNat]

theorem field_all (bs : List Byte) : field 0 bs.length bs = leNat bs := by
  simp [field]

/-- A number written at the front is read there, modulo the room it has. -/
@[simp] theorem field_le_front (n v : Nat) (bs : List Byte) : field 0 n (le n v ++ bs) = v % 256 ^ n := by
  rw [field_append_within bs (by simp), ← leNat_le_mod]
  simpa using field_all (le n v)

@[simp] theorem field_le_alone (n v : Nat) : field 0 n (le n v) = v % 256 ^ n := by
  simpa using field_le_front n v []

theorem field_le_skip {off n : Nat} (len v : Nat) (bs : List Byte) (h : n ≤ off) :
    field off len (le n v ++ bs) = field (off - n) len bs := by
  rw [field_append_skip len bs (by simpa using h), le_length]

theorem field_optField_skip {off n : Nat} (len : Nat) (v : Option Nat) (bs : List Byte) (h : n + 1 ≤ off) :
    field off len (optField n v ++ bs) = field (off - (n + 1)) len bs := by
  rw [field_append_skip len bs (by simpa using h), optField_length]

@[simp] theorem boolByte_toNat (b : Bool) : (boolByte b).toNat = if b then 1 else 0 := by cases b <;> rfl

/-- An optional field is read back after what precedes it (R185). -/
theorem optionalAt_optField (n : Nat) (v : Option Nat) (bs : List Byte) : optionalAt 0 n v (optField n v ++ bs) := by
  unfold optionalAt
  cases v with
  | none => simp [optField, field_cons_skip]
  | some v => simp [optField, field_cons_skip]

theorem optionalAt_le_skip {off m n : Nat} {v : Option Nat} (x : Nat) {bs : List Byte} (h : m ≤ off) :
    optionalAt off n v (le m x ++ bs) ↔ optionalAt (off - m) n v bs := by
  unfold optionalAt
  rw [field_le_skip 1 x bs h, field_le_skip n x bs (by omega), Nat.sub_add_comm h]

theorem optionalAt_optField_skip {off m n : Nat} {v : Option Nat} (x : Option Nat) {bs : List Byte} (h : m + 1 ≤ off) :
    optionalAt off n v (optField m x ++ bs) ↔ optionalAt (off - (m + 1)) n v bs := by
  unfold optionalAt
  rw [field_optField_skip 1 x bs h, field_optField_skip n x bs (by omega), Nat.sub_add_comm h]

theorem optionalAt_cons_skip {off n : Nat} {v : Option Nat} (b : Byte) {bs : List Byte} (h : 1 ≤ off) :
    optionalAt off n v (b :: bs) ↔ optionalAt (off - 1) n v bs := by
  unfold optionalAt
  rw [field_cons_skip 1 b bs h, field_cons_skip n b bs (by omega), Nat.sub_add_comm h]

/-- Bit `c` of a cell set is cell `c`'s (R185). -/
theorem cellSet_testBit (q : Quad Bool) (c : Cell) : (cellSet q).toNat.testBit c.val = q.get c := by
  obtain ⟨a, b, d, e⟩ := q
  cases a <;> cases b <;> cases d <;> cases e <;> fin_cases c <;> rfl

end Sys2Proof.Machine
end

section
/-! Requests: what a bad request is answered, and what every request row has in common (R169). -/

namespace Sys2Proof.Machine

/-- Settles O1: with a command in front the step is `exec` by definition. -/
theorem stepRunsFrontCommand : Obligations.StepRunsFrontCommand := fun _ _ _ => rfl

/-- Settles O22: each invariant is read off the empty part. -/
theorem resetMeetsInvariants : Obligations.ResetMeetsInvariants where
  charge := fun e he => nomatch he
  directory := ⟨.nil, fun e he => (nomatch he), .nil⟩
  queues := by unfold QueueBounds; decide
  pool := rfl
  holding := .refl _
  filing := ⟨.nil, .nil⟩
  calendar := by unfold FilingLaw; decide
  table := ⟨by decide, .nil, fun r hr => (nomatch hr)⟩
  live := ⟨fun e he => (nomatch he), fun r hr => (nomatch hr)⟩
  campaigns := by unfold CampaignLaw; decide
  counts := by unfold LiveCountLaw; decide
  settings := ⟨defaults_legal, by decide, by decide⟩
  site := fun _ => rfl

/-! ### Request rows -/

/-- What a request row's block answers. -/
def requestAct : Instr → State → Answer
  | .status _ p => ofLength 0 p fun s => okWith (statusPayload s) s
  | .setClock _ p => ofLength 4 p (actSetClock p)
  | .setBeacon _ p => ofLength 3 p (actSetBeacon p)
  | .setMode _ p => ofLength 1 p (actSetMode p)
  | .configSet _ p => actConfigSet p
  | .configGet _ p => ofLength 0 p fun s =>
      okWith (s.store.working.itemBytes ++ [boolByte s.store.unsaved, boolByte s.store.defaultsUsed]) s
  | .saveSettings num p => ofLength 0 p fun s => (none, { s with handler.task := .saving num s.store.working })
  | .resetCold _ p | .resetWarm _ p => ofLength 1 p (actReset p)
  | .setLine _ p => ofLength 4 p (actSetLine p)
  | .setNotices _ p => ofLength 3 p (actSetNotices p)
  | .clearEvents _ p => ofLength 2 p (actClearEvents p)
  | .enrol _ p => ofLength 9 p (actEnrol p)
  | .remove _ p => ofLength 4 p (actRemove p)
  | .setWakeTag _ p => ofLength 6 p fun s => if p.head? = some 0 then actSetWakeTag p s else refuse .badValue s
  | .setWakeZone _ p => ofLength 6 p fun s => if p.head? = some 1 then actSetWakeZone p s else refuse .badValue s
  | .setAllowance _ p => ofLength 6 p (actSetAllowance p)
  | .locate _ p => ofLength 4 p (actLocate p)
  | .queryTag _ p => ofLength 4 p fun s =>
      match s.entryOf (BitVec.ofNat 32 (leNat p)) with
      | none => refuse .noSuchTag s
      | some e => okWith (tagPayload s e) s
  | .listStrangers _ p => ofLength 0 p fun s =>
      okWith (le 1 s.dir.strangers.length ++ s.dir.strangers.flatMap strangerBytes) { s with dir.strangers := [] }
  | .refreshBudgets _ p => ofLength 0 p fun s =>
      okWith (le 2 (refreshCounts s).1 ++ le 2 (refreshCounts s).2.1 ++ le 2 (refreshCounts s).2.2) (refresh s)
  | .openCampaign _ p => ofLength 6 p (actOpenCampaign p)
  | .queryCampaign _ p => ofLength 1 p fun s =>
      match campaignIndex (leNat p) with
      | none => refuse .noSuchCampaign s
      | some i => okWith (campaignPayload s i) s
  | .releaseCampaign _ p => ofLength 1 p (actReleaseCampaign p)
  | .postChange _ p => actPostChange p
  | .cancelChange _ p => ofLength 2 p (actCancelChange p)
  | .queryChange _ p => ofLength 2 p fun s =>
      match s.recordOf (BitVec.ofNat 16 (leNat p)) with
      | none => refuse .noSuchChange s
      | some r => okWith (changePayload s r) s
  | .fetchOutcomes _ p => ofLength 0 p actFetchOutcomes
  | .unknownKind _ _ _ => refuse .unknownKind
  | _ => fun s => (none, s)

/-- A row is the one its own payload names: the second of two rows of a kind stands for the payloads that name it, and
UNKNOWN_KIND for no kind of the catalogue (log entries 4 and 21). -/
def ownRow : Instr → Bool
  | .resetCold _ p => !namesReset 2 p
  | .resetWarm _ p => !namesReset 1 p
  | .setWakeTag _ p => !namesWakeForm 1 p
  | .setWakeZone _ p => !namesWakeForm 0 p
  | .unknownKind kind _ _ => !knownKind kind
  | _ => true

theorem ownRow_of_wellFormed {i : Instr} (h : i.wellFormed = true) : ownRow i = true := by
  cases i
  case resetCold | resetWarm | setWakeTag | setWakeZone | unknownKind => exact (Bool.and_eq_true _ _ ▸ h).2
  all_goals rfl

/-- A request row is a request with its block's answer. -/
theorem exec_request {i : Instr} {f : Frame} (h : requestOf i = some f) (own : ownRow i = true) (s : State) :
    exec i s = .next (request f.kind f.num f.payload (requestAct i) s) := by
  cases i
  case resetCold | resetWarm | setWakeTag | setWakeZone | unknownKind =>
    cases h
    exact congrArg _ (if_neg (by simpa [ownRow] using own))
  all_goals first | cases h; rfl | cases h

/-- A kind of the catalogue is one of its 26. -/
theorem knownKind_cases {kind : Byte} (h : knownKind kind = true) :
    kind ∈ [0x01, 0x02, 0x03, 0x04, 0x05, 0x06, 0x07, 0x08, 0x09, 0x0A, 0x0B, 0x0C, 0x0D, 0x0E, 0x0F, 0x10, 0x11, 0x12,
      0x13, 0x14, 0x15, 0x16, 0x17, 0x18, 0x19, (0x1A : Byte)] := by
  obtain ⟨n, hn⟩ : ∃ n, kind = BitVec.ofNat 8 n ∧ n < 256 := ⟨kind.toNat, by simp, kind.isLt⟩
  obtain ⟨rfl, hn⟩ := hn
  simp only [knownKind, BitVec.toNat_ofNat, Nat.mod_eq_of_lt hn, Bool.and_eq_true, decide_eq_true_eq] at h
  obtain ⟨hlo, hhi⟩ := h
  interval_cases n <;> decide

/-- RESET and SET-WAKE come in two rows each, told apart by what the payload names (log entry 21). -/
theorem resetRow (num : Byte) (payload : List Byte) :
    namesReset 2 payload = true ∧ commandOf 0x08 num payload = .resetWarm num payload
      ∨ namesReset 2 payload = false ∧ commandOf 0x08 num payload = .resetCold num payload := by
  cases h : namesReset 2 payload with
  | true => exact .inl ⟨rfl, if_pos h⟩
  | false => exact .inr ⟨rfl, if_neg (ne_true_of_eq_false h)⟩

theorem setWakeRow (num : Byte) (payload : List Byte) :
    namesWakeForm 1 payload = true ∧ commandOf 0x0E num payload = .setWakeZone num payload
      ∨ namesWakeForm 1 payload = false ∧ commandOf 0x0E num payload = .setWakeTag num payload := by
  cases h : namesWakeForm 1 payload with
  | true => exact .inl ⟨rfl, if_pos h⟩
  | false => exact .inr ⟨rfl, if_neg (ne_true_of_eq_false h)⟩

theorem commandOf_unknown {kind : Byte} (h : knownKind kind = false) (num : Byte) (payload : List Byte) :
    commandOf kind num payload = .unknownKind kind num payload := by
  have other : ∀ k : Byte, knownKind k = true → kind ≠ k := fun k hk e => by rw [e, hk] at h; cases h
  unfold commandOf
  rw [if_neg (other 0x01 rfl), if_neg (other 0x02 rfl), if_neg (other 0x03 rfl), if_neg (other 0x04 rfl),
    if_neg (other 0x05 rfl), if_neg (other 0x06 rfl), if_neg (other 0x07 rfl), if_neg (other 0x08 rfl),
    if_neg (other 0x09 rfl), if_neg (other 0x0A rfl), if_neg (other 0x0B rfl), if_neg (other 0x0C rfl),
    if_neg (other 0x0D rfl), if_neg (other 0x0E rfl), if_neg (other 0x0F rfl), if_neg (other 0x10 rfl),
    if_neg (other 0x11 rfl), if_neg (other 0x12 rfl), if_neg (other 0x13 rfl), if_neg (other 0x14 rfl),
    if_neg (other 0x15 rfl), if_neg (other 0x16 rfl), if_neg (other 0x17 rfl), if_neg (other 0x18 rfl),
    if_neg (other 0x19 rfl), if_neg (other 0x1A rfl)]

/-- The command of a frame is the request row that carries it. -/
theorem commandOf_row (kind num : Byte) (payload : List Byte) :
    requestOf (commandOf kind num payload) = some (requestFrame kind num payload)
      ∧ ownRow (commandOf kind num payload) = true := by
  cases h : knownKind kind with
  | false =>
    rw [commandOf_unknown h]
    exact ⟨rfl, by simp [ownRow, h]⟩
  | true =>
    have hk := knownKind_cases h
    simp only [List.mem_cons, List.not_mem_nil, or_false] at hk
    rcases hk with rfl | rfl | rfl | rfl | rfl | rfl | rfl | reset | rfl | rfl | rfl | rfl | rfl | wake | rfl | rfl | rfl
      | rfl | rfl | rfl | rfl | rfl | rfl | rfl | rfl | rfl
    case inr.inr.inr.inr.inr.inr.inr.inl =>
      rw [reset]
      obtain ⟨hp, hc⟩ | ⟨hp, hc⟩ := resetRow num payload <;> rw [hc]
      · obtain rfl : payload = [2] := of_decide_eq_true hp
        exact ⟨rfl, rfl⟩
      · exact ⟨rfl, congrArg (!·) hp⟩
    case inr.inr.inr.inr.inr.inr.inr.inr.inr.inr.inr.inr.inr.inl =>
      rw [wake]
      obtain ⟨hp, hc⟩ | ⟨hp, hc⟩ := setWakeRow num payload <;> rw [hc]
      · refine ⟨rfl, ?_⟩
        obtain ⟨-, hf⟩ := Bool.and_eq_true _ _ ▸ hp
        simp [ownRow, namesWakeForm, of_decide_eq_true hf]
      · exact ⟨rfl, congrArg (!·) hp⟩
    all_goals exact ⟨rfl, rfl⟩

/-- A request row of a frame's command runs its block's answer. -/
theorem exec_commandOf (kind num : Byte) (payload : List Byte) (s : State) :
    exec (commandOf kind num payload) s = .next (request kind num payload (requestAct (commandOf kind num payload)) s) :=
  exec_request (commandOf_row kind num payload).1 (commandOf_row kind num payload).2 s

/-- A payload of a wrong length is refused BAD_LENGTH, whatever the row (R186). -/
theorem requestAct_wrongLength {i : Instr} {f : Frame} (row : requestOf i = some f) (known : knownKind f.kind = true)
    (own : ownRow i = true) (wrong : ¬ lengthRight f.kind f.payload) (s : State) : requestAct i s = refuse .badLength s := by
  cases i
  case configSet num payload =>
    cases row
    cases payload with
    | nil => rfl
    | cons count items => exact if_neg fun h => wrong ⟨count, items, rfl, h⟩
  case postChange => cases row; exact if_neg wrong
  case unknownKind => cases row; exact absurd known (by simpa [ownRow, requestFrame] using own)
  all_goals cases row
  all_goals exact if_neg wrong

/-- Settles O4: either answer is a refusal, which places the body header and does nothing else. -/
theorem badRequestsAnswered : Obligations.BadRequestsAnswered := by
  intro kind num payload s ready
  refine ⟨fun unknown => ?_, fun known wrong => ?_⟩
  · rw [← commandOf_unknown unknown, exec_commandOf, request_ready ready, commandOf_unknown unknown]
    rfl
  · rw [exec_commandOf, request_ready ready, requestAct_wrongLength (commandOf_row kind num payload).1 known (commandOf_row kind num payload).2 wrong]
    rfl

end Sys2Proof.Machine
end

section
/-! No request but STATUS looks at the inbound queue and its flow control (R167, R169): it does the same whatever waits behind
it. -/

namespace Sys2Proof.Machine

/-- The part with another inbound queue and flow control. -/
def State.withInbound (s : State) (frames : List Frame) (flow : Flow) (free : Bool) : State :=
  { s with line.inbound := frames, line.flow := flow, line.flowFree := free }

section
variable (s : State) (frames : List Frame) (flow : Flow) (free : Bool)

@[simp] theorem withInbound_store : (s.withInbound frames flow free).store = s.store := rfl
@[simp] theorem withInbound_air : (s.withInbound frames flow free).air = s.air := rfl
@[simp] theorem withInbound_dir : (s.withInbound frames flow free).dir = s.dir := rfl
@[simp] theorem withInbound_pool : (s.withInbound frames flow free).pool = s.pool := rfl
@[simp] theorem withInbound_table : (s.withInbound frames flow free).table = s.table := rfl
@[simp] theorem withInbound_campaigns : (s.withInbound frames flow free).campaigns = s.campaigns := rfl
@[simp] theorem withInbound_planner : (s.withInbound frames flow free).planner = s.planner := rfl
@[simp] theorem withInbound_handler : (s.withInbound frames flow free).handler = s.handler := rfl
@[simp] theorem withInbound_entryAt (a : Nat) : (s.withInbound frames flow free).entryAt a = s.entryAt a := rfl
@[simp] theorem withInbound_entryOf (id : TagId) : (s.withInbound frames flow free).entryOf id = s.entryOf id := rfl
@[simp] theorem withInbound_recordOf (k : Serial) : (s.withInbound frames flow free).recordOf k = s.recordOf k := rfl
@[simp] theorem withInbound_liveRecord (e : Entry) : (s.withInbound frames flow free).liveRecord e = s.liveRecord e := rfl
@[simp] theorem withInbound_hasWork (e : Entry) : (s.withInbound frames flow free).hasWork e = s.hasWork e := rfl
@[simp] theorem withInbound_calendarOf (a : Nat) : (s.withInbound frames flow free).calendarOf a = s.calendarOf a := rfl

theorem ite_inbound (c : Prop) [Decidable c] (t : State) :
    (if c then s else t).withInbound frames flow free
      = if c then s.withInbound frames flow free else t.withInbound frames flow free :=
  apply_ite (State.withInbound · frames flow free) c s t

/-! ### The shared operations -/

theorem updEntry_inbound (a : Nat) (f : Entry → Entry) :
    updEntry a f (s.withInbound frames flow free) = (updEntry a f s).withInbound frames flow free := rfl

theorem updRecord_inbound (k : Serial) (f : Change → Change) :
    updRecord k f (s.withInbound frames flow free) = (updRecord k f s).withInbound frames flow free := rfl

theorem dropCalendar_inbound (a : Nat) :
    dropCalendar a (s.withInbound frames flow free) = (dropCalendar a s).withInbound frames flow free := rfl

theorem fileTag_inbound (a : Nat) :
    fileTag a (s.withInbound frames flow free) = (fileTag a s).withInbound frames flow free := by
  unfold fileTag
  rw [withInbound_entryAt]
  cases s.entryAt a with
  | none => rfl
  | some e => dsimp only; cases e.home <;> rfl

theorem workNotice_inbound (a : Nat) :
    workNotice a (s.withInbound frames flow free) = (workNotice a s).withInbound frames flow free := by
  unfold workNotice
  simp only [withInbound_entryAt, withInbound_hasWork, withInbound_calendarOf, fileTag_inbound, dropCalendar_inbound]
  cases s.entryAt a with
  | none => rfl
  | some e => dsimp only; split_ifs <;> rfl

theorem orderEntry_inbound (a : Nat) (f : Entry → Entry) :
    orderEntry a f (s.withInbound frames flow free) = (orderEntry a f s).withInbound frames flow free :=
  workNotice_inbound (updEntry a f s) frames flow free a

theorem updCampaign_inbound (i : Option CampaignIndex) (f : Campaign → Campaign) :
    updCampaign i f (s.withInbound frames flow free) = (updCampaign i f s).withInbound frames flow free := by
  cases i <;> rfl

/-- Campaign `i` made DONE, with its notice (R103, R104). -/
def markDone (i : CampaignIndex) (s : State) : State :=
  let d := { s.campaigns.get i with state := .done, doneBeacon := some s.air.beacon }
  { s with
    campaigns := s.campaigns.set i d
    handler.notices.campaignDone := s.handler.notices.campaignDone.set i (some d) }

theorem doneCheck_markDone (i : CampaignIndex) :
    doneCheck i s = if (s.campaigns.get i).state = .cut ∧ (s.campaigns.get i).admitted = (s.campaigns.get i).tallies.sum
      then markDone i s else s := rfl

theorem doneCheck_inbound (i : CampaignIndex) :
    doneCheck i (s.withInbound frames flow free) = (doneCheck i s).withInbound frames flow free := by
  rw [doneCheck_markDone, doneCheck_markDone, withInbound_campaigns]
  split_ifs <;> rfl

theorem tallyOutcome_inbound (i : Option CampaignIndex) (code : OutcomeCode) :
    tallyOutcome i code (s.withInbound frames flow free) = (tallyOutcome i code s).withInbound frames flow free := by
  cases i with
  | none => rfl
  | some i =>
    exact doneCheck_inbound { s with campaigns := s.campaigns.modify i fun c => { c with tallies := c.tallies.bump code } }
      frames flow free i

theorem latchTrigger_inbound :
    latchTrigger (s.withInbound frames flow free) = (latchTrigger s).withInbound frames flow free := by
  unfold latchTrigger
  rw [ite_inbound]
  rfl

theorem passHead_inbound : passHead (s.withInbound frames flow free) = (passHead s).withInbound frames flow free := by
  unfold passHead
  simp only [withInbound_table, withInbound_recordOf]
  cases s.table.retire with
  | nil => rfl
  | cons k rest =>
    dsimp only
    cases (s.recordOf k).bind Change.outcomeRecord with
    | none => rfl
    | some o =>
      rw [← latchTrigger_inbound, ← tallyOutcome_inbound]
      rfl

theorem passRecords_inbound (n : Nat) :
    passRecords n (s.withInbound frames flow free) = (passRecords n s).withInbound frames flow free := by
  induction n generalizing s with
  | zero => rfl
  | succ n ih =>
    unfold passRecords
    rw [ite_inbound, ← ih, ← passHead_inbound]
    rfl

theorem passAll_inbound : passAll (s.withInbound frames flow free) = (passAll s).withInbound frames flow free :=
  passRecords_inbound s frames flow free _

/-- OUTCOME_BACKLOG where a record must wait in the retire queue (R82). -/
def noteBacklog (k : Serial) (s : State) : State := if k ∈ s.table.retire then raiseFlag .outcomeBacklog s else s

theorem joinRetire_eq (k : Serial) (s : State) :
    joinRetire k s = noteBacklog k (passAll { s with table.retire := s.table.retire ++ [k] }) := rfl

theorem noteBacklog_inbound (k : Serial) :
    noteBacklog k (s.withInbound frames flow free) = (noteBacklog k s).withInbound frames flow free := by
  unfold noteBacklog
  rw [withInbound_table]
  split_ifs <;> rfl

theorem joinRetire_inbound (k : Serial) :
    joinRetire k (s.withInbound frames flow free) = (joinRetire k s).withInbound frames flow free := by
  rw [joinRetire_eq, joinRetire_eq, ← noteBacklog_inbound, ← passAll_inbound]
  rfl

theorem finish_inbound (k : Serial) (code : OutcomeCode) (within : Bool) :
    finish k code within (s.withInbound frames flow free) = (finish k code within s).withInbound frames flow free := by
  cases hr : s.recordOf k with
  | none =>
    have hr' : (s.withInbound frames flow free).recordOf k = none := hr
    rw [finish_none code within hr, finish_none code within hr']
  | some r =>
    have hr' : (s.withInbound frames flow free).recordOf k = some r := hr
    cases within with
    | true =>
      rw [finish_within code hr, finish_within code hr', ← joinRetire_inbound]
      unfold endRecord
      cases r.campaign <;> rfl
    | false =>
      rw [finish_eq code hr, finish_eq code hr', ← joinRetire_inbound]
      have notice := workNotice_inbound (dropBoost r.addr (clearLive r.addr k (closeRecord k code s))) frames flow free r.addr
      change joinRetire k { dropBoost r.addr (clearLive r.addr k (endRecord k code r (s.withInbound frames flow free))) with
        planner.calendar := (workNotice r.addr (State.withInbound
          (dropBoost r.addr (clearLive r.addr k (closeRecord k code s))) frames flow free)).planner.calendar } = _
      rw [notice]
      unfold endRecord
      cases r.campaign <;> rfl

theorem foldl_inbound {α : Type} (f : State → α → State)
    (hf : ∀ s a, f (s.withInbound frames flow free) a = (f s a).withInbound frames flow free) (xs : List α) :
    xs.foldl f (s.withInbound frames flow free) = (xs.foldl f s).withInbound frames flow free := by
  induction xs generalizing s with
  | nil => rfl
  | cons x xs ih => rw [List.foldl_cons, hf, ih, List.foldl_cons]

theorem refresh_inbound : refresh (s.withInbound frames flow free) = (refresh s).withInbound frames flow free :=
  foldl_inbound (renewedState s) frames flow free _ (fun s x => finish_inbound s frames flow free x.1 x.2 false) _

theorem poolLowTest_inbound (before : Nat) :
    poolLowTest before (s.withInbound frames flow free) = (poolLowTest before s).withInbound frames flow free := by
  unfold poolLowTest
  rw [withInbound_pool]
  split_ifs <;> rfl

theorem takeChange_inbound (e : Entry) (new : Change) (blocks : List (List Byte)) (superseded : Option Change) :
    takeChange e new blocks superseded (s.withInbound frames flow free)
      = (takeChange e new blocks superseded s).withInbound frames flow free := by
  have before : beforeAppend new superseded (s.withInbound frames flow free)
      = (beforeAppend new superseded s).withInbound frames flow free := by
    cases superseded with
    | none => rfl
    | some r =>
      exact finish_inbound { s with table.nextSerial := new.serial + 1, table.nextSequence := s.table.nextSequence + 1 }
        frames flow free r.serial .superseded true
  have unfolded : ∀ s, takeChange e new blocks superseded s = workNotice e.addr (updCampaign new.campaign
      (fun c => { c with admitted := c.admitted + 1, live := c.live + 1 })
      (updEntry e.addr (fun e => { e with live := some new.serial })
        (poolLowTest s.pool.free { beforeAppend new superseded s with
          table.records := (beforeAppend new superseded s).table.records ++ [new]
          pool := (beforeAppend new superseded s).pool.take new.serial blocks }))) := fun _ => rfl
  rw [unfolded, unfolded, ← workNotice_inbound, ← updCampaign_inbound, ← updEntry_inbound, ← poolLowTest_inbound, before]
  rfl

/-! ### The answers -/

/-- An answer of a part with another inbound queue. -/
def withInboundAnswer (frames : List Frame) (flow : Flow) (free : Bool) (a : Answer) : Answer :=
  (a.1, a.2.withInbound frames flow free)

theorem answer_ite_inbound (c : Prop) [Decidable c] (a b : Answer) :
    withInboundAnswer frames flow free (if c then a else b)
      = if c then withInboundAnswer frames flow free a else withInboundAnswer frames flow free b :=
  apply_ite _ c a b

theorem ofLength_inbound (n : Nat) (payload : List Byte) (act : State → Answer)
    (h : act (s.withInbound frames flow free) = withInboundAnswer frames flow free (act s)) :
    ofLength n payload act (s.withInbound frames flow free)
      = withInboundAnswer frames flow free (ofLength n payload act s) := by
  unfold ofLength
  rw [answer_ite_inbound, h]
  rfl

theorem actSetBeacon_inbound (payload : List Byte) :
    actSetBeacon payload (s.withInbound frames flow free)
      = withInboundAnswer frames flow free (actSetBeacon payload s) := by
  unfold actSetBeacon
  rw [answer_ite_inbound]
  rfl

theorem actSetMode_inbound (payload : List Byte) :
    actSetMode payload (s.withInbound frames flow free) = withInboundAnswer frames flow free (actSetMode payload s) := by
  unfold actSetMode
  cases Mode.ofCode (leNat payload) with
  | none => rfl
  | some m =>
    dsimp only
    rw [answer_ite_inbound, answer_ite_inbound]
    rfl

/-- What CONFIG-SET leaves when it takes its items (R177). -/
def configTaken (items : List (Nat × List Byte)) (s : State) : State :=
  let w' := s.store.working.withItems items
  if decide (w'.siteCode = 0) && items.any fun i => decide (i.1 = 1) then { putSettings w' s with store.mode := .quiet }
  else putSettings w' s

/-- CONFIG-SET is refused by its tests or takes its items. -/
theorem configSetItems_eq (items : List (Nat × List Byte)) :
    configSetItems items s = match configRefusal items (s.store.working.withItems items) s with
      | some code => refuse code s
      | none => okWith (le 1 items.length
          ++ items.flatMap fun i => le 1 i.1 ++ (s.store.working.withItems items).itemValue i.1) (configTaken items s) := by
  unfold configSetItems configTaken
  rfl

theorem configTaken_inbound (items : List (Nat × List Byte)) :
    configTaken items (s.withInbound frames flow free) = (configTaken items s).withInbound frames flow free := by
  unfold configTaken
  dsimp only
  rw [ite_inbound]
  rfl

theorem configSetItems_inbound (items : List (Nat × List Byte)) :
    configSetItems items (s.withInbound frames flow free)
      = withInboundAnswer frames flow free (configSetItems items s) := by
  have same : configRefusal items (s.store.working.withItems items) (s.withInbound frames flow free)
      = configRefusal items (s.store.working.withItems items) s := rfl
  rw [configSetItems_eq, configSetItems_eq, configTaken_inbound, withInbound_store, same]
  cases configRefusal items (s.store.working.withItems items) s <;> rfl

theorem actConfigSet_inbound (payload : List Byte) :
    actConfigSet payload (s.withInbound frames flow free)
      = withInboundAnswer frames flow free (actConfigSet payload s) := by
  cases payload with
  | nil => rfl
  | cons count rest =>
    unfold actConfigSet
    dsimp only
    rw [answer_ite_inbound, configSetItems_inbound]
    rfl

theorem actReset_inbound (payload : List Byte) :
    actReset payload (s.withInbound frames flow free) = withInboundAnswer frames flow free (actReset payload s) := by
  unfold actReset
  cases ResetKind.ofCode (leNat payload) <;> rfl

theorem actSetLine_inbound (payload : List Byte) :
    actSetLine payload (s.withInbound frames flow free) = withInboundAnswer frames flow free (actSetLine payload s) := by
  unfold actSetLine
  cases LineRate.ofValue (leNat payload) <;> rfl

theorem actSetNotices_inbound (payload : List Byte) :
    actSetNotices payload (s.withInbound frames flow free)
      = withInboundAnswer frames flow free (actSetNotices payload s) :=
  congrArg (Prod.mk _) (latchTrigger_inbound (putSettings { s.store.working with
    enableMask := BitVec.ofNat 12 (field 0 2 payload), outcomeTrigger := clamp 1 64 (field 2 1 payload) } s) frames flow free)

theorem actEnrol_inbound (payload : List Byte) :
    actEnrol payload (s.withInbound frames flow free) = withInboundAnswer frames flow free (actEnrol payload s) := by
  unfold actEnrol
  dsimp only
  by_cases hp : field 5 1 payload < 4
  · rw [dif_pos hp, dif_pos hp, answer_ite_inbound, answer_ite_inbound]
    simp only [withInbound_dir]
    cases firstFree s.dir.entries 16384 0 <;> rfl
  · rw [dif_neg hp, dif_neg hp]
    rfl

theorem actRemove_inbound (payload : List Byte) :
    actRemove payload (s.withInbound frames flow free) = withInboundAnswer frames flow free (actRemove payload s) := by
  unfold actRemove
  simp only [withInbound_entryOf, withInbound_liveRecord, finish_inbound]
  cases s.entryOf (BitVec.ofNat 32 (leNat payload)) with
  | none => rfl
  | some e =>
    dsimp only
    cases s.liveRecord e with
    | none => rfl
    | some r => dsimp only; split_ifs <;> rfl

theorem actSetWakeTag_inbound (payload : List Byte) :
    actSetWakeTag payload (s.withInbound frames flow free)
      = withInboundAnswer frames flow free (actSetWakeTag payload s) := by
  unfold actSetWakeTag
  simp only [withInbound_entryOf, orderEntry_inbound]
  cases s.entryOf (BitVec.ofNat 32 (field 1 4 payload)) <;> rfl

theorem actSetWakeZone_inbound (payload : List Byte) :
    actSetWakeZone payload (s.withInbound frames flow free)
      = withInboundAnswer frames flow free (actSetWakeZone payload s) :=
  congrArg (Prod.mk _) (foldl_inbound s frames flow free _ (fun s (e : Entry) => orderEntry_inbound s frames flow free e.addr _) _)

theorem actLocate_inbound (payload : List Byte) :
    actLocate payload (s.withInbound frames flow free) = withInboundAnswer frames flow free (actLocate payload s) := by
  unfold actLocate
  simp only [withInbound_entryOf, orderEntry_inbound]
  cases s.entryOf (BitVec.ofNat 32 (leNat payload)) with
  | none => rfl
  | some e => dsimp only; split_ifs <;> rfl

theorem actSetAllowance_inbound (payload : List Byte) :
    actSetAllowance payload (s.withInbound frames flow free)
      = withInboundAnswer frames flow free (actSetAllowance payload s) := by
  unfold actSetAllowance
  simp only [withInbound_entryOf]
  cases s.entryOf (BitVec.ofNat 32 (field 0 4 payload)) <;> rfl

theorem actOpenCampaign_inbound (payload : List Byte) :
    actOpenCampaign payload (s.withInbound frames flow free)
      = withInboundAnswer frames flow free (actOpenCampaign payload s) := by
  unfold actOpenCampaign
  dsimp only
  cases campaignIndex (field 0 1 payload) with
  | none => rfl
  | some i =>
    cases LatePolicy.ofCode (field 5 1 payload) with
    | none => rfl
    | some policy =>
      dsimp only
      simp only [answer_ite_inbound]
      rfl

theorem actReleaseCampaign_inbound (payload : List Byte) :
    actReleaseCampaign payload (s.withInbound frames flow free)
      = withInboundAnswer frames flow free (actReleaseCampaign payload s) := by
  unfold actReleaseCampaign
  cases campaignIndex (leNat payload) with
  | none => rfl
  | some i => dsimp only; rw [answer_ite_inbound]; rfl

theorem findSerial_inbound (e : Entry) (n : Nat) (k : Serial) :
    findSerial (s.withInbound frames flow free) e n k = findSerial s e n k := by
  induction n generalizing k with
  | zero => rfl
  | succ n ih =>
    unfold findSerial
    rw [ih]
    rfl

theorem newChange_inbound (e : Entry) (campaign : Option CampaignIndex) (blocks : List (List Byte))
    (superseded : Option Change) :
    newChange (s.withInbound frames flow free) e campaign blocks superseded = newChange s e campaign blocks superseded := by
  unfold newChange
  rw [withInbound_table, findSerial_inbound]

theorem admitFinal_inbound (e : Entry) (campaign : Option CampaignIndex) (img : FinalImage) :
    admitFinal e campaign img (s.withInbound frames flow free)
      = withInboundAnswer frames flow free (admitFinal e campaign img s) := by
  unfold admitFinal
  dsimp only
  rw [withInbound_liveRecord]
  cases liveChangeTest (s.liveRecord e) campaign with
  | error code => rfl
  | ok superseded =>
    have take := takeChange_inbound s frames flow free e
      (newChange s e campaign (blocksOfImage img.bytes) superseded) (blocksOfImage img.bytes) superseded
    dsimp only
    rw [answer_ite_inbound, answer_ite_inbound, newChange_inbound, take]
    rfl

theorem postChange_inbound (id : TagId) (n : Nat) (img : List Byte) :
    postChange id n img (s.withInbound frames flow free)
      = withInboundAnswer frames flow free (postChange id n img s) := by
  unfold postChange
  simp only [withInbound_entryOf, withInbound_campaigns, admitFinal_inbound]
  cases s.entryOf id with
  | none => rfl
  | some e =>
    cases campaignOfNumber n with
    | none => rfl
    | some campaign =>
      dsimp only
      rw [answer_ite_inbound]
      cases imageResult img with
      | error f => rfl
      | ok final => dsimp only; rw [answer_ite_inbound]; rfl

theorem actPostChange_inbound (payload : List Byte) :
    actPostChange payload (s.withInbound frames flow free)
      = withInboundAnswer frames flow free (actPostChange payload s) := by
  unfold actPostChange
  rw [answer_ite_inbound, postChange_inbound]
  rfl

theorem actCancelChange_inbound (payload : List Byte) :
    actCancelChange payload (s.withInbound frames flow free)
      = withInboundAnswer frames flow free (actCancelChange payload s) := by
  unfold actCancelChange
  simp only [withInbound_recordOf, finish_inbound]
  cases s.recordOf (BitVec.ofNat 16 (leNat payload)) with
  | none => rfl
  | some r =>
    dsimp only
    cases r.state
    case staged => rw [updRecord_inbound, workNotice_inbound]; rfl
    all_goals rfl

theorem actFetchOutcomes_inbound :
    actFetchOutcomes (s.withInbound frames flow free) = withInboundAnswer frames flow free (actFetchOutcomes s) := by
  have pass := passAll_inbound { s with table.outcomes := s.table.outcomes.drop 16 } frames flow free
  have latch : ∀ t : State, fetchLatch (t.withInbound frames flow free) = (fetchLatch t).withInbound frames flow free := by
    intro t
    unfold fetchLatch
    rw [ite_inbound, ite_inbound]
    rfl
  exact congrArg (Prod.mk _) ((congrArg fetchLatch pass).trans (latch _))

end

/-- No request but STATUS answers by the inbound queue, or changes it (R167). -/
theorem requestAct_inbound {i : Instr} (h : ∀ num, i ≠ .status num []) (s : State) (frames : List Frame) (flow : Flow)
    (free : Bool) :
    requestAct i (s.withInbound frames flow free) = withInboundAnswer frames flow free (requestAct i s) := by
  cases i
  case status num payload =>
    have hp : payload.length ≠ 0 := fun hp => h num (by rw [List.length_eq_zero_iff.mp hp])
    simp only [requestAct]
    rw [ofLength_wrong 0 payload _ _ hp, ofLength_wrong 0 payload _ _ hp]
    rfl
  case setBeacon => exact ofLength_inbound _ _ _ _ _ _ _ (actSetBeacon_inbound _ _ _ _ _)
  case setMode => exact ofLength_inbound _ _ _ _ _ _ _ (actSetMode_inbound _ _ _ _ _)
  case configSet => exact actConfigSet_inbound _ _ _ _ _
  case resetCold | resetWarm => exact ofLength_inbound _ _ _ _ _ _ _ (actReset_inbound _ _ _ _ _)
  case setLine => exact ofLength_inbound _ _ _ _ _ _ _ (actSetLine_inbound _ _ _ _ _)
  case setNotices => exact ofLength_inbound _ _ _ _ _ _ _ (actSetNotices_inbound _ _ _ _ _)
  case enrol => exact ofLength_inbound _ _ _ _ _ _ _ (actEnrol_inbound _ _ _ _ _)
  case remove => exact ofLength_inbound _ _ _ _ _ _ _ (actRemove_inbound _ _ _ _ _)
  case setWakeTag num payload =>
    dsimp only [requestAct]
    refine ofLength_inbound _ _ _ _ _ _ _ ?_
    rw [answer_ite_inbound, actSetWakeTag_inbound]
    rfl
  case setWakeZone num payload =>
    dsimp only [requestAct]
    refine ofLength_inbound _ _ _ _ _ _ _ ?_
    rw [answer_ite_inbound, actSetWakeZone_inbound]
    rfl
  case setAllowance => exact ofLength_inbound _ _ _ _ _ _ _ (actSetAllowance_inbound _ _ _ _ _)
  case locate => exact ofLength_inbound _ _ _ _ _ _ _ (actLocate_inbound _ _ _ _ _)
  case queryTag num payload =>
    dsimp only [requestAct]
    refine ofLength_inbound _ _ _ _ _ _ _ ?_
    rw [withInbound_entryOf]
    cases s.entryOf (BitVec.ofNat 32 (leNat payload)) <;> rfl
  case refreshBudgets =>
    dsimp only [requestAct]
    refine ofLength_inbound _ _ _ _ _ _ _ ?_
    rw [refresh_inbound]
    rfl
  case openCampaign => exact ofLength_inbound _ _ _ _ _ _ _ (actOpenCampaign_inbound _ _ _ _ _)
  case queryCampaign num payload =>
    dsimp only [requestAct]
    refine ofLength_inbound _ _ _ _ _ _ _ ?_
    cases campaignIndex (leNat payload) <;> rfl
  case releaseCampaign => exact ofLength_inbound _ _ _ _ _ _ _ (actReleaseCampaign_inbound _ _ _ _ _)
  case postChange => exact actPostChange_inbound _ _ _ _ _
  case cancelChange => exact ofLength_inbound _ _ _ _ _ _ _ (actCancelChange_inbound _ _ _ _ _)
  case queryChange num payload =>
    dsimp only [requestAct]
    refine ofLength_inbound _ _ _ _ _ _ _ ?_
    rw [withInbound_recordOf]
    cases s.recordOf (BitVec.ofNat 16 (leNat payload)) <;> rfl
  case fetchOutcomes => exact ofLength_inbound _ _ _ _ _ _ _ (actFetchOutcomes_inbound _ _ _ _)
  case unknownKind => rfl
  case setClock | configGet | saveSettings | clearEvents | listStrangers =>
    dsimp only [requestAct]
    exact ofLength_inbound _ _ _ _ _ _ _ rfl
  all_goals rfl

/-! ### Request rows at the host line (R164, R167, R169) -/

theorem sameRequest_iff (g : Frame) (kind num : Byte) (payload : List Byte) :
    g.sameRequest (requestFrame kind num payload) = true ↔ (g.kind, g.num, g.payload) = (kind, num, payload) := by
  simp only [Frame.sameRequest, requestFrame, Bool.and_eq_true, Prod.mk.injEq, and_assoc]
  exact and_congr decide_eq_true_iff (and_congr decide_eq_true_iff decide_eq_true_iff)

theorem canTake_iff (s : State) :
    s.canTake = true ↔ s.handler.task = .idle ∧ s.line.outbound.length < 8 := by
  unfold State.canTake State.freePlaces
  simp only [Bool.and_eq_true, decide_eq_true_eq]
  refine and_congr_right fun h => ?_
  rw [h]
  simp only [Task.claimed]
  omega

/-- A request to a part with no frame waiting is taken at once, or waits (R164, R169). -/
theorem request_empty {s : State} (hp : s.powered = true) (hi : s.line.inbound = []) (kind num : Byte)
    (payload : List Byte) (act : State → Answer) :
    request kind num payload act s
      = if s.canTake then answerWith kind num (act s)
        else { s with line.inbound := [requestFrame kind num payload] } := by
  unfold request
  rw [if_pos hp, hi]
  dsimp only
  unfold takeAndAnswer
  rw [offerFrame_canTake _ _ hi, takeHead_offerFrame _ _ hi]
  refine if_congr Iff.rfl rfl ?_
  rw [offerFrame_joins _ _ (by rw [hi]; decide)]
  unfold HostLine.withJoined
  rw [hi]
  rfl

theorem answerWith_inbound (kind num : Byte) (a : Answer) (frames : List Frame) (flow : Flow) (free : Bool) :
    answerWith kind num (withInboundAnswer frames flow free a) = (answerWith kind num a).withInbound frames flow free := by
  obtain ⟨_ | ⟨code, data⟩, t⟩ := a <;> rfl

theorem withTaken_eq (l : HostLine) (rest : List Frame) :
    l.withTaken rest = { l with
      inbound := rest, flow := (l.withTaken rest).flow, flowFree := (l.withTaken rest).flowFree } := by
  unfold HostLine.withTaken
  split_ifs
  · cases l.flow <;> rfl
  · rfl

/-- The STATUS reply but for the number of frames waiting (Table 11-8). -/
def statusHead (s : State) : List Byte := (statusPayload s).dropLast

theorem statusPayload_eq (s : State) : statusPayload s = statusHead s ++ le 1 s.line.inbound.length := by
  have last : ∀ (front : List Byte) (b : Byte), (front ++ [b]) = (front ++ [b]).dropLast ++ [b] := by simp
  exact last _ _

theorem statusHead_inbound (s : State) (frames : List Frame) (flow : Flow) (free : Bool) :
    statusHead (s.withInbound frames flow free) = statusHead s := by
  have front : ∀ (bs : List Byte) (b c : Byte), (bs ++ [b]).dropLast = (bs ++ [c]).dropLast := by simp
  exact front _ _ _

/-- A request at the head of the queue that may be taken does what it does without the frames behind it. -/
theorem request_taken {s : State} (hp : s.powered = true) (idle : s.handler.task = .idle)
    (place : s.line.outbound.length < 8) {g : Frame} {rest : List Frame} (hi : s.line.inbound = g :: rest)
    {kind num : Byte} {payload : List Byte} (hg : (g.kind, g.num, g.payload) = (kind, num, payload))
    (act : State → Answer) :
    request kind num payload act { s with line.inbound := [] } = answerWith kind num (act { s with line.inbound := [] })
      ∧ request kind num payload act s = answerWith kind num (act (State.withInbound { s with line.inbound := [] } rest
        (s.line.withTaken rest).flow (s.line.withTaken rest).flowFree)) := by
  constructor
  · exact (request_empty (s := { s with line.inbound := [] }) hp rfl kind num payload act).trans
      (if_pos ((canTake_iff _).mpr ⟨idle, place⟩))
  · rw [request_head hp _ _ _ _ g rest hi ((sameRequest_iff ..).mpr hg), if_pos ((canTake_iff s).mpr ⟨idle, place⟩),
      takeHead_taken s hi, withTaken_eq]
    rfl

/-- Settles O5: the row is the offering of its frame behind others, its waiting, or its taking; the frames behind a request
are only seen by STATUS. -/
theorem requestTakenOrWaits : Obligations.RequestTakenOrWaits := by
  intro kind num payload s hp
  refine ⟨fun g rest hi hne => ?joins, fun busy => ⟨fun hi => ?queued, fun g rest hi hg => ?waits⟩,
    fun idle place g rest hi hg => ⟨fun other => ?taken, fun hk hpay => ?status⟩⟩
  case joins =>
    have hg : g.sameRequest (requestFrame kind num payload) = false :=
      Bool.eq_false_iff.mpr fun h => hne ((sameRequest_iff ..).mp h)
    rw [exec_commandOf, request_joins hp _ _ _ _ g rest hi hg]
    exact ⟨fun room => congrArg _ (offerFrame_joins _ s room), fun full => congrArg _ (if_neg (by omega))⟩
  case queued =>
    have wait : s.canTake ≠ true := fun h =>
      busy.elim (absurd ((canTake_iff s).mp h).1) (Nat.not_le.mpr ((canTake_iff s).mp h).2)
    rw [exec_commandOf, request_empty hp hi, if_neg wait]
    rfl
  case waits =>
    have wait : s.canTake ≠ true := fun h =>
      busy.elim (absurd ((canTake_iff s).mp h).1) (Nat.not_le.mpr ((canTake_iff s).mp h).2)
    rw [exec_commandOf, request_head hp _ _ _ _ g rest hi ((sameRequest_iff ..).mpr hg), if_neg wait]
  case taken =>
    have blind : ∀ n, commandOf kind num payload ≠ .status n [] := by
      intro n h
      have row := (commandOf_row kind num payload).1
      rw [h] at row
      cases row
      exact other.elim (absurd rfl) (absurd rfl)
    obtain ⟨alone, behind⟩ := request_taken hp idle place hi hg (requestAct (commandOf kind num payload))
    refine ⟨_, (exec_commandOf ..).trans (congrArg _ alone), ?_⟩
    rw [exec_commandOf, behind, requestAct_inbound blind, answerWith_inbound]
    rfl
  case status =>
    subst hk hpay
    obtain ⟨alone, behind⟩ := request_taken hp idle place hi hg (requestAct (.status num []))
    refine ⟨statusHead s, (exec_request rfl rfl _).trans ?_, (exec_request rfl rfl _).trans ?_⟩
    · refine (congrArg _ alone).trans ?_
      have head : statusPayload { s with line.inbound := [] } = statusHead s ++ [0] :=
        (statusPayload_eq _).trans (congrArg (· ++ [(0 : Byte)]) (statusHead_inbound s [] s.line.flow s.line.flowFree))
      rw [← head]
      rfl
    · refine (congrArg _ behind).trans ?_
      have head : statusPayload (State.withInbound { s with line.inbound := [] } rest
          (s.line.withTaken rest).flow (s.line.withTaken rest).flowFree) = statusHead s ++ le 1 rest.length :=
        (statusPayload_eq _).trans (congrArg (· ++ le 1 rest.length) (statusHead_inbound s rest _ _))
      rw [withTaken_eq, ← head]
      rfl

end Sys2Proof.Machine
end

section
/-! The host line's sending: flow-control bytes, frames, the rate change, the line break, and the notices (R165 to R168, R173). -/

namespace Sys2Proof.Machine

/-! ### The line break -/

/-- The line after a break (R165, R166). -/
def HostLine.broken (l : HostLine) : HostLine where
  rx := .hunt
  partials := []
  inbound := []
  outbound := []
  flow := .flowOpen
  flowFree := false
  rate := l.rateDue.getLastD l.rate
  rateDue := []
  lineOut := l.lineOut

/-- A break with a frame begun sets FRAME_DROPPED, and empties the line (R163, R165). -/
theorem breakLine_eq (s : State) :
    breakLine (if s.line.rx = .hunt then s else dropFrame s)
      = if s.line.rx = .hunt then { s with line := s.line.broken }
        else raiseFlag .frameDropped { s with line := s.line.broken } := by
  split_ifs <;> rfl

theorem lineBreak_idle {s : State} (h : ∀ k, s.handler.task ≠ .resetting k) :
    lineBreak s = breakLine (if s.line.rx = .hunt then s else dropFrame s) := by
  have same : (breakLine (if s.line.rx = .hunt then s else dropFrame s)).handler.task = s.handler.task := by
    split_ifs
    · rfl
    · exact (raise_rest _ _ _).1
  unfold lineBreak
  dsimp only
  split
  · next k hk => exact absurd (same.symm.trans hk) (h k)
  · rfl

theorem lineBreak_resetting {s : State} {k : ResetKind} (h : s.handler.task = .resetting k) :
    lineBreak s = actKind k (breakLine (if s.line.rx = .hunt then s else dropFrame s)) := by
  have same : (breakLine (if s.line.rx = .hunt then s else dropFrame s)).handler.task = .resetting k := by
    split_ifs
    · exact h
    · exact (raise_rest _ _ _).1.trans h
  unfold lineBreak
  dsimp only
  rw [same]

theorem resetActs_resetting {s : State} {k : ResetKind} (h : s.handler.task = .resetting k) :
    resetActs s = actKind k (sendThrough isResetReply s) := by
  unfold resetActs
  rw [h]

theorem sendThrough_nil (p : Frame → Bool) {s : State} (h : s.line.outbound = []) : sendThrough p s = s := by
  unfold sendThrough
  rw [h]
  rfl

theorem exec_lineBreak {s : State} (hp : s.powered = true) : exec .lineBreak s = .next (lineBreak s) :=
  congrArg _ (event_powered hp _)

theorem exec_resetActs {s : State} (hp : s.powered = true) : exec .resetActs s = .next (resetActs s) :=
  congrArg _ (event_powered hp _)

/-- Settles O9: the broken line has nothing left to send, so a RESET that its reply is lost for acts on it as it stands. -/
theorem lineBreakRule : Obligations.LineBreakRule := by
  intro s hp broken t
  have ht : breakLine (if s.line.rx = .hunt then s else dropFrame s) = t := breakLine_eq s
  have htp : t.powered = true := by
    rw [← ht]
    split_ifs <;> exact hp
  have hto : t.line.outbound = [] := by rw [← ht]; rfl
  refine ⟨fun h => by rw [exec_lineBreak hp, lineBreak_idle h, ht], fun k hk => ?_⟩
  have htt : t.handler.task = .resetting k := by
    rw [← ht]
    split_ifs
    · exact hk
    · exact (raise_rest _ _ _).1.trans hk
  rw [exec_lineBreak hp, lineBreak_resetting hk, ht, exec_resetActs htp, resetActs_resetting htt, sendThrough_nil _ hto]

/-! ### Sending -/

theorem flowReady_iff (s : State) : s.flowReady = true ↔ s.line.flowFree = true ∧ ¬ s.lineChanges := by
  rw [State.flowReady, Bool.and_eq_true, lineFree_iff]

theorem flow_due_iff (l : HostLine) : l.flow.due = true ↔ l.owesByte := by
  unfold HostLine.owesByte
  cases l.flow <;> simp [Flow.due]

theorem exec_hold {s : State} (hp : s.powered = true) :
    exec .hold s = .next (if s.line.flow = .holdDue ∧ s.flowReady = true then sendFlow 0x91 s else s) :=
  congrArg _ (event_powered hp _)

theorem exec_go {s : State} (hp : s.powered = true) :
    exec .go s = .next (if s.line.flow = .goDue ∧ s.flowReady = true then sendFlow 0x92 s else s) :=
  congrArg _ (event_powered hp _)

theorem exec_outboundFrameSent {s : State} (hp : s.powered = true) : exec .outboundFrameSent s = .next (frameSent s) :=
  congrArg _ (event_powered hp _)

/-- No frame ends while a flow-control byte holds the free position or the line changes (R166, R167, R184). -/
theorem frameSent_blocked {s : State} (h : s.line.outbound = [] ∨ (s.line.owesByte ∧ s.line.flowFree = true)
    ∨ s.lineChanges) : frameSent s = s := by
  unfold frameSent
  cases ho : s.line.outbound with
  | nil => rfl
  | cons f rest =>
    dsimp only
    refine if_pos ?_
    rw [flow_due_iff, ← Bool.not_eq_true, lineFree_iff, not_not]
    exact h.resolve_left (by rw [ho]; exact List.cons_ne_nil _ _)

theorem frameSent_sends {s : State} {f : Frame} {rest : List Frame} (ho : s.line.outbound = f :: rest)
    (owes : ¬ (s.line.owesByte ∧ s.line.flowFree = true)) (free : ¬ s.lineChanges) :
    frameSent s = { s with line.outbound := rest, line.flowFree := s.line.flow.due, line.lineOut := f.bytes } := by
  unfold frameSent
  rw [ho]
  refine if_neg ?_
  rw [flow_due_iff, ← Bool.not_eq_true, lineFree_iff, not_not]
  exact fun h => h.elim owes free

/-- The bytes of a frame on the line, written out (Tables 11-2 and 11-3). -/
theorem frame_bytes_eq (f : Frame) :
    f.bytes = 0xC3 :: le 2 (3 + f.payload.length) ++ f.kind :: f.num :: f.status :: f.payload
      ++ le 2 (crc16 (le 2 (3 + f.payload.length) ++ f.kind :: f.num :: f.status :: f.payload)).toNat := by
  unfold Frame.bytes Frame.checked crcBytes
  rw [body_length]
  rfl

/-- Settles O10: each command sends exactly where its byte position is free and the line does not change. -/
theorem sendingRule : Obligations.SendingRule := by
  intro s hp
  have ready := flowReady_iff s
  refine ⟨fun due free still => ?hold, fun blocked => ?noHold, fun due free still => ?go, fun blocked => ?noGo,
    fun blocked => ?noFrame, fun f rest ho owes still => ⟨s.line.flow.due, flow_due_iff s.line, ?frame⟩⟩
  case hold =>
    rw [exec_hold hp, if_pos ⟨due, ready.mpr ⟨free, still⟩⟩, sendFlow, due]
    rfl
  case noHold =>
    rw [exec_hold hp, if_neg]
    rintro ⟨due, h⟩
    obtain ⟨free, still⟩ := ready.mp h
    obtain h | h | h := blocked
    exacts [h due, (nomatch free.symm.trans h), still h]
  case go =>
    rw [exec_go hp, if_pos ⟨due, ready.mpr ⟨free, still⟩⟩, sendFlow, due]
    rfl
  case noGo =>
    rw [exec_go hp, if_neg]
    rintro ⟨due, h⟩
    obtain ⟨free, still⟩ := ready.mp h
    obtain h | h | h := blocked
    exacts [h due, (nomatch free.symm.trans h), still h]
  case noFrame => rw [exec_outboundFrameSent hp, frameSent_blocked blocked]
  case frame => rw [exec_outboundFrameSent hp, frameSent_sends ho owes still, frame_bytes_eq]

/-! ### The rate change -/

theorem afterFirst_append {p : Frame → Bool} {before : List Frame} {f : Frame} {later : List Frame}
    (hb : ∀ g ∈ before, p g = false) (hf : p f = true) : afterFirst p (before ++ f :: later) = some (f, later) := by
  induction before with
  | nil => exact if_pos hf
  | cons g gs ih =>
    rw [List.cons_append, afterFirst, hb g List.mem_cons_self]
    exact ih fun x hx => hb x (List.mem_cons_of_mem g hx)

/-- A sending leaves the line as `afterSending` says (R166, R167). -/
theorem sendThrough_afterSending {p : Frame → Bool} {s : State} {before : List Frame} {f : Frame} {later : List Frame}
    (ho : s.line.outbound = before ++ f :: later) (hb : ∀ g ∈ before, p g = false) (hf : p f = true) :
    sendThrough p s = { s with line := s.line.afterSending before f later } := by
  have replies : (f :: later).countP isSetLineReply = okReplies 0x09 (f :: later) := by
    unfold okReplies
    congr 1
    funext g
    simp [isSetLineReply]
  have head : (before ++ f :: later).head?.any p = decide (before = []) := by
    cases before with
    | nil => simpa using hf
    | cons g gs => simpa using hb g List.mem_cons_self
  have waits : (s.line.flow.due && !s.line.flowFree && decide (before = []))
      = decide (before = [] ∧ s.line.flowFree = false ∧ (s.line.flow = .holdDue ∨ s.line.flow = .goDue)) := by
    rw [Bool.eq_iff_iff, Bool.and_eq_true, Bool.and_eq_true, decide_eq_true_iff, decide_eq_true_iff, flow_due_iff,
      Bool.not_eq_true']
    exact ⟨fun ⟨⟨owes, free⟩, first⟩ => ⟨first, free, owes⟩, fun ⟨first, free, owes⟩ => ⟨⟨owes, free⟩, first⟩⟩
  unfold sendThrough
  rw [ho, afterFirst_append hb hf]
  dsimp only
  rw [replies, head, waits]
  rfl

theorem isSetLineReply_iff (f : Frame) : isSetLineReply f = true ↔ f.okReplyTo 0x09 := by
  simp [isSetLineReply, Frame.okReplyTo]

theorem isResetReply_iff (f : Frame) : isResetReply f = true ↔ f.okReplyTo 0x08 := by
  simp [isResetReply, Frame.okReplyTo]

theorem setLineReplies_eq (s : State) :
    s.setLineReplies = s.line.outbound.countP fun f => decide (f.kind = 0x89 ∧ f.status = 0x00) := by
  unfold State.setLineReplies
  congr 1
  funext f
  simp [isSetLineReply]

theorem exec_setLine (num : Byte) (payload : List Byte) (s : State) :
    exec (.setLine num payload) s = .next (request 0x09 num payload (ofLength 4 payload (actSetLine payload)) s) := rfl

theorem exec_lineRateChange {s : State} (hp : s.powered = true) : exec .lineRateChange s = .next (changeRate s) :=
  congrArg _ (event_powered hp _)

theorem lineRate_value_lt (r : LineRate) : r.value < 256 ^ 4 := by cases r <;> decide

/-- A number that is no rate names none (R166). -/
theorem lineRate_ofValue_none {n : Nat} (h : ∀ r : LineRate, n ≠ r.value) : LineRate.ofValue n = none := by
  unfold LineRate.ofValue
  rw [if_neg (show n ≠ 57600 from h .r57600), if_neg (show n ≠ 115200 from h .r115200),
    if_neg (show n ≠ 230400 from h .r230400), if_neg (show n ≠ 460800 from h .r460800),
    if_neg (show n ≠ 921600 from h .r921600)]

theorem actSetLine_rate (r : LineRate) (s : State) :
    actSetLine (le 4 r.value) s = okWith (le 4 r.value) { putSettings { s.store.working with lineRate := r } s with
      line.rateDue := s.line.rateDue ++ [r] } := by
  unfold actSetLine
  rw [leNat_le 4 _ (lineRate_value_lt r), lineRate_ofValue_value]
  rfl

/-- A settings record with one item given differs from the old where the item does. -/
theorem lineRate_differs (w : Settings) (r : LineRate) : ({ w with lineRate := r } ≠ w) ↔ r ≠ w.lineRate := by
  constructor
  · rintro h rfl
    exact h rfl
  · exact fun h he => h (congrArg Settings.lineRate he)

/-- Settles O11: LINE_RATE_CHANGE sends through a reply that is still waiting, and takes the oldest rate. -/
theorem setLineRule : Obligations.SetLineRule := by
  refine ⟨fun num r s ready => ?takes, fun num v s ready none => ?refused,
    fun s hp => ⟨fun idle => ?idle, fun r rest due =>
      ⟨fun sent => ?sent, fun before f later waiting ho hf hb => ?waiting⟩⟩⟩
  case takes =>
    have differs : decide ({ s.store.working with lineRate := r } ≠ s.store.working)
        = decide (r ≠ s.store.working.lineRate) := decide_eq_decide.mpr (lineRate_differs _ r)
    rw [exec_setLine, request_ofLength_ready ready 0x09 num (le_length 4 _), actSetLine_rate, answerWith_okWith,
      putSettings, differs]
    rfl
  case refused =>
    have act : actSetLine (le 4 v.toNat) s = refuse .badValue s := by
      unfold actSetLine
      rw [leNat_le_toNat 4 v (by norm_num), lineRate_ofValue_none none]
    rw [exec_setLine, request_ofLength_ready ready 0x09 num (le_length 4 _), act]
    rfl
  case idle =>
    rw [exec_lineRateChange hp, changeRate, idle]
  case sent =>
    have count : ¬ rest.length < s.setLineReplies := by rw [setLineReplies_eq]; exact Nat.not_lt.mpr sent
    rw [exec_lineRateChange hp, changeRate, due]
    dsimp only
    rw [if_neg count]
  case waiting =>
    have count : rest.length < s.setLineReplies := by rw [setLineReplies_eq]; exact waiting
    rw [exec_lineRateChange hp, changeRate, due]
    dsimp only
    rw [if_pos count, sendThrough_afterSending ho (fun g hg => ?_) ((isSetLineReply_iff f).mpr hf)]
    exact Bool.eq_false_iff.mpr fun h => hb g hg ((isSetLineReply_iff g).mp h)

/-! ### Notices -/

theorem exec_noticeMove {s : State} (hp : s.powered = true) : exec .noticeMove s = .next (moveNotice s) :=
  congrArg _ (event_powered hp _)

theorem two_le_freePlaces_iff (s : State) :
    2 ≤ s.freePlaces ↔ s.line.outbound.length + s.handler.task.claimed ≤ 6 := by
  unfold State.freePlaces
  omega

/-- With two free places the next notice moves (R173). -/
theorem moveNotice_some {s : State} (room : s.line.outbound.length + s.handler.task.claimed ≤ 6) {f : Frame}
    {n : NoticeSet} (h : nextNotice s = some (f, n)) : moveNotice s = placeFrame f { s with handler.notices := n } := by
  unfold moveNotice
  rw [if_pos ((two_le_freePlaces_iff s).mpr room), h]

theorem moveNotice_none {s : State} (h : nextNotice s = none) : moveNotice s = s := by
  unfold moveNotice
  rw [h]
  exact ite_self _

/-- The first waiting CAMPAIGN_DONE is that of the lowest id (R173). -/
theorem firstDone_some {n : NoticeSet} {i : CampaignIndex} {c : Campaign} (h : n.campaignDone.get i = some c)
    (first : ∀ j, j < i → n.campaignDone.get j = none) : n.firstDone = some (i, c) := by
  unfold NoticeSet.firstDone allFour
  fin_cases i
  · simp_all [List.findSome?]
  · have h0 := first 0 (by decide)
    simp_all [List.findSome?]
  · have h0 := first 0 (by decide)
    have h1 := first 1 (by decide)
    simp_all [List.findSome?]
  · have h0 := first 0 (by decide)
    have h1 := first 1 (by decide)
    have h2 := first 2 (by decide)
    simp_all [List.findSome?]

theorem firstDone_none {n : NoticeSet} (h : ∀ i, n.campaignDone.get i = none) : n.firstDone = none := by
  simp [NoticeSet.firstDone, h]

end Sys2Proof.Machine
end

section
/-! The campaign summary (Table 11-17), the notices that carry it, and RELEASE-CAMPAIGN (R105, R173). -/

namespace Sys2Proof.Machine

/-- A field of the `j`th of several equal parts. -/
theorem field_flatMap {α : Type} {f : α → List Byte} {m : Nat} (hm : ∀ a, (f a).length = m) {l : List α} {j : Nat} {a : α}
    (h : l[j]? = some a) (bs : List Byte) : field (m * j) m (l.flatMap f ++ bs) = leNat (f a) := by
  induction l generalizing j with
  | nil => simp at h
  | cons x xs ih =>
    rw [List.flatMap_cons, List.append_assoc]
    cases j with
    | zero =>
      obtain rfl : x = a := by simpa using h
      rw [Nat.mul_zero, field_append_within _ (by rw [hm]; omega), ← hm x, field_all]
    | succ j =>
      rw [field_append_skip m _ (by rw [hm, Nat.mul_succ]; omega), hm, Nat.mul_succ, Nat.add_sub_cancel]
      exact ih (by simpa using h)

theorem flatMap_length {α : Type} {f : α → List Byte} {m : Nat} (hm : ∀ a, (f a).length = m) (l : List α) :
    (l.flatMap f).length = m * l.length := by
  induction l with
  | nil => rfl
  | cons x xs ih => rw [List.flatMap_cons, List.length_append, ih, hm, List.length_cons, Nat.mul_succ, Nat.add_comm]

theorem tallies_bytes_length (t : Tallies) : (t.toList.flatMap fun t => le 4 t.toNat).length = 48 :=
  flatMap_length (fun _ => le_length 4 _) _

theorem toNat_mod_pow {w n : Nat} (v : BitVec w) (h : w ≤ 8 * n) : v.toNat % 256 ^ n = v.toNat := by
  rw [← leNat_le_mod, leNat_le_toNat n v h]

theorem field_tallies_skip {off : Nat} (len : Nat) (t : Tallies) (bs : List Byte) (h : 48 ≤ off) :
    field off len ((t.toList.flatMap fun t => le 4 t.toNat) ++ bs) = field (off - 48) len bs := by
  rw [field_append_skip len bs (by rw [tallies_bytes_length]; exact h), tallies_bytes_length]

/-- The `j`th tally behind `n` bytes. -/
theorem field_tally {n : Nat} {as : List Byte} (hn : as.length = n) {t : Tallies} {j : Nat} {v : BitVec 32}
    (h : t.toList[j]? = some v) (bs : List Byte) :
    field (n + 4 * j) 4 (as ++ ((t.toList.flatMap fun t => le 4 t.toNat) ++ bs)) = v.toNat := by
  rw [field_append_skip 4 _ (by omega), hn, Nat.add_sub_cancel_left, field_flatMap (fun _ => le_length 4 _) h,
    leNat_le_toNat 4 v (by norm_num)]

/-- An optional number in its field, or 0 (R185). -/
theorem toNat_getD_mod {w n : Nat} (v : Option (BitVec w)) (h : w ≤ 8 * n) :
    (v.map (·.toNat)).getD 0 % 256 ^ n = (v.map (·.toNat)).getD 0 := by
  cases v with
  | none => exact Nat.zero_mod _
  | some v => exact toNat_mod_pow v h

/-- The summary's fields stand at their offsets (Table 11-17). -/
theorem campaignSummary_fields (i : CampaignIndex) (c : Campaign) : SummaryFields i c (campaignSummary i c) := by
  have skip := tallies_bytes_length c.tallies
  have time := toNat_getD_mod (n := 4) (c.activation.map (·.time)) (by norm_num)
  have beacon := toNat_getD_mod (n := 3) (c.activation.map (·.beacon)) (by norm_num)
  have done := toNat_getD_mod (n := 3) c.doneBeacon (by norm_num)
  have admitted := toNat_mod_pow (n := 4) c.admitted (by norm_num)
  rw [Option.map_map] at time beacon
  unfold SummaryFields
  refine ⟨by simp [campaignSummary, skip], ?id, ?time, ?beacon, ?policy, ?admitted, fun j t h => ?tallies, ?late, ?stale, ?done⟩
  case tallies =>
    have front : campaignSummary i c = (le 1 (i.val + 1) ++ le 4 ((c.activation.map (·.time.toNat)).getD 0)
        ++ le 3 ((c.activation.map (·.beacon.toNat)).getD 0) ++ [((c.activation.map (·.policy.code)).getD 0)]
        ++ le 4 c.admitted.toNat) ++ ((c.tallies.toList.flatMap fun t => le 4 t.toNat)
        ++ (le 2 c.lateCount ++ le 2 c.staleCount ++ le 3 ((c.doneBeacon.map (·.toNat)).getD 0))) := by
      simp only [campaignSummary, List.append_assoc]
    rw [front]
    exact field_tally (by simp) h _
  all_goals
    unfold campaignSummary
    simp only [List.append_assoc, List.cons_append, List.nil_append]
    simp (disch := omega) only [field_le_front, field_le_skip, field_cons_skip, field_head, field_tallies_skip, field_le_alone,
      Nat.sub_self, Nat.reduceSub]
  case id => simp; omega
  case time => exact time
  case beacon => exact beacon
  case policy => cases c.activation with
    | none => rfl
    | some a => cases h : a.policy <;> simp [h, LatePolicy.code]
  case admitted => exact admitted
  case late => rfl
  case stale => rfl
  case done => exact done

/-! ### The notices -/

/-- Settles O12: the notice set is searched in the order of the notices, and what it gives is placed. -/
theorem noticesMoveInOrder : Obligations.NoticesMoveInOrder := by
  intro s hp
  rw [exec_noticeMove hp]
  refine ⟨fun room => ⟨fun e he => ?event, fun i c he hc first => ⟨_, campaignSummary_fields i c, ?campaignDone⟩,
    fun he hc => ⟨fun ho => ?outcomes, fun ho hs => ?strangers, fun ho hs => ?nothing⟩⟩, fun full => ?full⟩
  case event =>
    have next : nextNotice s = some (noticeFrame 0xE0 (le 2 e.toNat ++ le 2 s.handler.flags.toNat),
        { s.handler.notices with event := none }) := by
      unfold nextNotice
      dsimp only
      rw [he]
    rw [moveNotice_some room next]
    rfl
  case campaignDone =>
    have next : nextNotice s = some (noticeFrame 0xE2 (campaignSummary i c),
        { s.handler.notices with campaignDone := s.handler.notices.campaignDone.set i none }) := by
      unfold nextNotice
      dsimp only
      rw [he, firstDone_some hc first]
    rw [moveNotice_some room next]
    rfl
  case outcomes =>
    have next : nextNotice s = some (noticeFrame 0xE1 (le 2 s.table.outcomes.length ++ le 2 s.table.retire.length),
        { s.handler.notices with outcomesReady := false }) := by
      unfold nextNotice
      dsimp only
      rw [he, firstDone_none hc]
      exact if_pos ho
    rw [moveNotice_some room next]
    rfl
  case strangers =>
    have next : nextNotice s = some (noticeFrame 0xE3 (le 1 s.dir.strangers.length),
        { s.handler.notices with strangers := false }) := by
      unfold nextNotice
      dsimp only
      rw [he, firstDone_none hc, ho, hs]
      rfl
    rw [moveNotice_some room next]
    rfl
  case nothing =>
    have next : nextNotice s = none := by
      unfold nextNotice
      dsimp only
      rw [he, firstDone_none hc, ho, hs]
      rfl
    rw [moveNotice_none next]
  case full =>
    unfold moveNotice
    rw [if_neg fun h => Nat.not_le.mpr full ((two_le_freePlaces_iff s).mp h)]

/-! ### RELEASE-CAMPAIGN -/

theorem exec_releaseCampaign (num : Byte) (payload : List Byte) (s : State) :
    exec (.releaseCampaign num payload) s
      = .next (request 0x16 num payload (ofLength 1 payload (actReleaseCampaign payload)) s) := rfl

@[simp] theorem leNat_singleton (b : Byte) : leNat [b] = b.toNat := by simp [leNat]

theorem campaignIndex_some {n : Nat} (i : CampaignIndex) (h : n = i.val + 1) : campaignIndex n = some i := by
  subst h
  have range : 1 ≤ i.val + 1 ∧ i.val + 1 ≤ 4 := by omega
  exact dif_pos range

theorem campaignIndex_none {b : Byte} (h : b = 0 ∨ 4 < b.toNat) : campaignIndex b.toNat = none := by
  refine dif_neg fun range => ?_
  obtain rfl | h := h
  · exact absurd range.1 (by decide)
  · omega

/-- Settles O36: the id names its campaign, whose state decides. -/
theorem releaseCampaignRule : Obligations.ReleaseCampaignRule := by
  intro num n s ready
  have take := fun act => request_ofLength_ready ready 0x16 num (n := 1) (payload := [n]) rfl act
  refine ⟨fun none => ?none, fun i hi => ⟨fun done => ⟨_, campaignSummary_fields i _, ?done⟩, fun other => ?other⟩⟩
  case none =>
    rw [exec_releaseCampaign, take, actReleaseCampaign, leNat_singleton, campaignIndex_none none]
    rfl
  case done =>
    rw [exec_releaseCampaign, take, actReleaseCampaign, leNat_singleton, campaignIndex_some i hi]
    dsimp only
    rw [if_pos done]
    rfl
  case other =>
    rw [exec_releaseCampaign, take, actReleaseCampaign, leNat_singleton, campaignIndex_some i hi]
    dsimp only
    rw [if_neg other]
    rfl

end Sys2Proof.Machine
end

section
/-! STATUS, the event flags, and the short requests of the settings and the directory (R5, R41, R170 to R175, R181, R182). -/

namespace Sys2Proof.Machine

/-! ### STATUS -/

theorem exec_status (num : Byte) (payload : List Byte) (s : State) :
    exec (.status num payload) s
      = .next (request 0x01 num payload (ofLength 0 payload fun s => okWith (statusPayload s) s) s) := rfl

/-- Settles O14: each field is read at its offset in the layout. -/
theorem statusReportsState : Obligations.StatusReportsState := by
  intro num s ready entries strangers records retire outcomes free trigger
  have beacon := toNat_mod_pow (n := 3) s.air.beacon (by norm_num)
  have preset := toNat_getD_mod (n := 3) s.air.preset (by norm_num)
  have flags := toNat_mod_pow (n := 2) s.handler.flags (by norm_num)
  have mask := toNat_mod_pow (n := 2) s.store.working.enableMask (by norm_num)
  have rate : s.line.rate.value % 256 ^ 4 = s.line.rate.value := Nat.mod_eq_of_lt (lineRate_value_lt _)
  refine ⟨statusPayload s, ?reply, ?length, ?beacon, ?preset, ?presetValue, ?clock, ?clockSet, ?mode, fun c => ?enabled,
    fun c => ?heads, ?entries, ?strangers, ?records, ?retire, ?outcomes, ?free, fun i => ?campaigns, ?flags, ?mask,
    ?trigger, ?latch, ?rate, ?inbound⟩
  case reply =>
    rw [exec_status, request_ofLength_ready ready 0x01 num List.length_nil]
    rfl
  case length =>
    have four : (s.campaigns.toList.map (·.state.code)).length = 4 := rfl
    unfold statusPayload
    simp only [List.length_append, le_length, List.length_singleton, four]
  all_goals
    unfold statusPayload
    simp only [List.append_assoc, List.cons_append, List.nil_append, Quad.toList, List.map_cons, List.map_nil]
  case campaigns =>
    have code : ∀ st : CampaignState, st.code.toNat
        = match st with | .free => 0 | .opened => 1 | .cut => 2 | .done => 3 := by intro st; cases st <;> rfl
    fin_cases i
    all_goals
      simp (disch := omega) only [field_le_skip, field_cons_skip, field_head, Nat.sub_self, Nat.reduceSub, Nat.reduceAdd,
        code]
      rfl
  all_goals
    simp (disch := omega) only [field_le_front, field_le_skip, field_cons_skip, field_head, field_le_alone,
      Nat.sub_self, Nat.reduceSub, boolByte_toNat]
  case beacon => exact beacon
  case preset => cases s.air.preset <;> rfl
  case presetValue => rw [preset]; cases s.air.preset <;> rfl
  case clock =>
    have range := s.air.clock.isLt
    exact Nat.mod_eq_of_lt (by omega)
  case mode => cases s.store.mode <;> rfl
  case enabled => rw [cellSet_testBit, Quad.get_map]
  case heads => rw [cellSet_testBit]
  case flags => exact flags
  case mask => exact mask
  case latch => cases s.handler.latch <;> rfl
  case rate => exact rate
  case inbound => rw [ready.inbound]; rfl
  all_goals exact Nat.mod_eq_of_lt (by omega)

end Sys2Proof.Machine
end

section
/-! The event flags, and the short requests of the settings, the schedule and the directory (R5, R41, R170 to R174, R181, R182,
R184). -/

namespace Sys2Proof.Machine

/-! ### Event flags (R170 to R172) -/

theorem bit_getLsbD (f : Flag) {n : Nat} (h : n < 12) : f.bit.getLsbD n = decide (n = f.number) := by
  unfold Flag.bit
  cases f <;> simp only [Flag.number] <;> interval_cases n <;> rfl

/-- What a flag's cause leaves of the EVENT notice (R170). -/
def eventAfter (f : Flag) (s : State) : Option FlagSet :=
  if f.isIn s.handler.flags then s.handler.notices.event
  else if f.isIn s.store.working.enableMask then some (s.handler.notices.event.getD 0 ||| f.bit)
  else s.handler.notices.event

theorem raiseFlag_eq (f : Flag) (s : State) :
    raiseFlag f s = { s with
      handler.flags := s.handler.flags ||| f.bit, handler.notices.event := eventAfter f s } := by
  have flags := raise_flags s.handler s.store.working.enableMask f
  unfold raiseFlag eventAfter
  unfold RecordHandler.raise at flags ⊢
  split_ifs at flags ⊢
  · rw [← flags]
  · rfl
  · rfl

theorem exec_clearEvents (num : Byte) (payload : List Byte) (s : State) :
    exec (.clearEvents num payload) s
      = .next (request 0x0B num payload (ofLength 2 payload (actClearEvents payload)) s) := rfl

theorem exec_setNotices (num : Byte) (payload : List Byte) (s : State) :
    exec (.setNotices num payload) s
      = .next (request 0x0A num payload (ofLength 3 payload (actSetNotices payload)) s) := rfl

theorem leNat_le_setWidth (mask : BitVec 16) : BitVec.ofNat 12 (leNat (le 2 mask.toNat)) = mask.setWidth 12 := by
  rw [leNat_le_toNat 2 mask (by norm_num), BitVec.ofNat_toNat]

/-- A flag set without some flags holds those that are not among them. -/
theorem without_getLsbD (flags : FlagSet) (mask : BitVec 16) {n : Nat} (h : n < 12) :
    (flags &&& ~~~(mask.setWidth 12)).getLsbD n = (flags.getLsbD n && !mask.getLsbD n) := by
  simp [h]

theorem flagSet_eq_zero_iff (flags : FlagSet) : flags = 0 ↔ ∀ n, n < 12 → flags.getLsbD n = false := by
  constructor
  · rintro rfl n _
    simp
  · intro h
    exact BitVec.eq_of_getLsbD_eq fun i hi => by simpa using h i hi

/-- Settles O13: a cause and a clearing act on the flags bit by bit, and the trigger's test is that of the new settings. -/
theorem flagRequestsRule : Obligations.FlagRequestsRule := by
  refine ⟨rfl, fun f s => ⟨_, _, raiseFlag_eq f s, fun n hn => ?flags, fun same => ?same, fun clear masked => ?joins⟩,
    fun num mask s ready => ?clearing, fun num trigger mask s ready => ?notices⟩
  case flags => rw [BitVec.getLsbD_or, bit_getLsbD f hn]
  case same =>
    unfold eventAfter
    obtain set | unmasked := same
    · exact if_pos set
    · rw [show f.isIn s.store.working.enableMask = false from unmasked]
      exact ite_self _
  case joins =>
    refine ⟨s.handler.notices.event.getD 0 ||| f.bit, ?_, fun n hn => by rw [BitVec.getLsbD_or, bit_getLsbD f hn]⟩
    unfold eventAfter
    rw [show f.isIn s.handler.flags = false from clear, show f.isIn s.store.working.enableMask = true from masked]
    rfl
  case clearing =>
    refine ⟨s.handler.flags &&& ~~~(mask.setWidth 12), (s.handler.clear (mask.setWidth 12)).notices.event, ?_,
      fun n hn => without_getLsbD _ _ hn, fun none => ?_, fun e he => ?_⟩
    · rw [exec_clearEvents, request_ofLength_ready ready 0x0B num (le_length 2 _), actClearEvents, leNat_le_setWidth]
      rfl
    · unfold RecordHandler.clear
      dsimp only
      rw [none]
    · have left : (s.handler.clear (mask.setWidth 12)).notices.event
          = if e &&& ~~~(mask.setWidth 12) = 0 then none else some (e &&& ~~~(mask.setWidth 12)) := by
        unfold RecordHandler.clear
        dsimp only
        rw [he]
      rw [left]
      constructor
      · rw [ite_eq_left_iff]
        simp only [reduceCtorEq, imp_false, not_not]
        rw [flagSet_eq_zero_iff]
        exact forall_congr' fun n => forall_congr' fun hn => by rw [without_getLsbD _ _ hn]
      · intro e' he' n hn
        split_ifs at he'
        rw [← Option.some.inj he', without_getLsbD _ _ hn]
  case notices =>
    have mask12 : BitVec.ofNat 12 (field 0 2 (le 2 mask.toNat ++ [trigger])) = mask.setWidth 12 := by
      rw [field_le_front, toNat_mod_pow mask (by norm_num), BitVec.ofNat_toNat]
    have clamped : clamp 1 64 (field 2 1 (le 2 mask.toNat ++ [trigger])) = max 1 (min trigger.toNat 64) := by
      rw [field_le_skip 1 _ _ (le_refl 2), Nat.sub_self, field_head]
      rfl
    have bits : (mask.setWidth 12).toNat = mask.toNat % 4096 := BitVec.toNat_setWidth 12 mask
    rw [exec_setNotices, request_ofLength_ready ready 0x0A num (by simp), actSetNotices, mask12, clamped, answerWith_okWith,
      bits]
    unfold latchTrigger
    rw [apply_ite (placeFrame _)]
    rfl

/-! ### Settings (R181, R182) -/

theorem exec_saveSettings (num : Byte) (payload : List Byte) (s : State) :
    exec (.saveSettings num payload) s = .next (request 0x07 num payload (ofLength 0 payload fun s =>
      (none, { s with handler.task := .saving num s.store.working })) s) := rfl

theorem exec_settingsWriteEnd {s : State} (hp : s.powered = true) (completed : Bool) :
    exec (.settingsWriteEnd completed) s = .next (settingsWriteEnd completed s) :=
  congrArg _ (event_powered hp _)

/-- Settles O17: the write that is in progress names its request and its copy. -/
theorem saveSettingsRule : Obligations.SaveSettingsRule := by
  refine ⟨fun num s ready => ?_, fun num copied s hp saving => ⟨?_, ?_⟩⟩
  · rw [exec_saveSettings, request_ofLength_ready ready 0x07 num List.length_nil]
    rfl
  · rw [exec_settingsWriteEnd hp, settingsWriteEnd, saving]
    rfl
  · rw [exec_settingsWriteEnd hp, settingsWriteEnd, saving]
    rfl

theorem exec_setMode (num : Byte) (payload : List Byte) (s : State) :
    exec (.setMode num payload) s = .next (request 0x04 num payload (ofLength 1 payload (actSetMode payload)) s) := rfl

theorem anyEnabled_iff (w : Settings) : w.anyEnabled = true ↔ ∃ c, (w.cells.get c).enabled = true := by
  unfold Settings.anyEnabled
  rw [List.any_eq_true]
  constructor
  · rintro ⟨x, hx, he⟩
    obtain ⟨c, rfl⟩ := (Quad.mem_toList _ _).mp hx
    exact ⟨c, he⟩
  · rintro ⟨c, he⟩
    exact ⟨_, (Quad.mem_toList _ _).mpr ⟨c, rfl⟩, he⟩

/-- NIGHT and DAY ask for a site code and an enabled cell (R182). -/
theorem actSetMode_named {m : Mode} (s : State) (hm : m ≠ .quiet) :
    actSetMode [m.code] s = if s.store.working.siteCode = 0 then refuse .noSite s
      else if ¬ s.store.working.anyEnabled = true then refuse .noCells s else okWith [m.code] { s with store.mode := m } := by
  unfold actSetMode
  rw [leNat_singleton, mode_ofCode_code]
  simp only [hm, ne_eq, not_false_eq_true, true_and]

/-- Settles O19: the mode byte names its mode, and the two tests come in their order. -/
theorem setModeRule : Obligations.SetModeRule := by
  intro num v s ready answer
  have take : exec (.setMode num [v]) s = .next (answerWith 0x04 num (actSetMode [v] s)) := by
    rw [exec_setMode, request_ofLength_ready ready 0x04 num (n := 1) rfl]
  rw [take]
  refine ⟨fun other => ?other, fun quiet => ?quiet, fun named site => ?noSite, fun named site cells => ?noCells,
    fun night site cells => ?night, fun day site cells => ?day⟩
  case other =>
    have none : Mode.ofCode (leNat [v]) = none := by
      rw [leNat_singleton]
      unfold Mode.ofCode
      rw [if_neg (by omega), if_neg (by omega), if_neg (by omega)]
    rw [actSetMode, none]
    rfl
  case quiet => rw [quiet]; rfl
  case noSite =>
    obtain rfl | rfl := named
    · rw [show [(1 : Byte)] = [Mode.night.code] from rfl, actSetMode_named s (by decide), if_pos site]
      rfl
    · rw [show [(2 : Byte)] = [Mode.day.code] from rfl, actSetMode_named s (by decide), if_pos site]
      rfl
  case noCells =>
    have disabled : ¬ s.store.working.anyEnabled = true := fun h => by
      obtain ⟨c, hc⟩ := (anyEnabled_iff _).mp h
      exact nomatch (cells c).symm.trans hc
    obtain rfl | rfl := named
    · rw [show [(1 : Byte)] = [Mode.night.code] from rfl, actSetMode_named s (by decide), if_neg site, if_pos disabled]
      rfl
    · rw [show [(2 : Byte)] = [Mode.day.code] from rfl, actSetMode_named s (by decide), if_neg site, if_pos disabled]
      rfl
  case night =>
    subst night
    rw [show [(1 : Byte)] = [Mode.night.code] from rfl, actSetMode_named s (by decide), if_neg site,
      if_neg (not_not_intro ((anyEnabled_iff _).mpr cells))]
    rfl
  case day =>
    subst day
    rw [show [(2 : Byte)] = [Mode.day.code] from rfl, actSetMode_named s (by decide), if_neg site,
      if_neg (not_not_intro ((anyEnabled_iff _).mpr cells))]
    rfl

/-! ### The beacon preset (R5) -/

theorem exec_setBeacon (num : Byte) (payload : List Byte) (s : State) :
    exec (.setBeacon num payload) s = .next (request 0x03 num payload (ofLength 3 payload (actSetBeacon payload)) s) := rfl

theorem presetFree_iff (s : State) :
    s.presetFree = true ↔ s.table.records = [] ∧ (∀ i, (s.campaigns.get i).state = .free)
      ∧ ∀ e ∈ s.dir.entries, ∀ u, e.boostEnd = some u → isAfter u s.air.beacon = false := by
  have campaigns : (s.campaigns.toList.all fun c => decide (c.state = .free)) = true
      ↔ ∀ i, (s.campaigns.get i).state = .free := by
    rw [List.all_eq_true]
    constructor
    · exact fun h i => of_decide_eq_true (h _ ((Quad.mem_toList _ _).mpr ⟨i, rfl⟩))
    · intro h c hc
      obtain ⟨i, rfl⟩ := (Quad.mem_toList _ _).mp hc
      exact decide_eq_true (h i)
  have boosts : (s.dir.entries.all fun e => !e.boostEnd.any fun u => isAfter u s.air.beacon) = true
      ↔ ∀ e ∈ s.dir.entries, ∀ u, e.boostEnd = some u → isAfter u s.air.beacon = false := by
    rw [List.all_eq_true]
    refine forall_congr' fun e => forall_congr' fun _ => ?_
    cases e.boostEnd <;> simp
  unfold State.presetFree
  rw [Bool.and_eq_true, Bool.and_eq_true, decide_eq_true_iff, campaigns, boosts, and_assoc]

theorem ofNat_leNat_le {w n : Nat} (v : BitVec w) (h : w ≤ 8 * n) : BitVec.ofNat w (leNat (le n v.toNat)) = v := by
  rw [leNat_le_toNat n v h, BitVec.ofNat_toNat, BitVec.setWidth_eq]

/-- Settles O24: the request's test is the three conditions. -/
theorem setBeaconRule : Obligations.SetBeaconRule := by
  intro num b s ready free
  have act : actSetBeacon (le 3 b.toNat) s
      = if s.presetFree = true then okWith [] { s with air.preset := some b } else refuse .airLocked s := by
    unfold actSetBeacon
    rw [ofNat_leNat_le b (by norm_num)]
  rw [exec_setBeacon, request_ofLength_ready ready 0x03 num (le_length 3 _), act]
  refine ⟨fun h => ?_, fun h => ?_⟩
  · rw [if_pos ((presetFree_iff s).mpr h)]
    rfl
  · rw [if_neg fun hf => h ((presetFree_iff s).mp hf)]
    rfl

/-! ### The stranger list (R41) -/

theorem exec_listStrangers (num : Byte) (payload : List Byte) (s : State) :
    exec (.listStrangers num payload) s = .next (request 0x12 num payload (ofLength 0 payload fun s =>
      okWith (le 1 s.dir.strangers.length ++ s.dir.strangers.flatMap strangerBytes) { s with dir.strangers := [] }) s) := rfl

/-- Settles O33: the answer lists the records as they stand and empties the list. -/
theorem listStrangersRule : Obligations.ListStrangersRule := by
  intro num s ready
  rw [exec_listStrangers, request_ofLength_ready ready 0x12 num List.length_nil]
  rfl

/-! ### Resets (R184) -/

theorem exec_resetCold (num v : Byte) (s : State) :
    exec (.resetCold num [v]) s = .next (if namesReset 2 [v] then s
      else request 0x08 num [v] (ofLength 1 [v] (actReset [v])) s) := rfl

theorem exec_resetWarm (num v : Byte) (s : State) :
    exec (.resetWarm num [v]) s = .next (if namesReset 1 [v] then s
      else request 0x08 num [v] (ofLength 1 [v] (actReset [v])) s) := rfl

theorem namesReset_singleton (k v : Byte) : namesReset k [v] = decide (v = k) := by simp [namesReset]

theorem exec_powerOn (heads : BitVec 4) (s : State) :
    exec (.powerOn heads) s
      = .next (startUp (if s.powered then blockAfterLoss s else s.store.stored) (headsOf heads) s.freeIndex s.pending) := rfl

/-- What is sent before a reset acts leaves all but the line as it was. -/
theorem sendThrough_same (p : Frame → Bool) (s : State) : ∃ line, sendThrough p s = { s with line := line } := by
  obtain h | ⟨_, _, _, _, _, _, _, _, _, h⟩ := sendThrough_eq p s
  · exact ⟨s.line, h⟩
  · exact ⟨_, h⟩

/-- Settles O20: COLD starts the part from its stored block and its heads, as a power-on with these heads does. -/
theorem resetRule : Obligations.ResetRule := by
  refine ⟨fun num v s ready => ⟨fun cold => ?cold, fun warm => ?warm, fun hc hw => ?other⟩,
    fun heads s hp cold held => ?acts⟩
  case cold =>
    subst cold
    rw [exec_resetCold, namesReset_singleton, request_ofLength_ready ready 0x08 num (n := 1) rfl]
    rfl
  case warm =>
    subst warm
    rw [exec_resetWarm, namesReset_singleton, request_ofLength_ready ready 0x08 num (n := 1) rfl]
    rfl
  case other =>
    have none : actReset [v] s = refuse .badValue s := by
      have h1 : v.toNat ≠ 1 := fun h => hc (BitVec.eq_of_toNat_eq h)
      have h2 : v.toNat ≠ 2 := fun h => hw (BitVec.eq_of_toNat_eq h)
      unfold actReset ResetKind.ofCode
      rw [leNat_singleton, if_neg h1, if_neg h2]
    rw [exec_resetCold, exec_resetWarm, namesReset_singleton, namesReset_singleton, decide_eq_false hc,
      decide_eq_false hw, request_ofLength_ready ready 0x08 num (n := 1) rfl, none]
    exact ⟨rfl, rfl⟩
  case acts =>
    have same : headsOf heads = s.cells.heads := Quad.ext_get fun c => by rw [held c]; fin_cases c <;> rfl
    have block : blockAfterLoss s = s.store.stored := by unfold blockAfterLoss; rw [cold]
    obtain ⟨line, sent⟩ := sendThrough_same isResetReply s
    refine ⟨_, line.lineOut, rfl, ?_⟩
    rw [exec_resetActs hp, resetActs_resetting cold, sent, if_pos hp, block, same]
    rfl

end Sys2Proof.Machine
end

section
/-! The receiver: the bytes of a frame one after another (R161 to R164), and a request row beside its bytes. -/

namespace Sys2Proof.Machine

/-! ### Bytes one after another -/

/-- The part after some good bytes on the host line. -/
def receive (bs : List Byte) (s : State) : State := bs.foldl (fun s b => receiveByte b false s) s

theorem receive_append (as bs : List Byte) (s : State) : receive (as ++ bs) s = receive bs (receive as s) :=
  List.foldl_append

theorem receive_cons (b : Byte) (bs : List Byte) (s : State) : receive (b :: bs) s = receive bs (receiveByte b false s) := rfl

theorem exec_hostByteReceived {s : State} (hp : s.powered = true) (b : Byte) (faulty : Bool) :
    exec (.hostByteReceived b faulty) s = .next (receiveByte b faulty s) :=
  congrArg _ (event_powered hp _)

theorem exec_idleGap {s : State} (hp : s.powered = true) :
    exec .idleGap s = .next (if s.line.rx = .hunt then s else dropFrame s) :=
  congrArg _ (event_powered hp _)

theorem offerFrame_powered (f : Frame) (s : State) : (offerFrame f s).powered = s.powered := by
  obtain ⟨-, h⟩ | ⟨-, h⟩ := offerFrame_eq f s 
  · rw [h]
  · rw [h]
    rfl

theorem completeFrame_powered (p : List Byte) (s : State) : (completeFrame p s).powered = s.powered := by
  unfold completeFrame
  dsimp only
  split
  · split
    · exact offerFrame_powered _ _
    · rfl
  · rfl

theorem takeByte_powered (p : List Byte) (s : State) : (takeByte p s).powered = s.powered := by
  unfold takeByte
  dsimp only
  split
  · rfl
  · split_ifs <;> rfl
  · rfl
  · split
    · rfl
    · exact completeFrame_powered p s

theorem receiveByte_powered (b : Byte) (faulty : Bool) (s : State) : (receiveByte b faulty s).powered = s.powered := by
  unfold receiveByte
  split_ifs
  · rfl
  · rfl
  · rfl
  · exact takeByte_powered _ s

theorem runCommands_bytes (bs : List Byte) (cs : List Instr) {s : State} (hp : s.powered = true) :
    runCommands (bs.map (fun b => .hostByteReceived b false) ++ cs) s = runCommands cs (receive bs s) := by
  induction bs generalizing s with
  | nil => rfl
  | cons b bs ih =>
    rw [List.map_cons, List.cons_append, runCommands, exec_hostByteReceived hp]
    exact ih ((receiveByte_powered b false s).trans hp)

theorem runCommands_bytes_alone (bs : List Byte) {s : State} (hp : s.powered = true) :
    runCommands (bs.map fun b => .hostByteReceived b false) s = .next (receive bs s) := by
  have h := runCommands_bytes bs [] hp
  rwa [List.append_nil] at h

/-! ### The receiver's states -/

/-- The part with its receiver in a state, holding a partial frame. -/
def State.receiving (s : State) (rx : RxState) (p : List Byte) : State := { s with line.rx := rx, line.partials := p }

theorem receiving_hunt {s : State} (hr : s.line.rx = .hunt) (hp : s.line.partials = []) : s.receiving .hunt [] = s := by
  unfold State.receiving
  rw [← hr, ← hp]

theorem receiveByte_start {s : State} (hr : s.line.rx = .hunt) : receiveByte 0xC3 false s = s.receiving .length [] := by
  unfold receiveByte
  rw [if_pos hr, if_pos ⟨rfl, rfl⟩]
  rfl

/-- A good byte inside a frame is taken behind the partial frame. -/
theorem receiveByte_inside {rx : RxState} (hr : rx ≠ .hunt) (s : State) (p : List Byte) (b : Byte) :
    receiveByte b false (s.receiving rx p) = takeByte (p ++ [b]) (s.receiving rx p) := if_neg hr

/-- The two length bytes of a frame of `n` body bytes (R162). -/
theorem receive_length {n : Nat} (hn : n < 65536) (s : State) :
    receive (le 2 n) (s.receiving .length [])
      = if n < 3 ∨ 1100 < n then raiseFlag .frameDropped (s.receiving .hunt []) else s.receiving .body (le 2 n) := by
  have bytes : le 2 n = [BitVec.ofNat 8 n, BitVec.ofNat 8 (n / 256)] := rfl
  have spelled : leNat ((le 2 n).take 2) = n := leNat_le 2 n hn
  have second : receiveByte (BitVec.ofNat 8 (n / 256)) false (s.receiving .length [BitVec.ofNat 8 n])
      = if n < 3 ∨ 1100 < n then raiseFlag .frameDropped (s.receiving .hunt []) else s.receiving .body (le 2 n) := by
    rw [receiveByte_inside (by decide)]
    change (if (leNat ((le 2 n).take 2)) < 3 ∨ 1100 < (leNat ((le 2 n).take 2)) then _ else _) = _
    rw [spelled]
    rfl
  exact second

theorem length_spelled {n : Nat} (hn : n < 65536) (xs : List Byte) : leNat ((le 2 n ++ xs).take 2) = n :=
  leNat_le 2 n hn

theorem takeByte_body (p q : List Byte) (s : State) : takeByte p (s.receiving .body q)
    = s.receiving (if p.length < 2 + leNat (p.take 2) then .body else .check) p := rfl

theorem takeByte_check (p q : List Byte) (s : State) : takeByte p (s.receiving .check q)
    = if p.length < 4 + leNat (p.take 2) then s.receiving .check p else completeFrame p (s.receiving .check q) := rfl

/-- The body's bytes behind the length `n`, until the last of them (R162). -/
theorem receive_body {n : Nat} (hn : n < 65536) (before rest : List Byte) (hl : before.length + rest.length = n)
    (more : rest ≠ []) (s : State) :
    receive rest (s.receiving .body (le 2 n ++ before)) = s.receiving .check (le 2 n ++ before ++ rest) := by
  induction rest generalizing before with
  | nil => exact absurd rfl more
  | cons b rest ih =>
    have taken : receiveByte b false (s.receiving .body (le 2 n ++ before))
        = s.receiving (if rest = [] then .check else .body) (le 2 n ++ (before ++ [b])) := by
      rw [receiveByte_inside (by decide), List.append_assoc, takeByte_body, length_spelled hn]
      cases rest with
      | nil =>
        have full : ¬ (le 2 n ++ (before ++ [b])).length < 2 + n := by simp at hl ⊢; omega
        rw [if_neg full, if_pos rfl]
      | cons c rest =>
        have left : (le 2 n ++ (before ++ [b])).length < 2 + n := by simp at hl ⊢; omega
        rw [if_pos left, if_neg (List.cons_ne_nil _ _)]
    rw [receive, List.foldl_cons, taken]
    cases rest with
    | nil => simp
    | cons c rest =>
      have h := ih (before ++ [b]) (by simp at hl ⊢; omega) (List.cons_ne_nil _ _)
      simpa [receive] using h

/-- The two check bytes: the frame is judged when the second has come (R164). -/
theorem receive_check {n : Nat} (hn : n < 65536) (body : List Byte) (hl : body.length = n) (x y : Byte) (s : State) :
    receive [x, y] (s.receiving .check (le 2 n ++ body))
      = completeFrame (le 2 n ++ body ++ [x, y]) (s.receiving .check (le 2 n ++ body ++ [x])) := by
  have first : receiveByte x false (s.receiving .check (le 2 n ++ body)) = s.receiving .check (le 2 n ++ body ++ [x]) := by
    have left : (le 2 n ++ body ++ [x]).length < 4 + n := by simp; omega
    rw [receiveByte_inside (by decide), takeByte_check, List.append_assoc, length_spelled hn, ← List.append_assoc, if_pos left]
  have full : ¬ (le 2 n ++ body ++ [x, y]).length < 4 + n := by simp; omega
  have second : receiveByte y false (s.receiving .check (le 2 n ++ body ++ [x]))
      = completeFrame (le 2 n ++ body ++ [x, y]) (s.receiving .check (le 2 n ++ body ++ [x])) := by
    have joined : le 2 n ++ body ++ [x] ++ [y] = le 2 n ++ (body ++ [x, y]) := by simp
    rw [receiveByte_inside (by decide), joined, takeByte_check, length_spelled hn, ← List.append_assoc, if_neg full]
  rw [receive, List.foldl_cons, first, List.foldl_cons, second, List.foldl_nil]

/-- The judgement of a frame whose body and check bytes have come (R164). -/
theorem completeFrame_judged {n : Nat} (hn : n < 65536) {body : List Byte} (hl : body.length = n) (x y : Byte) {f : Frame}
    (hf : Frame.ofBody body = some f) (s : State) (q : List Byte) :
    completeFrame (le 2 n ++ body ++ [x, y]) (s.receiving .check q)
      = if [x, y] = crcBytes (le 2 n ++ body) then offerFrame f (s.receiving .hunt [])
        else raiseFlag .lineCheck (s.receiving .hunt []) := by
  have spelled : leNat ((le 2 n ++ body ++ [x, y]).take 2) = n := by rw [List.append_assoc]; exact length_spelled hn _
  have len : (le 2 n ++ body).length = 2 + n := by simp [hl]
  have checked : (le 2 n ++ body ++ [x, y]).take (2 + n) = le 2 n ++ body := by rw [← len, List.take_left]
  have rest : (le 2 n ++ body ++ [x, y]).drop (le 2 n ++ body).length = [x, y] := List.drop_left
  have dropped : (le 2 n ++ body).drop 2 = body := List.drop_left (l₁ := le 2 n)
  unfold completeFrame
  rw [spelled, checked]
  dsimp only
  rw [rest, dropped, hf]
  rfl

/-- A frame's bytes, with any two check bytes, taken by a receiver in HUNT (R161 to R164). -/
theorem receive_frame (f : Frame) (hf : f.payload.length ≤ 1097) (x y : Byte) {s : State} (hr : s.line.rx = .hunt)
    (hp : s.line.partials = []) :
    receive (0xC3 :: le 2 f.body.length ++ f.body ++ [x, y]) s
      = if [x, y] = crcBytes f.checked then offerFrame f s else raiseFlag .lineCheck s := by
  have len := body_length f
  have small : f.body.length < 65536 := by omega
  have nonempty : f.body ≠ [] := List.cons_ne_nil _ _
  have range : ¬ (f.body.length < 3 ∨ 1100 < f.body.length) := by omega
  have body := receive_body small [] f.body (by simp) nonempty s
  rw [List.append_nil] at body
  rw [List.cons_append, List.cons_append, List.append_assoc, receive_cons, receiveByte_start hr, receive_append,
    receive_length small, if_neg range, receive_append, body, receive_check small f.body rfl,
    completeFrame_judged small rfl x y (ofBody_body f), receiving_hunt hr hp, Frame.checked]

/-- Settles O6: the check bytes sent are those of the frame, so the frame is offered. -/
theorem frameReceivedByteByByte : Obligations.FrameReceivedByteByByte := by
  intro f s powered hr hp hf
  refine ⟨?_, ?_⟩
  · rw [exec_hostByteReceived powered, receiveByte_start hr, State.receiving, ← hp]
  · obtain ⟨x, y, hxy⟩ : ∃ x y, crcBytes f.checked = [x, y] := ⟨_, _, rfl⟩
    have bytes : f.bytes = 0xC3 :: le 2 f.body.length ++ f.body ++ [x, y] := by rw [← hxy]; rfl
    rw [runCommands_bytes_alone _ powered, bytes, receive_frame f hf x y hr hp, hxy, if_pos rfl]
    split_ifs with room
    · rw [offerFrame_joins f s room]
    · exact congrArg _ (if_neg room)

/-- Settles O7: outside a frame only the start byte is taken; inside one, whatever breaks it off leaves HUNT and its flag. -/
theorem receiverDiscards : Obligations.ReceiverDiscards := by
  refine ⟨fun b faulty s powered hr other => ?stray, fun s powered hr => ?gap, fun b s powered hr => ⟨?faulty, ?idle⟩,
    fun n s powered hr hp range => ?length, fun f x y s powered hr hp hf wrong => ?check⟩
  case stray =>
    have no : ¬ (b = 0xC3 ∧ faulty = false) := fun ⟨start, good⟩ => other.elim (absurd start) fun h => nomatch good.symm.trans h
    rw [exec_hostByteReceived powered, receiveByte, if_pos hr, if_neg no]
  case gap => rw [exec_idleGap powered, if_pos hr]
  case faulty =>
    rw [exec_hostByteReceived powered, receiveByte, if_neg hr]
    rfl
  case idle =>
    rw [exec_idleGap powered, if_neg hr]
    rfl
  case length =>
    rw [runCommands_bytes_alone _ powered]
    change Host.Outcome.next (receive (le 2 n.toNat) (receiveByte 0xC3 false s)) = _
    rw [receiveByte_start hr, receive_length n.isLt, if_pos range, receiving_hunt hr hp]
  case check =>
    have differs : [x, y] ≠ crcBytes f.checked := wrong
    rw [runCommands_bytes_alone _ powered, receive_frame f hf x y hr hp, if_neg differs]

/-! ### A request row beside its bytes -/

theorem withJoined_inbound (l : HostLine) (f : Frame) : (l.withJoined f).inbound = l.inbound ++ [f] := by
  unfold HostLine.withJoined
  split_ifs
  · cases l.flow <;> rfl
  · rfl

/-- A request row of a part with no frame waiting is the same after its frame has come (log entry 1). -/
theorem request_after_offer {s : State} (powered : s.powered = true) (hi : s.line.inbound = []) (kind num : Byte)
    (payload : List Byte) (act : State → Answer) :
    request kind num payload act (offerFrame (requestFrame kind num payload) s) = request kind num payload act s := by
  have inbound : (offerFrame (requestFrame kind num payload) s).line.inbound = [requestFrame kind num payload] := by
    rw [offerFrame_joins (requestFrame kind num payload) s (by rw [hi]; decide)]
    exact (withJoined_inbound _ _).trans (by rw [hi, List.nil_append])
  rw [request_head ((offerFrame_powered _ s).trans powered) kind num payload act _ _ inbound (sameRequest_self ..),
    request, if_pos powered, hi]
  rfl

/-- The frame of a request row has a status byte of 0 and a payload that fits (R160). -/
theorem requestOf_frame {i : Instr} {f : Frame} (row : requestOf i = some f) (wf : i.wellFormed = true) :
    f = requestFrame f.kind f.num f.payload ∧ f.payload.length ≤ 1097 := by
  cases i
  case resetCold | resetWarm | setWakeTag | setWakeZone | unknownKind =>
    cases row
    exact ⟨rfl, of_decide_eq_true (Bool.and_eq_true _ _ ▸ wf).1⟩
  all_goals cases row
  all_goals exact ⟨rfl, of_decide_eq_true wf⟩

/-- Settles O8: the bytes offer the row's frame, and the row then takes what they offered, or they are the row. -/
theorem requestAgreesWithItsBytes : Obligations.RequestAgreesWithItsBytes := by
  intro i f s row wf powered hr hp
  obtain ⟨shape, fits⟩ := requestOf_frame row wf
  have own := ownRow_of_wellFormed wf
  obtain ⟨x, y, hxy⟩ : ∃ x y, crcBytes f.checked = [x, y] := ⟨_, _, rfl⟩
  have bytes : f.bytes = 0xC3 :: le 2 f.body.length ++ f.body ++ [x, y] := by rw [← hxy]; rfl
  have received : receive f.bytes s = offerFrame f s := by rw [bytes, receive_frame f fits x y hr hp, hxy, if_pos rfl]
  refine ⟨fun hi => ?_, fun g rest hi hne => ?_⟩
  · have same := request_after_offer powered hi f.kind f.num f.payload (requestAct i)
    rw [← shape] at same
    rw [runCommands_bytes f.bytes [i] powered, received, runCommands, exec_request row own, exec_request row own, same]
    rfl
  · have other : g.sameRequest (requestFrame f.kind f.num f.payload) = false :=
      Bool.eq_false_iff.mpr fun h => hne ((sameRequest_iff ..).mp h)
    rw [runCommands_bytes_alone f.bytes powered, received, exec_request row own,
      request_joins powered _ _ _ _ g rest hi other, ← shape]

end Sys2Proof.Machine
end

section
/-! The stored settings block and the report frame read back as what they were made from (R150, R179, R180, R187, R188). -/

namespace Sys2Proof.Machine

/-! ### The stored settings block -/

/-- The `j`th of several parts of equal length. -/
theorem part_flatMap {α : Type} {f : α → List Byte} {m : Nat} {l : List α} (hm : ∀ a ∈ l, (f a).length = m) {j : Nat}
    {a : α} (h : l[j]? = some a) (bs : List Byte) : ((l.flatMap f ++ bs).drop (m * j)).take m = f a := by
  induction l generalizing j with
  | nil => simp at h
  | cons x xs ih =>
    have hx := hm x List.mem_cons_self
    rw [List.flatMap_cons, List.append_assoc]
    cases j with
    | zero =>
      obtain rfl : x = a := by simpa using h
      rw [Nat.mul_zero, List.drop_zero, ← hx, List.take_left]
    | succ j =>
      rw [Nat.mul_succ, Nat.add_comm, ← List.drop_drop, ← hx, List.drop_left, hx]
      exact ih (fun a ha => hm a (List.mem_cons_of_mem x ha)) (by simpa using h)

theorem itemValue_length (w : Settings) {n : Nat} (h : 1 ≤ n ∧ n ≤ 20) : (w.itemValue n).length = 4 := by
  obtain ⟨h1, h2⟩ := h
  interval_cases n <;> simp [Settings.itemValue]

theorem itemBytes_length (w : Settings) : w.itemBytes.length = 80 := by
  rw [itemBytes_eq]
  simp

theorem storedPart_length (w : Settings) : w.storedPart.length = 83 := by
  simp [Settings.storedPart, itemBytes_length]

theorem storedBytes_length (w : Settings) : w.storedBytes.length = 85 := by
  simp [Settings.storedBytes, storedPart_length]

/-- The items of a stored block are the items it was made from. -/
theorem storedItems_storedBytes (w : Settings) :
    storedItems w.storedBytes = (List.range 20).map fun i => (i + 1, w.itemValue (i + 1)) := by
  refine List.map_congr_left fun i hi => ?_
  have front : w.storedBytes.drop 3 = (List.range 20).flatMap (fun i => w.itemValue (i + 1)) ++ crcBytes w.storedPart := by
    have parts : w.storedBytes = (le 2 0x4A55 ++ le 1 1)
        ++ ((List.range 20).flatMap (fun i => w.itemValue (i + 1)) ++ crcBytes w.storedPart) := by
      simp only [Settings.storedBytes, Settings.storedPart, Settings.itemBytes, List.append_assoc]
    rw [parts]
    exact List.drop_left (l₁ := le 2 0x4A55 ++ le 1 1)
  have four : ∀ i ∈ List.range 20, (w.itemValue (i + 1)).length = 4 := fun i hi =>
    itemValue_length w (by have := List.mem_range.mp hi; omega)
  rw [← List.drop_drop, front, part_flatMap four (List.getElem?_range (List.mem_range.mp hi))]

/-- The three fields of a cell item (R186). -/
theorem cell_fields {c : CellSetting} (hg : c.group ≤ 3) (ho : c.offset < 65536) :
    field 0 1 c.value = (if c.enabled then 1 else 0) ∧ field 1 1 c.value = c.group ∧ field 2 2 c.value = c.offset := by
  unfold CellSetting.value
  rw [List.cons_append, field_head, boolByte_toNat, field_cons_skip _ _ _ (le_refl 1), Nat.sub_self, field_le_front,
    field_cons_skip _ _ _ (by omega), field_le_skip _ _ _ (by omega), field_le_alone]
  exact ⟨rfl, Nat.mod_eq_of_lt (Nat.lt_of_le_of_lt hg (by decide)), Nat.mod_eq_of_lt ho⟩

theorem cellOfValue_value {c : CellSetting} (hg : c.group ≤ 3) (ho : c.offset < 65536) : cellOfValue c.value = c := by
  obtain ⟨enabled, group, offset⟩ := cell_fields hg ho
  have flag : decide ((if c.enabled then 1 else 0) = 1) = c.enabled := by cases c.enabled <;> rfl
  unfold cellOfValue
  rw [enabled, group, offset, flag]

theorem clamp_of_range {lo hi v : Nat} (h : lo ≤ v ∧ v ≤ hi) : clamp lo hi v = v := by
  unfold clamp
  omega

/-- Legal windows leave every offset below the period. -/
theorem Settings.Legal.offset {w : Settings} (h : w.Legal) (c : Cell) : (w.cells.get c).offset + 1 ≤ w.period := by
  have fits := h.fits
  unfold Settings.fits windowsFit at fits
  dsimp only at fits
  rw [Bool.and_eq_true] at fits
  exact of_decide_eq_true (List.all_eq_true.mp fits.2 _ ((Quad.mem_toList _ _).mpr ⟨c, rfl⟩))

/-- Items taken from legal settings give these settings, whatever was held before. -/
theorem foldl_itemValue {w : Settings} (h : w.Legal) (u : Settings) :
    ((List.range 20).map fun i => (i + 1, w.itemValue (i + 1))).foldl (fun w i => w.withItem i.1 i.2) u = w := by
  have numbers : List.range 20 = [0, 1, 2, 3, 4, 5, 6, 7, 8, 9, 10, 11, 12, 13, 14, 15, 16, 17, 18, 19] := rfl
  have cell := fun c => cellOfValue_value (h.groups c) (by have := h.offset c; have := h.period; omega)
  have c0 := cell 0
  have c1 := cell 1
  have c2 := cell 2
  have c3 := cell 3
  obtain ⟨call, block, report, boost⟩ := h.costs
  have day := h.capacityDay.trans h.capacityNight.2
  have number : ∀ {n : Nat}, n ≤ 1000000 → leNat (le 4 n) = n := fun hn => leNat_le 4 _ (by omega)
  have small : ∀ {n hi : Nat}, n ≤ hi → clamp 0 hi n = n := fun hn => clamp_of_range ⟨Nat.zero_le _, hn⟩
  rw [numbers]
  simp only [Quad.get] at c0 c1 c2 c3
  simp only [List.map_cons, List.map_nil, List.foldl_cons, List.foldl_nil, Nat.reduceAdd, Settings.itemValue,
    Settings.withItem, c0, c1, c2, c3]
  rw [ofNat_leNat_le w.siteCode (by norm_num), ofNat_leNat_le w.enableMask (by norm_num),
    leNat_le 4 _ (lineRate_value_lt w.lineRate), lineRate_ofValue_value, number (by have := h.period; omega),
    number (by have := h.capacityNight; omega), clamp_of_range h.capacityNight, number (by omega),
    number (by omega), small call, number (by omega), small block, number (by omega), small report, number (by omega),
    small boost, number (by have := h.defaultAllowance; omega), number (by have := h.missLimit; omega),
    clamp_of_range h.missLimit, number (by have := h.guardBeacons; omega), small h.guardBeacons,
    number (by have := h.span; omega), clamp_of_range h.span, number (by have := h.refreshTime; omega),
    number (by have := h.outcomeTrigger; omega), clamp_of_range h.outcomeTrigger]
  rfl

/-- Legal settings are read back from their stored block (R180). -/
theorem settingsOfBytes_storedBytes {w : Settings} (h : w.Legal) : settingsOfBytes w.storedBytes = w := by
  unfold settingsOfBytes Settings.withItems
  rw [storedItems_storedBytes, foldl_itemValue h]
  dsimp only
  rw [Nat.min_eq_left h.capacityDay]

/-- The items of legal settings lie in their refused ranges (Table 10-1). -/
theorem itemValue_inRange {w : Settings} (h : w.Legal) {n : Nat} (hn : 1 ≤ n ∧ n ≤ 20) :
    itemInRange w.period n (w.itemValue n) = true := by
  have cell : ∀ c, cellInRange w.period (w.cells.get c).value = true := by
    intro c
    have offset := h.offset c
    have group := h.groups c
    obtain ⟨e, g, o⟩ := cell_fields group (by have := h.period; omega)
    unfold cellInRange
    rw [e, g, o, decide_eq_true group, decide_eq_true offset]
    cases (w.cells.get c).enabled <;> rfl
  have site := leNat_le_toNat 4 w.siteCode (by norm_num)
  have period := leNat_le 4 w.period (by have := h.period; omega)
  have allowance := leNat_le 4 w.defaultAllowance (by have := h.defaultAllowance; omega)
  have refresh := leNat_le 4 w.refreshTime (by have := h.refreshTime; omega)
  have rate := leNat_le 4 _ (lineRate_value_lt w.lineRate)
  obtain ⟨lo, hi⟩ := hn
  interval_cases n
  · exact decide_eq_true (site.trans_le (Nat.le_of_lt_succ w.siteCode.isLt))
  · exact Bool.and_eq_true_iff.mpr
      ⟨decide_eq_true (h.period.1.trans_eq period.symm), decide_eq_true (period.trans_le h.period.2)⟩
  · exact cell 0
  · exact cell 1
  · exact cell 2
  · exact cell 3
  -- the clamped items 7 to 12
  iterate 6 rfl
  · exact decide_eq_true (allowance.trans_le h.defaultAllowance)
  -- the clamped items 14 to 16
  iterate 3 rfl
  · exact decide_eq_true (refresh.trans_le h.refreshTime)
  -- the outcome trigger, which is clamped, and the mask
  iterate 2 rfl
  · exact (congrArg (fun n => (LineRate.ofValue n).isSome) rate).trans (by rw [lineRate_ofValue_value]; rfl)

/-- The stored block of legal settings is valid (R180). -/
theorem storedValid_storedBytes {w : Settings} (h : w.Legal) : storedValid w.storedBytes = true := by
  have part := storedPart_length w
  have drop : w.storedBytes.drop 83 = crcBytes w.storedPart := by
    rw [← part]
    exact List.drop_left
  have take : w.storedBytes.take 83 = w.storedPart := by
    rw [← part]
    exact List.take_left
  have signature : field 0 2 w.storedBytes = 0x4A55 := by
    simp only [Settings.storedBytes, Settings.storedPart, List.append_assoc]
    rw [field_le_front]
    rfl
  have version : field 2 1 w.storedBytes = 1 := by
    simp only [Settings.storedBytes, Settings.storedPart, List.append_assoc]
    rw [field_le_skip _ _ _ (le_refl 2), Nat.sub_self, field_le_front]
    rfl
  unfold storedValid
  rw [storedBytes_length, signature, version, drop, take, settingsOfBytes_storedBytes h, h.fits, storedItems_storedBytes]
  simp only [decide_true, Bool.true_and, Bool.and_true, List.all_map, List.all_eq_true]
  exact fun i hi => itemValue_inRange (n := i + 1) h (by have := List.mem_range.mp hi; omega)

theorem load_storedBytes {w : Settings} (h : w.Legal) : StoredBlock.load (.written w.storedBytes) = some w := by
  unfold StoredBlock.load
  dsimp only
  rw [settingsOfBytes_storedBytes h]
  exact if_pos (storedValid_storedBytes h)

/-! ### The report frame -/

/-- A report frame's bytes ahead of its check value. -/
def reportPart (r : Report) : List Byte :=
  0xB4 :: le 4 r.tagId.toNat ++ le 2 r.shown.toNat ++ le 2 r.staged.serial.toNat
    ++ [r.staged.condition.code] ++ le 1 r.nextBlock ++ le 1 r.wakeClass.val
    ++ le 3 ((r.boostEnd.map (·.toNat)).getD 0) ++ le 1 r.battery.val
    ++ [BitVec.ofNat 8 (r.flashDone.toNat + 2 * r.boostEnd.isSome.toNat)]

theorem reportFrame_eq (r : Report) : reportFrame r = reportPart r ++ crcBytes (reportPart r) := rfl

theorem reportPart_length (r : Report) : (reportPart r).length = 17 := by simp [reportPart]

theorem reportFrame_length (r : Report) : (reportFrame r).length = 19 := by
  rw [reportFrame_eq, List.length_append, reportPart_length, crcBytes_length]

theorem airChecked_reportFrame (r : Report) : airChecked 19 (reportFrame r) = true := by
  have part := reportPart_length r
  have drop : (reportFrame r).drop 17 = crcBytes (reportPart r) := by
    rw [reportFrame_eq, ← part]
    exact List.drop_left
  have take : (reportFrame r).take 17 = reportPart r := by
    rw [reportFrame_eq, ← part]
    exact List.take_left
  unfold airChecked
  rw [reportFrame_length, drop, take]
  simp

theorem settle_sendable {p : StagedPage} (h : p.serial = 0 ↔ p.condition = .nil) : settle p.serial p.condition = p := by
  obtain ⟨serial, condition⟩ := p
  dsimp only at h ⊢
  unfold settle
  by_cases hn : condition = .nil
  · rw [if_pos (.inr hn), h.mpr hn, hn]
  · rw [if_neg (by rw [h, or_self]; exact hn)]

/-- The fields of a report frame (Table 11-11). -/
structure ReportFields (r : Report) (bs : List Byte) : Prop where
  tagId     : field 1 4 bs = r.tagId.toNat
  shown     : field 5 2 bs = r.shown.toNat
  serial    : field 7 2 bs = r.staged.serial.toNat
  condition : field 9 1 bs = r.staged.condition.code.toNat
  nextBlock : field 10 1 bs = r.nextBlock % 256
  wakeClass : field 11 1 bs = r.wakeClass.val
  boostEnd  : field 12 3 bs = (r.boostEnd.map (·.toNat)).getD 0
  battery   : field 15 1 bs = r.battery.val
  flash     : (field 16 1 bs).testBit 0 = r.flashDone
  boosted   : (field 16 1 bs).testBit 1 = r.boostEnd.isSome

theorem reportFrame_fields (r : Report) : ReportFields r (reportFrame r) := by
  have tagId := toNat_mod_pow (n := 4) r.tagId (by norm_num)
  have shown := toNat_mod_pow (n := 2) r.shown (by norm_num)
  have serial := toNat_mod_pow (n := 2) r.staged.serial (by norm_num)
  have boost := toNat_getD_mod (n := 3) r.boostEnd (by norm_num)
  have w := r.wakeClass.isLt
  have b := r.battery.isLt
  rw [reportFrame_eq]
  unfold reportPart
  simp only [List.append_assoc, List.cons_append, List.nil_append]
  constructor
  all_goals
    simp (disch := omega) only [field_le_front, field_le_skip, field_cons_skip, field_head, Nat.sub_self, Nat.reduceSub]
  case tagId => exact tagId
  case shown => exact shown
  case serial => exact serial
  case nextBlock => rfl
  case wakeClass => exact Nat.mod_eq_of_lt (by omega)
  case boostEnd => exact boost
  case battery => exact Nat.mod_eq_of_lt (by omega)
  case flash => cases r.flashDone <;> cases r.boostEnd.isSome <;> rfl
  case boosted => cases r.flashDone <;> cases r.boostEnd.isSome <;> rfl

theorem ofNat_toNat_self {w : Nat} (v : BitVec w) : BitVec.ofNat w v.toNat = v := by simp

/-- A report that a tag may send is read back from its frame (R187, R188). -/
theorem decodeReport_reportFrame {r : Report} (h : r.Sendable) : decodeReport (reportFrame r) = some r := by
  obtain ⟨block, staged⟩ := h
  have f := reportFrame_fields r
  have next : r.nextBlock % 256 = r.nextBlock := Nat.mod_eq_of_lt (by omega)
  have wake : field 11 1 (reportFrame r) < 8 := by rw [f.wakeClass]; exact r.wakeClass.isLt
  have level : field 15 1 (reportFrame r) < 16 := by rw [f.battery]; exact r.battery.isLt
  have ok : airChecked 19 (reportFrame r) = true ∧ (reportFrame r).head? = some 0xB4 ∧ field 10 1 (reportFrame r) ≤ 32 :=
    ⟨airChecked_reportFrame r, rfl, by rw [f.nextBlock, next]; exact block⟩
  have boost : (if r.boostEnd.isSome = true then some (BitVec.ofNat 24 ((r.boostEnd.map (·.toNat)).getD 0)) else none)
      = r.boostEnd := by
    cases r.boostEnd with
    | none => rfl
    | some u => simp
  unfold decodeReport
  rw [f.condition, condition_ofCode_code]
  dsimp only
  rw [if_pos ok, dif_pos wake, dif_pos level, show (⟨_, wake⟩ : WakeClass) = r.wakeClass from Fin.ext f.wakeClass,
    show (⟨_, level⟩ : Fin 16) = r.battery from Fin.ext f.battery, f.tagId, f.shown, f.serial, f.nextBlock, f.boostEnd,
    f.flash, f.boosted, boost, next, ofNat_toNat_self, ofNat_toNat_self, ofNat_toNat_self, settle_sendable staged]

/-- Settles O18: the block's items and the report's fields are each read back at their place. -/
theorem roundTrips : Obligations.RoundTrips :=
  ⟨fun w h => ⟨storedBytes_length w, load_storedBytes h⟩, fun r h => ⟨reportFrame_length r, decodeReport_reportFrame h⟩⟩

/-! ### The supply (R180, R181) -/

theorem startUp_loaded {stored : StoredBlock} {w : Settings} (h : stored.load = some w) :
    stored.settings = w ∧ stored.defaulted = false := by
  unfold StoredBlock.settings StoredBlock.defaulted
  rw [h]
  exact ⟨rfl, rfl⟩

theorem startUp_defaulted {stored : StoredBlock} (h : stored = .unwritten ∨ stored = .damaged) :
    stored.settings = Settings.defaults ∧ stored.defaulted = true := by
  obtain rfl | rfl := h <;> exact ⟨rfl, rfl⟩

/-- The block that a start-up reads where no write was in progress (R181). -/
theorem startUp_block {s : State} (h : s.powered = false ∨ ∀ num copied, s.handler.task ≠ .saving num copied) :
    (if s.powered then blockAfterLoss s else s.store.stored) = s.store.stored := by
  obtain off | idle := h
  · rw [off]
    rfl
  · have same : blockAfterLoss s = s.store.stored := by
      unfold blockAfterLoss
      cases ht : s.handler.task with
      | saving num copied => exact absurd ht (idle num copied)
      | idle => rfl
      | resetting k => rfl
    rw [same, ite_self]

theorem exec_powerLoss {s : State} (hp : s.powered = true) : exec .powerLoss s = .next (powerLoss s) :=
  congrArg _ (event_powered hp _)

/-- Without supply no command but POWER_ON acts (log entry 9). -/
theorem exec_off (c : Instr) {s : State} (off : s.powered = false) (hc : ∀ heads, c ≠ .powerOn heads) :
    exec c s = .next s := by
  have event : ∀ act : State → State, event act s = s := event_off off
  have request : ∀ kind num payload act, request kind num payload act s = s := request_off off
  cases c
  case powerOn heads => exact absurd rfl (hc heads)
  case resetCold | resetWarm | setWakeTag | setWakeZone | unknownKind =>
    exact congrArg _ ((congrArg (ite _ s) (request ..)).trans (ite_self s))
  case settingsWriteEnd | resetActs | lineRateChange | outcomesReadyTimeout | hostByteReceived | idleGap | lineBreak | hold | go
      | outboundFrameSent | noticeMove | headLost | headReturned | beaconStart | refreshCrossing | cellBeaconInstant | slotEnd
      | joinSlotEnd | powerLoss =>
    exact congrArg _ (event _)
  all_goals exact congrArg _ (request ..)

/-- Settles O3: what POWER_ON builds is named by the block it reads. -/
theorem supplyRule : Obligations.SupplyRule := by
  unfold Obligations.SupplyRule
  refine ⟨fun c s off hc => exec_off c off hc, fun s hp => ⟨fun saving => ?_, fun idle => ?_⟩,
    fun heads w s loss => ⟨fun legal stored => ?_, fun stored => ?_⟩⟩
  · obtain ⟨num, copied, ht⟩ := saving
    rw [exec_powerLoss hp]
    unfold powerLoss blockAfterLoss
    rw [ht]
  · have same := startUp_block (s := s) (.inr idle)
    rw [hp, if_pos rfl] at same
    rw [exec_powerLoss hp]
    unfold powerLoss
    rw [same]
  · obtain ⟨settings, defaulted⟩ := startUp_loaded (stored := s.store.stored) (by rw [stored]; exact load_storedBytes legal)
    rw [exec_powerOn]
    unfold startUp
    rw [startUp_block loss, settings, defaulted]
    rfl
  · obtain ⟨settings, defaulted⟩ := startUp_defaulted stored
    rw [exec_powerOn]
    unfold startUp
    rw [startUp_block loss, settings, defaulted]
    rfl

end Sys2Proof.Machine
end


section
/-! The rules of the directory: next wakes, enrolment and removal, orders and allowances (R19 to R30). -/

namespace Sys2Proof.Machine

/-! ### Next wakes (R19) -/

/-- The distance to the next wake as R19 has it: the phase less the beacon, modulo the interval. -/
theorem wakeDistance_formula (w : WakeClass) (id : TagId) (b : Beacon) :
    (wakeDistance w id b : Int) = ((id.toNat : Int) % (2 ^ w.val : Nat) - b.toNat - 1) % (2 ^ w.val : Nat) + 1 := by
  have divides : ((2 ^ w.val : Nat) : Int) ∣ ((2 ^ 24 : Nat) : Int) :=
    Int.natCast_dvd_natCast.mpr (Nat.pow_dvd_pow 2 (by omega))
  have phase_lt : id.toNat % 2 ^ w.val < 2 ^ 24 :=
    (Nat.mod_lt _ (by positivity)).trans_le (Nat.pow_le_pow_right (by norm_num) (by omega))
  have value : ((BitVec.ofNat 24 (phase w id) - b - 1).toNat : Int)
      = ((id.toNat : Int) % (2 ^ w.val : Nat) - b.toNat - 1) % (2 ^ 24 : Nat) := by
    unfold phase interval
    rw [← Int.natCast_mod]
    generalize id.toNat % 2 ^ w.val = p at phase_lt
    bv_omega
  unfold wakeDistance interval
  rw [Nat.cast_add, Int.natCast_mod, value, Int.emod_emod_of_dvd _ divides]
  rfl

/-- The next wake lies 1..W beacons on, and has the tag's phase. -/
theorem wakeDistance_spec (w : WakeClass) (id : TagId) (b : Beacon) :
    1 ≤ wakeDistance w id b ∧ wakeDistance w id b ≤ 2 ^ w.val
      ∧ ∀ k, (b.toNat + k) % 2 ^ w.val = id.toNat % 2 ^ w.val ↔ k % 2 ^ w.val = wakeDistance w id b % 2 ^ w.val := by
  have formula := wakeDistance_formula w id b
  generalize wakeDistance w id b = d at formula
  fin_cases w <;> simp only at formula ⊢ <;> refine ⟨?_, ?_, fun k => ?_⟩ <;> omega

theorem nextWake_sub (w : WakeClass) (id : TagId) (b : Beacon) : (nextWake w id b - b).toNat = wakeDistance w id b := by
  obtain ⟨-, le_interval, -⟩ := wakeDistance_spec w id b
  have interval_lt : 2 ^ w.val < 2 ^ 24 := Nat.pow_lt_pow_right (by norm_num) (by omega)
  unfold nextWake
  bv_omega

/-- A number of beacons on, the remainder modulo an interval is that of the sum, across the wrap too. -/
theorem beacon_add_mod (w : WakeClass) (b : Beacon) (k : Nat) :
    (b + BitVec.ofNat 24 k).toNat % 2 ^ w.val = (b.toNat + k) % 2 ^ w.val := by
  have divides : 2 ^ w.val ∣ 2 ^ 24 := Nat.pow_dvd_pow 2 (by omega)
  rw [BitVec.toNat_add, BitVec.toNat_ofNat, Nat.add_mod_mod, Nat.mod_mod_of_dvd _ divides]

/-- Settles O27: the distance is the least number of beacons after b that brings the phase. -/
theorem nextWakeRule : Obligations.NextWakeRule := by
  intro w id b interval d
  obtain ⟨pos, le_interval, phase⟩ := wakeDistance_spec w id b
  have distance : d = wakeDistance w id b := nextWake_sub w id b
  rw [distance]
  refine ⟨pos, le_interval, ?_, fun k hk below => ?_, ?_⟩
  · exact (beacon_add_mod w b _).trans ((phase _).mpr rfl)
  · rw [beacon_add_mod, ne_eq, phase, Nat.mod_eq_of_lt (below.trans_le le_interval)]
    obtain lt | eq := Nat.lt_or_eq_of_le le_interval
    · rw [Nat.mod_eq_of_lt lt]
      omega
    · rw [eq, Nat.mod_self]
      omega
  · have formula := wakeDistance_formula w id b
    have cast : (nextWake w id b).toNat = (b.toNat + wakeDistance w id b) % 16777216 := by
      unfold nextWake
      rw [BitVec.toNat_add, BitVec.toNat_ofNat, Nat.add_mod_mod]
    rw [cast, Int.natCast_mod, Nat.cast_add, formula]
    rfl

end Sys2Proof.Machine
end

section
/-! The rules of enrolment, removal and allowances (R24 to R26, R30). -/

namespace Sys2Proof.Machine

theorem exec_setAllowance (num : Byte) (payload : List Byte) (s : State) :
    exec (.setAllowance num payload) s = .next (request 0x0F num payload (ofLength 6 payload (actSetAllowance payload)) s) := rfl

theorem exec_remove (num : Byte) (payload : List Byte) (s : State) :
    exec (.remove num payload) s = .next (request 0x0D num payload (ofLength 4 payload (actRemove payload)) s) := rfl

theorem exec_enrol (num : Byte) (payload : List Byte) (s : State) :
    exec (.enrol num payload) s = .next (request 0x0C num payload (ofLength 9 payload (actEnrol payload)) s) := rfl

/-- A tag id at the front of a payload. -/
theorem tagId_front (id : TagId) (bs : List Byte) : BitVec.ofNat 32 (field 0 4 (le 4 id.toNat ++ bs)) = id := by
  rw [field_le_front, toNat_mod_pow id (by norm_num), ofNat_toNat_self]

theorem tagId_alone (id : TagId) : BitVec.ofNat 32 (leNat (le 4 id.toNat)) = id := ofNat_leNat_le id (by norm_num)

/-! ### SET-ALLOWANCE -/

theorem withAllowance_allowance (a : Nat) (e : Entry) : (e.withAllowance a).allowance = a := by
  unfold Entry.withAllowance
  split <;> rfl

/-- Settles O31: the entry that the id names is lowered as the request says. -/
theorem setAllowanceRule : Obligations.SetAllowanceRule := by
  intro num id a s ready
  have given : field 4 2 (le 4 id.toNat ++ le 2 a.toNat) = a.toNat := by
    rw [field_le_skip 2 _ _ (by norm_num), Nat.sub_self, field_le_alone, toNat_mod_pow a (by norm_num)]
  rw [exec_setAllowance, request_ofLength_ready ready 0x0F num (by simp)]
  unfold actSetAllowance
  rw [tagId_front, given]
  refine ⟨fun none => ?_, fun e held => ?_⟩
  · rw [none]
    rfl
  · rw [held]
    dsimp only
    rw [withAllowance_allowance]
    rfl

/-! ### REMOVE -/

/-- Settles O29: by the live change of the entry that the id names. -/
theorem removeRule : Obligations.RemoveRule := by
  intro num id s ready
  rw [exec_remove, request_ofLength_ready ready 0x0D num (le_length 4 _)]
  unfold actRemove
  rw [tagId_alone]
  refine ⟨fun none => ?_, fun e held none => ?_, fun e r held live queued => ?_, fun e r held live other => ?_⟩
  · rw [none]
    rfl
  · rw [held]
    dsimp only
    rw [none]
    rfl
  · rw [held]
    dsimp only
    rw [live]
    dsimp only
    rw [if_pos queued]
    rfl
  · rw [held]
    dsimp only
    rw [live]
    dsimp only
    rw [if_neg other]
    rfl

/-! ### ENROL -/

theorem entryOf_isSome_iff (s : State) (id : TagId) : (s.entryOf id).isSome = true ↔ ∃ e ∈ s.dir.entries, e.tagId = id := by
  simp [State.entryOf]

theorem invalidId_iff (id : TagId) : invalidId id = true ↔ id = 0 ∨ id = 0xFFFFFFFF := by simp [invalidId]

/-- The lowest free position is found. -/
theorem firstFree_of_free {es : List Entry} {n a b : Nat} (ha : a ≤ b) (hb : b < a + n) (free : ∀ e ∈ es, e.addr ≠ b)
    (below : ∀ p, a ≤ p → p < b → ∃ e ∈ es, e.addr = p) : firstFree es n a = some b := by
  induction n generalizing a with
  | zero => omega
  | succ n ih =>
    unfold firstFree
    obtain rfl | lt := Nat.eq_or_lt_of_le ha
    · rw [if_neg (by simpa using free)]
    · rw [if_pos (by simpa using below a le_rfl lt)]
      exact ih lt (by omega) fun p hp => below p (by omega)

theorem firstFree_none {es : List Entry} {n a : Nat} (full : ∀ p, a ≤ p → p < a + n → ∃ e ∈ es, e.addr = p) :
    firstFree es n a = none := by
  induction n generalizing a with
  | zero => rfl
  | succ n ih =>
    unfold firstFree
    rw [if_pos (by simpa using full a le_rfl (by omega))]
    exact ih fun p hp lt => full p (by omega) (by omega)

/-- What ENROL reads from its payload (Table 11-1). -/
theorem enrolPayload_fields (zone page wclass : Byte) (id : TagId) (given : BitVec 16) :
    let payload := le 4 id.toNat ++ [zone, page, wclass] ++ le 2 given.toNat
    payload.length = 9 ∧ BitVec.ofNat 32 (field 0 4 payload) = id ∧ BitVec.ofNat 8 (field 4 1 payload) = zone
      ∧ field 5 1 payload = page.toNat ∧ field 6 1 payload = wclass.toNat ∧ field 7 2 payload = given.toNat := by
  intro payload
  have spelled : payload = le 4 id.toNat ++ zone :: page :: wclass :: le 2 given.toNat := by simp [payload]
  rw [spelled]
  refine ⟨by simp, tagId_front id _, ?_, ?_, ?_, ?_⟩
  all_goals simp (disch := omega) only [field_le_skip, field_cons_skip, field_head, Nat.sub_self, Nat.reduceSub, field_le_alone]
  · exact ofNat_toNat_self zone
  · exact toNat_mod_pow given (by norm_num)

/-- Settles O28: the tests in their order, and the lowest free position. -/
theorem enrolRule : Obligations.EnrolRule := by
  intro num zone page wclass id given s ready
  obtain ⟨length, hid, hzone, hpage, hclass, hgiven⟩ := enrolPayload_fields zone page wclass id given
  have allowance : given.toNat = 0xFFFF ↔ given = 0xFFFF := (BitVec.toNat_inj (x := given) (y := 0xFFFF))
  intro payload
  rw [exec_enrol, request_ofLength_ready ready 0x0C num length]
  unfold actEnrol
  dsimp only
  rw [hid, hzone, hclass, hgiven]
  change field 5 1 payload = _ at hpage
  generalize field 5 1 payload = p at hpage
  subst hpage
  simp only [allowance, entryOf_isSome_iff, invalidId_iff]
  refine ⟨fun bad => ?_, fun hp h0 h1 held => ?_, fun hp pos h0 h1 free lt high low => ?_, fun hp h0 h1 free full => ?_⟩
  · by_cases hp : page.toNat < 4
    · rw [dif_pos hp, if_pos (bad.resolve_left (by omega))]
      rfl
    · rw [dif_neg hp]
      rfl
  · rw [dif_pos (show page.toNat < 4 by omega), if_neg (not_or_intro h0 h1), if_pos held]
    rfl
  · rw [dif_pos hp, if_neg (not_or_intro h0 h1), if_neg free,
      firstFree_of_free (Nat.zero_le _) (by omega) high fun p _ => low p]
    rfl
  · rw [dif_pos (show page.toNat < 4 by omega), if_neg (not_or_intro h0 h1), if_neg free,
      firstFree_none fun p _ hp => full p (by omega)]
    rfl

end Sys2Proof.Machine
end

section
/-! What the Call Planner does when it is told of a tag, and the orders that tell it (R27 to R29, R121 to R123). -/

namespace Sys2Proof.Machine

/-! ### Filing -/

theorem mem_allFour (c : Cell) : c ∈ allFour := by fin_cases c <;> decide

theorem calendarOf_isSome_iff (s : State) (a : Nat) :
    (s.calendarOf a).isSome = true ↔ ∃ d, ∃ y ∈ s.planner.calendar.get d, y.addr = a := by
  simp [State.calendarOf, List.findSome?_isSome_iff, mem_allFour]

/-- A filing is due where R122 says. -/
theorem fileDue_filedFor (s : State) (e : Entry) (h : Cell) : FiledFor s e h (s.fileDue e h) := by
  have head := List.head?_filter (p := fun x => decide (x.addr = e.addr) && x.confirmed) (l := s.planner.boosts.get h)
  unfold FiledFor State.fileDue
  dsimp only
  rw [← head]
  cases hb : (s.planner.boosts.get h).filter fun x => decide (x.addr = e.addr) && x.confirmed with
  | nil => exact ⟨fun ne => absurd rfl ne, fun _ => rfl⟩
  | cons x xs =>
    refine ⟨fun _ run => ?_, fun past => ?_⟩
    · exact if_pos (decide_eq_true (run x List.mem_cons_self))
    · exact if_neg fun run => absurd (of_decide_eq_true run) (Nat.not_lt.mpr (past x List.mem_cons_self))

/-- A tag without a calendar entry gains one by a filing, and the other entries stay. -/
theorem mem_placeCalendar_new {a : Nat} {h : Cell} {due : Beacon} {s : State}
    (unfiled : ¬ ∃ d, ∃ y ∈ s.planner.calendar.get d, y.addr = a) (d : Cell) (y : CalendarEntry) :
    y ∈ (placeCalendar h ⟨a, due⟩ s).planner.calendar.get d
      ↔ y ∈ s.planner.calendar.get d ∨ d = h ∧ y = ⟨a, due⟩ := by
  rw [mem_placeCalendar]
  constructor
  · rintro (new | ⟨old, -⟩)
    · exact .inr new
    · exact .inl old
  · rintro (old | new)
    · exact .inr ⟨old, fun same => unfiled ⟨d, y, old, same⟩⟩
    · exact .inl new

theorem hasWork_iff_live (s : State) (e : Entry) : s.hasWork e = true ↔ e.commanded.isSome = true ∨ e.flash = true
    ∨ ∃ r, s.liveRecord e = some r
      ∧ (r.state = .queued ∨ r.state = .sending ∨ r.state = .withdrawing ∨ r.state = .verifying) := by
  rw [hasWork_iff, Option.any_eq_true_iff_get]
  cases s.liveRecord e <;> simp

/-! What a work notice does, by the entry at its address (Table 7-2). -/

theorem workNotice_none {a : Nat} {s : State} (none : s.entryAt a = none) : workNotice a s = s := by
  unfold workNotice
  rw [none]

theorem workNotice_absent {a : Nat} {s : State} {e : Entry} (he : s.entryAt a = some e) (hs : e.state ≠ .present) :
    workNotice a s = s := by
  unfold workNotice
  rw [he]
  exact if_neg hs

theorem workNotice_idle {a : Nat} {s : State} {e : Entry} (he : s.entryAt a = some e) (hs : e.state = .present)
    (idle : ¬ s.hasWork e = true) : workNotice a s = dropCalendar a s := by
  unfold workNotice
  rw [he]
  exact (if_pos hs).trans (if_neg idle)

theorem workNotice_filed {a : Nat} {s : State} {e : Entry} (he : s.entryAt a = some e) (hs : e.state = .present)
    (work : s.hasWork e = true) (filed : (s.calendarOf a).isSome = true) : workNotice a s = s := by
  unfold workNotice
  rw [he]
  exact (if_pos hs).trans ((if_pos work).trans (if_pos filed))

theorem workNotice_files {a : Nat} {s : State} {e : Entry} {h : Cell} (he : s.entryAt a = some e) (hs : e.state = .present)
    (work : s.hasWork e = true) (unfiled : ¬ (s.calendarOf a).isSome = true) (home : e.home = some h) :
    workNotice a s = placeCalendar h ⟨a, s.fileDue e h⟩ s := by
  unfold workNotice
  rw [he]
  refine (if_pos hs).trans ((if_pos work).trans ((if_neg unfiled).trans ?_))
  unfold fileTag
  rw [he]
  dsimp only
  rw [home]

theorem workNotice_homeless {a : Nat} {s : State} {e : Entry} (he : s.entryAt a = some e) (hs : e.state = .present)
    (work : s.hasWork e = true) (unfiled : ¬ (s.calendarOf a).isSome = true) (home : e.home = none) :
    workNotice a s = s := by
  unfold workNotice
  rw [he]
  refine (if_pos hs).trans ((if_pos work).trans ((if_neg unfiled).trans ?_))
  unfold fileTag
  rw [he]
  dsimp only
  rw [home]

/-- The Call Planner's response is that of Table 7-2. -/
theorem workNotice_taken (a : Nat) (s : State) : NoticeTaken a s (workNotice a s) := by
  refine ⟨workNotice_none, fun e he => ⟨workNotice_absent he, fun hs work filed => ?_, fun h hs work unfiled home => ?_,
    fun hs idle => ?_⟩⟩
  · exact workNotice_filed he hs ((hasWork_iff_live s e).mpr work) ((calendarOf_isSome_iff s a).mpr filed)
  · have files := workNotice_files he hs ((hasWork_iff_live s e).mpr work)
      (fun filed => unfiled ((calendarOf_isSome_iff s a).mp filed)) home
    refine ⟨s.fileDue e h, _, fileDue_filedFor s e h, files, mem_placeCalendar_new unfiled⟩
  · refine ⟨_, workNotice_idle he hs fun work => idle ((hasWork_iff_live s e).mp work), fun d y => ?_⟩
    exact mem_dropCalendar (s := s)

/-! ### Orders one by one and all together -/

/-- The entries of some short addresses changed by `f`. -/
def updEntries (as : List Nat) (f : Entry → Entry) (s : State) : State :=
  { s with dir.entries := s.dir.entries.map fun e => if e.addr ∈ as then f e else e }

theorem updEntries_nil (f : Entry → Entry) (s : State) : updEntries [] f s = s := by
  unfold updEntries
  simp

theorem updEntries_cons {f : Entry → Entry} (hf : ∀ e, (f e).addr = e.addr) {a : Nat} {as : List Nat} (ha : a ∉ as) (s : State) :
    updEntries (a :: as) f s = updEntries as f (updEntry a f s) := by
  unfold updEntries updEntry
  simp only [List.map_map]
  congr 2
  refine List.map_congr_left fun e _ => ?_
  by_cases he : e.addr = a
  · simp [he, hf, ha]
  · simp [he]

/-- The entry at an address that is not changed. -/
theorem entryAt_updEntries {f : Entry → Entry} (hf : ∀ e, (f e).addr = e.addr) {a : Nat} {as : List Nat} (ha : a ∉ as) (s : State) :
    (updEntries as f s).entryAt a = s.entryAt a := by
  unfold updEntries State.entryAt
  induction s.dir.entries with
  | nil => rfl
  | cons e es ih =>
    rw [List.map_cons, List.find?_cons, List.find?_cons, ih]
    by_cases he : e.addr = a
    · rw [if_neg (he ▸ ha)]
    · have other : (if e.addr ∈ as then f e else e).addr ≠ a := by split <;> simp [hf, he]
      rw [decide_eq_false he, decide_eq_false other]

/-- Telling the Call Planner of a tag looks at its own entry alone. -/
theorem workNotice_updEntries {f : Entry → Entry} (hf : ∀ e, (f e).addr = e.addr) {a : Nat} {as : List Nat} (ha : a ∉ as)
    (s : State) : workNotice a (updEntries as f s) = updEntries as f (workNotice a s) := by
  have same := entryAt_updEntries hf ha s
  cases he : s.entryAt a with
  | none => rw [workNotice_none he, workNotice_none (same.trans he)]
  | some e =>
    have he' := same.trans he
    by_cases hs : e.state = .present
    · by_cases work : s.hasWork e = true
      · by_cases filed : (s.calendarOf a).isSome = true
        · rw [workNotice_filed he hs work filed, workNotice_filed he' hs work filed]
        · cases home : e.home with
          | some h =>
            rw [workNotice_files he hs work filed home, workNotice_files he' hs work filed home]
            rfl
          | none => rw [workNotice_homeless he hs work filed home, workNotice_homeless he' hs work filed home]
      · rw [workNotice_idle he hs work, workNotice_idle he' hs work]
        rfl
    · rw [workNotice_absent he hs, workNotice_absent he' hs]

/-- Orders given one by one, each told at once, are the orders given together and then told. -/
theorem orderEntries_together {f : Entry → Entry} (hf : ∀ e, (f e).addr = e.addr) (es : List Entry)
    (nodup : (es.map (·.addr)).Nodup) (s : State) :
    es.foldl (fun s e => orderEntry e.addr f s) s
      = es.foldl (fun s e => workNotice e.addr s) (updEntries (es.map (·.addr)) f s) := by
  induction es generalizing s with
  | nil => exact (updEntries_nil f s).symm
  | cons e es ih =>
    obtain ⟨fresh, rest⟩ := List.nodup_cons.mp nodup
    rw [List.foldl_cons, List.foldl_cons, ih rest, List.map_cons, updEntries_cons hf fresh, workNotice_updEntries hf fresh]
    rfl

/-! ### SET-WAKE and LOCATE -/

theorem exec_setWakeTag (num : Byte) (payload : List Byte) (s : State) :
    exec (.setWakeTag num payload) s = .next (if namesWakeForm 1 payload then s
      else request 0x0E num payload (ofLength 6 payload fun s =>
        if payload.head? = some 0 then actSetWakeTag payload s else refuse .badValue s) s) := rfl

theorem exec_setWakeZone (num : Byte) (payload : List Byte) (s : State) :
    exec (.setWakeZone num payload) s = .next (if namesWakeForm 0 payload then s
      else request 0x0E num payload (ofLength 6 payload fun s =>
        if payload.head? = some 1 then actSetWakeZone payload s else refuse .badValue s) s) := rfl

theorem exec_locate (num : Byte) (payload : List Byte) (s : State) :
    exec (.locate num payload) s = .next (request 0x10 num payload (ofLength 4 payload (actLocate payload)) s) := rfl

theorem namesWakeForm_cons (k form : Byte) (rest : List Byte) (h : rest.length = 5) :
    namesWakeForm k (form :: rest) = decide (form = k) := by
  simp [namesWakeForm, h]

/-- What an order leaves of the line: the reply joins the queue as it stood. -/
theorem workNotice_line (a : Nat) (s : State) : (workNotice a s).line = s.line := (workNotice_base a s).line

/-- The tag form's payload names its form, its tag and its class (Table 11-1). -/
theorem setWakeTag_fields (id : TagId) (wclass : Byte) :
    let payload : List Byte := 0 :: le 4 id.toNat ++ [wclass]
    BitVec.ofNat 32 (field 1 4 payload) = id ∧ field 5 1 payload = wclass.toNat := by
  intro payload
  constructor
  all_goals simp (disch := omega) only [payload, List.cons_append, field_cons_skip, Nat.sub_self, Nat.reduceSub, field_le_skip,
    field_head]
  exact tagId_front id [wclass]

/-- What the zone form does to an entry. -/
theorem orderClass_zone {w : WakeClass} {e : Entry} (same : (e.orderClass w).commanded = e.commanded) : e.orderClass w = e := by
  change (if w = e.believed then none else some w) = e.commanded at same
  unfold Entry.orderClass
  rw [same]

theorem mem_addrs_iff {es : List Entry} (nodup : (es.map (·.addr)).Nodup) (p : Entry → Bool) {e : Entry} (he : e ∈ es) :
    e.addr ∈ (es.filter p).map (·.addr) ↔ p e = true := by
  constructor
  · intro h
    obtain ⟨d, hd, same⟩ := List.mem_map.mp h
    obtain ⟨hd, pd⟩ := List.mem_filter.mp hd
    rwa [← List.inj_on_of_nodup_map nodup hd he same]
  · exact fun h => List.mem_map_of_mem (List.mem_filter.mpr ⟨he, h⟩)

/-- Orders of a class on the entries that it changes are orders on all of them. -/
theorem updEntries_orderClass {s : State} (nodup : (s.dir.entries.map (·.addr)).Nodup) (w : WakeClass) (zone : Byte) :
    updEntries ((s.dir.entries.filter fun e => decide (e.zone.toNat = zone.toNat) && e.orderChanges w).map (·.addr)) (Entry.orderClass w) s
      = { s with dir.entries := s.dir.entries.map fun e => if e.zone = zone then e.orderClass w else e } := by
  refine congrArg (fun es => ({ s with dir.entries := es } : State)) (List.map_congr_left fun e he => ?_)
  rw [if_congr (mem_addrs_iff nodup _ he) rfl rfl]
  by_cases hz : e.zone = zone
  · rw [if_pos hz]
    by_cases same : (e.orderClass w).commanded = e.commanded
    · rw [orderClass_zone same, ite_self]
    · exact if_pos ((Bool.and_eq_true _ _).mpr ⟨decide_eq_true (congrArg _ hz), decide_eq_true same⟩)
  · rw [if_neg hz]
    exact if_neg fun h => hz (BitVec.eq_of_toNat_eq (of_decide_eq_true ((Bool.and_eq_true _ _).mp h).1))

/-- A class ordered, as R27 has it. -/
theorem orderClass_eq (n : Nat) (x : Entry) : x.orderClass (clampClass n)
    = { x with commanded := if min n 7 = x.believed.val then none else some ⟨min n 7, by omega⟩ } := by
  unfold Entry.orderClass
  congr 1
  exact if_congr (Fin.ext_iff (a := clampClass n)) rfl rfl

/-- What is told of the tags leaves the line. -/
theorem foldl_workNotice_line (es : List Entry) (s : State) : (es.foldl (fun s e => workNotice e.addr s) s).line = s.line := by
  induction es generalizing s with
  | nil => rfl
  | cons e es ih => exact (ih _).trans (workNotice_line e.addr s)

theorem setWakeZone_fields (zone x y z wclass : Byte) :
    field 1 1 [1, zone, x, y, z, wclass] = zone.toNat ∧ field 5 1 [1, zone, x, y, z, wclass] = wclass.toNat := by
  constructor <;> simp (disch := omega) only [field_cons_skip, Nat.sub_self, Nat.reduceSub, field_head]

/-- A tag-form row on a payload that names the form (R27). -/
theorem setWakeTag_next {s : State} (ready : Ready s) (num : Byte) (rest : List Byte) (h : rest.length = 5) :
    exec (.setWakeTag num (0 :: rest)) s = .next (answerWith 0x0E num (actSetWakeTag (0 :: rest) s)) := by
  rw [exec_setWakeTag, namesWakeForm_cons _ _ _ h, if_neg (by decide),
    request_ofLength_ready ready 0x0E num (congrArg (· + 1) h)]
  rfl

/-- A zone-form row on a payload that names the form (R28). -/
theorem setWakeZone_next {s : State} (ready : Ready s) (num : Byte) (rest : List Byte) (h : rest.length = 5) :
    exec (.setWakeZone num (1 :: rest)) s = .next (answerWith 0x0E num (actSetWakeZone (1 :: rest) s)) := by
  rw [exec_setWakeZone, namesWakeForm_cons _ _ _ h, if_neg (by decide),
    request_ofLength_ready ready 0x0E num (congrArg (· + 1) h)]
  rfl

/-- A payload that names neither form is refused, in either row (R28; log entry 21). -/
theorem setWake_refused (num form a b c d wclass : Byte) {s : State} (ready : Ready s) (other : 1 < form.toNat) :
    let refused : Out := .next { s with line.outbound := s.line.outbound ++ [⟨0x8E, num, 0x03, []⟩] }
    exec (.setWakeTag num [form, a, b, c, d, wclass]) s = refused
      ∧ exec (.setWakeZone num [form, a, b, c, d, wclass]) s = refused := by
  have not_tag : form ≠ 0 := by rintro rfl; exact absurd other (by decide)
  have not_zone : form ≠ 1 := by rintro rfl; exact absurd other (by decide)
  rw [exec_setWakeTag, exec_setWakeZone, namesWakeForm_cons _ _ _ rfl, namesWakeForm_cons _ _ _ rfl, decide_eq_false not_tag,
    decide_eq_false not_zone, request_ofLength_ready ready 0x0E num (n := 6) rfl, request_ofLength_ready ready 0x0E num (n := 6) rfl]
  exact ⟨congrArg (fun a => Host.Outcome.next (answerWith 0x0E num a)) (if_neg (mt Option.some.inj not_tag)),
    congrArg (fun a => Host.Outcome.next (answerWith 0x0E num a)) (if_neg (mt Option.some.inj not_zone))⟩

/-- The OK reply of a request that left the line as it was. -/
theorem answer_okWith (kind num : Byte) (data : List Byte) {s t : State} (line : t.line = s.line) :
    (Host.Outcome.next (answerWith kind num (okWith data t)) : Out)
      = .next { t with line.outbound := s.line.outbound ++ [⟨kind + 0x80, num, 0x00, data⟩] } := by
  rw [← line]
  rfl

/-- Settles O30: the orders one by one are the orders together. -/
theorem orderRule : Obligations.OrderRule := by
  refine ⟨workNotice_taken, fun num form a b c d wclass s ready other => setWake_refused num form a b c d wclass ready other,
    fun num wclass id s ready => ?_, fun num zone wclass x y z s ready nodup => ?_⟩
  · obtain ⟨hid, hclass⟩ := setWakeTag_fields id wclass
    rw [List.cons_append, setWakeTag_next ready num _ (by simp), ← List.cons_append, exec_locate,
      request_ofLength_ready ready 0x10 num (le_length 4 _)]
    unfold actSetWakeTag actLocate
    rw [hid, hclass, tagId_alone]
    refine ⟨fun e held => ?_, fun none => ?_⟩
    · rw [held]
      dsimp only
      refine ⟨⟨_, rfl, ?_⟩, fun pending => ?_, fun clear => ⟨_, rfl, ?_⟩⟩
      · rw [answer_okWith _ _ _ (orderEntry_base _ _ s).line]
        unfold orderEntry
        simp only [updEntry, orderClass_eq]
        rfl
      · rw [pending]
        rfl
      · rw [clear]
        exact answer_okWith _ _ _ (orderEntry_base _ _ s).line
    · rw [none]
      exact ⟨rfl, rfl⟩
  · obtain ⟨hzone, hclass⟩ := setWakeZone_fields zone x y z wclass
    intro order changed
    have zoned (e : Entry) : order e = if e.zone = zone then e.orderClass (clampClass wclass.toNat) else e := by
      rw [orderClass_eq]
    have same : (s.dir.entries.filter fun e => decide (e.zone.toNat = zone.toNat) && e.orderChanges (clampClass wclass.toNat))
        = changed := by
      refine List.filter_congr fun e _ => Bool.eq_iff_iff.mpr ?_
      rw [Bool.and_eq_true, decide_eq_true_iff, decide_eq_true_iff, BitVec.toNat_inj, zoned]
      by_cases hz : e.zone = zone
      · rw [if_pos hz]
        exact (and_iff_right hz).trans decide_eq_true_iff
      · rw [if_neg hz]
        simp [hz]
    have together : updEntries (changed.map (·.addr)) (Entry.orderClass (clampClass wclass.toNat)) s
        = { s with dir.entries := s.dir.entries.map order } := by
      rw [← same, updEntries_orderClass nodup, funext zoned]
    refine ⟨_, rfl, ?_⟩
    rw [setWakeZone_next ready num _ rfl]
    unfold actSetWakeZone
    dsimp only
    rw [hzone, hclass, same, orderEntries_together (f := Entry.orderClass (clampClass wclass.toNat)) (fun _ => rfl) changed (nodup.sublist (List.filter_sublist.map _)), together]
    exact answer_okWith _ _ _ (foldl_workNotice_line changed _)

end Sys2Proof.Machine
end

section
/-! The rules of the refresh (R116 to R119) and of opening a campaign (R89 to R91). -/

namespace Sys2Proof.Machine

/-! ### The refresh -/

theorem exec_refreshCrossing {s : State} (hp : s.powered = true) : exec .refreshCrossing s = .next (refreshCrossing s) :=
  congrArg _ (event_powered hp _)

theorem exec_refreshBudgets (num : Byte) (s : State) :
    exec (.refreshBudgets num []) s = .next (request 0x13 num [] (ofLength 0 [] fun s =>
      let n := refreshCounts s
      okWith (le 2 n.1 ++ le 2 n.2.1 ++ le 2 n.2.2) (refresh s)) s) := rfl

/-- A refresh leaves all but the accounts and what its finishings change. -/
theorem refresh_frame (s : State) : SameBase (renewedState s) (refresh s) ∧ SameTags (renewedState s) (refresh s) := by
  rw [refresh_eq]
  exact foldl_keeps (fun s t => SameBase s t ∧ SameTags s t) (fun _ => ⟨.rfl, .rfl⟩)
    (fun _ _ _ h k => ⟨h.1.trans k.1, h.2.trans k.2⟩) (fun u (x : Serial × OutcomeCode) => finish x.1 x.2 false u)
    (fun u x => ⟨(finish_frame x.1 x.2 false u).1, (finish_frame x.1 x.2 false u).2.1⟩) _ _

/-- Table 6-4, level 0 tested before the levels 1 to 3. -/
theorem scaledAllowance_some (a : Nat) (b : Fin 16) :
    scaledAllowance a (some b) = if 4 ≤ b.val then a else if b.val = 0 then 0 else a / 2 := by
  unfold scaledAllowance
  by_cases hb : b.val = 0
  · simp [hb]
  · simp [hb, Nat.one_le_iff_ne_zero]

/-- Settles O34: each account is renewed by its level, and each live change of an entry left at 0 ends by its state. -/
theorem refreshRule : Obligations.RefreshRule := by
  intro num s hp scaled renewed r ended t
  have level (e : Entry) : scaledAllowance e.allowance e.battery = scaled e := by
    dsimp only [scaled]
    cases e.battery with
    | none => rfl
    | some b => exact scaledAllowance_some e.allowance b
  have scaled_eq (e : Entry) : e.renewed = { e with effective := scaled e, remaining := scaled e } := by
    unfold Entry.renewed
    rw [level]
  have renewed_eq : renewedState s = r := by
    unfold renewedState
    rw [funext scaled_eq]
  have ended_eq : refreshList s = ended := by
    unfold refreshList renewedState
    rw [List.filterMap_map, funext scaled_eq]
    refine List.filterMap_congr fun e _ => ?_
    dsimp only [Function.comp, refreshEnds]
    refine if_congr Iff.rfl ?_ rfl
    change (s.liveRecord e).bind _ = _
    cases s.liveRecord e with
    | none => rfl
    | some q =>
      dsimp only [Option.bind_some]
      cases q.state <;> rfl
  have refreshed : refresh s = t := by rw [refresh_eq, renewed_eq, ended_eq]
  have frame := refresh_frame s
  rw [renewed_eq, refreshed] at frame
  refine ⟨frame.1, frame.2, fun set => ?_, fun unset => ?_, fun ready => ?_⟩
  · rw [exec_refreshCrossing hp, ← refreshed]
    exact congrArg _ (if_pos set)
  · rw [exec_refreshCrossing hp]
    exact congrArg _ (if_neg (by rw [unset]; exact Bool.false_ne_true))
  · have counts : refreshCounts s
        = (s.dir.entries.length, s.dir.entries.countP fun e => decide (scaled e = 0), ended.length) := by
      change ((renewedState s).dir.entries.length, (renewedState s).dir.entries.countP _, (refreshList s).length) = _
      rw [ended_eq, renewed_eq]
      simp only [r, renewed, List.length_map, List.countP_map]
      rfl
    rw [exec_refreshBudgets, request_ofLength_ready ready 0x13 num List.length_nil]
    dsimp only
    rw [counts, refreshed, answer_okWith _ _ _ frame.1.line]
    rfl

/-! ### OPEN-CAMPAIGN -/

theorem exec_openCampaign (num : Byte) (payload : List Byte) (s : State) :
    exec (.openCampaign num payload) s
      = .next (request 0x14 num payload (ofLength 6 payload (actOpenCampaign payload)) s) := rfl

/-- The beacon distance of R90 is the first at or after the activation time. -/
theorem beaconDistance_spec (tB : Int) (lf : Nat) {l : Nat} (hl : 0 < l) (tau : Int) :
    let d := beaconDistance tB lf l tau
    let start := fun d : Nat => tB + lf + ((d : Int) - 1) * l
    1 ≤ d ∧ tau ≤ start d ∧ (2 ≤ d → start (d - 1) < tau) := by
  unfold beaconDistance
  dsimp only
  split
  · next first => exact ⟨le_rfl, by simpa using first, fun h => absurd h (by norm_num)⟩
  · next later =>
    obtain ⟨x, hx⟩ : ∃ x : Nat, tau - (tB + lf) = x := ⟨_, (Int.toNat_of_nonneg (by omega)).symm⟩
    rw [hx, Int.toNat_natCast]
    have above : x ≤ (x + l - 1) / l * l := by
      have := Nat.lt_div_mul_add (a := x + l - 1) hl
      omega
    have below : (x + l - 1) / l * l ≤ x + l - 1 := Nat.div_mul_le_self _ _
    generalize (x + l - 1) / l = m at above below
    have pos : 1 ≤ m := by
      rcases Nat.eq_zero_or_pos m with rfl | h
      · omega
      · exact h
    refine ⟨by omega, ?_, fun _ => ?_⟩
    · push_cast
      have : (x : Int) ≤ m * l := by exact_mod_cast above
      linarith
    · obtain ⟨n, rfl⟩ := Nat.exists_eq_add_of_le' pos
      have : ((n : Int) + 1) * l < x + l := by
        have : (n + 1) * l < x + l := by omega
        exact_mod_cast this
      rw [show 1 + (n + 1) - 1 = n + 1 by omega]
      push_cast
      linarith

/-- The lead is taken from the start of the beacon `d` on. -/
theorem leadTicks_eq (tB : Int) (lf l : Nat) (tau : Int) {d : Nat} (hd : 1 ≤ d) :
    leadTicks tB lf l tau d = (tB + lf + ((d : Int) - 1) * l - tau).toNat := by
  unfold leadTicks
  push_cast [Nat.cast_sub hd]
  rfl

/-- What OPEN-CAMPAIGN reads from its payload (Table 11-1). -/
theorem openPayload_fields (n p : Byte) (time : BitVec 32) :
    let payload := n :: le 4 time.toNat ++ [p]
    field 0 1 payload = n.toNat ∧ BitVec.ofNat 32 (field 1 4 payload) = time ∧ field 5 1 payload = p.toNat := by
  intro payload
  refine ⟨field_head _ _, ?_, ?_⟩
  all_goals simp (disch := omega) only [payload, List.cons_append, field_cons_skip, Nat.sub_self, Nat.reduceSub, field_le_skip,
    field_head]
  exact tagId_front time [p]

theorem latePolicy_ofCode_none {p : Byte} (h : 1 < p.toNat) : LatePolicy.ofCode p.toNat = none := by
  unfold LatePolicy.ofCode
  rw [if_neg (by omega), if_neg (by omega)]

theorem latePolicy_ofCode_some {p : Byte} (h : p.toNat ≤ 1) :
    LatePolicy.ofCode p.toNat = some (if p = 0 then .apply else .drop) := by
  have zero : p.toNat = 0 ↔ p = 0 := BitVec.toNat_inj (x := p) (y := 0)
  unfold LatePolicy.ofCode
  by_cases hp : p = 0
  · rw [if_pos (zero.mpr hp), if_pos hp]
  · have one : p.toNat = 1 := by
      have := mt zero.mp hp
      omega
    rw [if_neg (mt zero.mp hp), if_pos one, if_neg hp]

/-- Settles O35: the tests in their order, and the distance of R90. -/
theorem openCampaignRule : Obligations.OpenCampaignRule := by
  intro num n p time s ready payload refused tau begun
  obtain ⟨hn, htime, hp⟩ := openPayload_fields n p time
  have answer : exec (.openCampaign num payload) s = .next (answerWith 0x14 num (actOpenCampaign payload s)) := by
    rw [exec_openCampaign, request_ofLength_ready ready 0x14 num (by simp [payload])]
  have ticks : ((time.toNat * 1024 : Nat) : Int) = tau := by
    dsimp only [tau]
    push_cast
    ring
  have test {a : Answer} (h : actOpenCampaign payload s = a) : exec (.openCampaign num payload) s = .next (answerWith 0x14 num a) :=
    h ▸ answer
  unfold actOpenCampaign at test
  dsimp only at test
  rw [hn, htime, hp, ticks] at test
  refine ⟨fun bad => test (a := refuse .noSuchCampaign s) (by rw [campaignIndex_none bad]), fun i hi => ?_⟩
  rw [campaignIndex_some i hi] at test
  dsimp only at test
  have sets : ¬ (true = false) := Bool.noConfusion
  refine ⟨fun bad => test (a := refuse .badValue s) (by rw [latePolicy_ofCode_none bad]),
    fun ok taken => test (a := refuse .campaignState s) ?_, fun ok free unset => test (a := refuse .clockUnset s) ?_,
    fun ok free set past => test (a := refuse .activationPast s) ?_, fun ok free set future pos => ?_⟩
  all_goals rw [latePolicy_ofCode_some ok] at *
  · exact if_pos taken
  · exact (if_neg (not_not.mpr free)).trans (if_pos unset)
  · exact (if_neg (not_not.mpr free)).trans ((if_neg (by rw [set]; exact sets)).trans (if_pos past))
  · have admits {a : Answer} (h : _ = a) := test (a := a) ((if_neg (not_not.mpr free)).trans
      ((if_neg (by rw [set]; exact sets)).trans ((if_neg (not_le.mpr future)).trans h)))
    obtain ⟨one, reached, first⟩ := beaconDistance_spec begun s.air.geometry.period pos tau
    refine ⟨_, one, reached, first, fun near => ?_, fun far => admits (a := refuse .activationFar s) (if_pos far)⟩
    refine (admits (if_neg (not_lt.mpr near))).trans ?_
    have lead := leadTicks_eq begun s.air.geometry.period s.store.working.period tau one
    exact congrArg (fun x : Nat => Host.Outcome.next (answerWith 0x14 num (okWith (_ ++ le 2 x) _))) lead

end Sys2Proof.Machine
end

section
/-! The queries: QUERY-TAG, QUERY-CAMPAIGN and QUERY-CHANGE, with their layouts (R31, R85, R106, Tables 11-16, 11-18, 11-19). -/

namespace Sys2Proof.Machine

/-! ### Where a tag is filed -/

theorem Quad.toList_getElem {α : Type} (q : Quad α) (c : Fin 4) : q.toList[c.val]'(by have := c.isLt; exact this) = q.get c := by
  fin_cases c <;> rfl

/-- Of the entries of a quadruple with distinct keys a key has one, in one list. -/
theorem Distinct.eq_of_key {α β : Type} {f : α → β} {q : Quad (List α)} (h : Distinct f q) {c d : Fin 4} {x y : α}
    (hx : x ∈ q.get c) (hy : y ∈ q.get d) (key : f x = f y) : c = d ∧ x = y := by
  have same : x = y := List.inj_on_of_nodup_map h (mem_flatten_get.mpr ⟨c, hx⟩) (mem_flatten_get.mpr ⟨d, hy⟩) key
  subst same
  have apart := List.pairwise_iff_getElem.mp (List.nodup_flatten.mp h.of_map).2
  have disjoint {i j : Fin 4} (lt : i < j) (hi : x ∈ q.get i) (hj : x ∈ q.get j) : False := by
    have := apart i.val j.val i.isLt j.isLt lt
    rw [Quad.toList_getElem, Quad.toList_getElem] at this
    exact this hi hj
  obtain lt | eq | gt := lt_trichotomy c d
  · exact (disjoint lt hx hy).elim
  · exact ⟨eq, rfl⟩
  · exact (disjoint gt hy hx).elim

theorem calendarOf_some {s : State} (h : OneFiling s) {c : Cell} {x : CalendarEntry} (hx : x ∈ s.planner.calendar.get c) :
    s.calendarOf x.addr = some (c, x) := by
  obtain ⟨z, found⟩ := Option.isSome_iff_exists.mp ((calendarOf_isSome_iff s x.addr).mpr ⟨c, x, hx, rfl⟩)
  obtain ⟨d, -, hd⟩ := List.exists_of_findSome?_eq_some found
  obtain ⟨y, hy, rfl⟩ := Option.map_eq_some_iff.mp hd
  have key : y.addr = x.addr := by simpa using List.find?_some hy
  obtain ⟨rfl, rfl⟩ := Distinct.eq_of_key h.1 (List.mem_of_find?_eq_some hy) hx key
  exact found

theorem calendarOf_none {s : State} {a : Nat} (h : ∀ c, ∀ x ∈ s.planner.calendar.get c, x.addr ≠ a) :
    s.calendarOf a = none := by
  rw [← Option.not_isSome_iff_eq_none, calendarOf_isSome_iff]
  rintro ⟨d, y, hy, rfl⟩
  exact h d y hy rfl

theorem boostOf_isSome_iff (s : State) (a : Nat) :
    (s.boostOf a).isSome = true ↔ ∃ c, ∃ x ∈ s.planner.boosts.get c, x.addr = a := by
  simp [State.boostOf, List.findSome?_isSome_iff, mem_allFour]

/-! ### Layouts -/

theorem optionalAt_optField_alone (n : Nat) (v : Option Nat) : optionalAt 0 n v (optField n v) := by
  simpa using optionalAt_optField n v []

theorem campaignNumber_mod (i : Option CampaignIndex) : campaignNumber i % 256 ^ 1 = (i.map (·.val + 1)).getD 0 := by
  cases i with
  | none => rfl
  | some i => exact Nat.mod_eq_of_lt (show i.val + 1 < 256 ^ 1 by omega)

theorem marksByte_toNat (late stale : Bool) :
    (marksByte late stale).toNat = (if late then 1 else 0) + (if stale then 2 else 0) := by
  cases late <;> cases stale <;> rfl

/-- The QUERY-CHANGE reply's fields stand at their offsets (Table 11-19). -/
theorem changePayload_fields (s : State) (r : Change) : ChangeFields s r (changePayload s r) := by
  unfold ChangeFields
  refine ⟨by simp [changePayload], ?serial, ?sequence, ?addr, ?tagId, ?campaign, ?blocks, ?checksum, ?acked, ?state, ?marks,
    ?displaced, ?failures, ?calls, ?spent, ?outcome, ?final, ?place⟩
  case displaced | outcome | final =>
    unfold changePayload
    simp only [List.append_assoc, List.cons_append, List.nil_append]
    simp (disch := omega) only [optionalAt_le_skip, optionalAt_cons_skip, optionalAt_optField_skip, Nat.sub_self, Nat.reduceSub]
    exact optionalAt_optField ..
  case place =>
    unfold changePayload
    simp only [List.append_assoc, List.cons_append, List.nil_append]
    simp (disch := omega) only [optionalAt_le_skip, optionalAt_cons_skip, optionalAt_optField_skip, Nat.sub_self, Nat.reduceSub]
    exact optionalAt_optField_alone ..
  all_goals
    unfold changePayload
    simp only [List.append_assoc, List.cons_append, List.nil_append]
    simp (disch := omega) only [field_le_front, field_le_skip, field_cons_skip, field_head, field_optField_skip,
      Nat.sub_self, Nat.reduceSub]
  case serial | sequence | tagId | checksum => exact toNat_mod_pow _ (by norm_num)
  case addr | blocks | acked | failures | calls | spent => rfl
  case campaign => exact campaignNumber_mod r.campaign
  case state => cases r.state <;> rfl
  case marks => exact marksByte_toNat r.late r.staleCut

/-! ### QUERY-TAG -/

/-- What a QUERY-TAG reply says of the tag's filing. -/
def filingBytes : Option (Cell × CalendarEntry) → List Byte
  | none => [0, 0] ++ le 3 0
  | some (c, x) => [1] ++ le 1 c.val ++ le 3 x.due.toNat

@[simp] theorem filingBytes_length (o : Option (Cell × CalendarEntry)) : (filingBytes o).length = 5 := by
  cases o <;> simp [filingBytes]

theorem tagPayload_eq (s : State) (e : Entry) : tagPayload s e = le 4 e.tagId.toNat ++ le 2 e.addr ++ [e.zone]
    ++ le 1 e.pageClass.val ++ [e.state.code] ++ optField 1 (e.home.map (·.val)) ++ le 1 e.believed.val
    ++ optField 1 (e.commanded.map (·.val)) ++ optField 3 (e.boostEnd.map (·.toNat)) ++ [boolByte e.flash]
    ++ optField 2 (e.shown.map (·.toNat)) ++ optField 2 (e.staged.map (·.serial.toNat))
    ++ [((e.staged.map (·.condition.code)).getD 0)] ++ optField 1 (e.link.map (·.toNat))
    ++ optField 1 (e.battery.map (·.val)) ++ le 2 e.allowance ++ le 2 e.effective ++ le 2 e.remaining ++ le 1 e.misses
    ++ optField 2 (e.live.map (·.toNat)) ++ le 1 (linkTier e.link) ++ filingBytes (s.calendarOf e.addr)
    ++ [boolByte (s.boostOf e.addr).isSome] := by
  unfold tagPayload
  cases s.calendarOf e.addr <;> rfl

theorem field_filingBytes_skip {off : Nat} (len : Nat) (o : Option (Cell × CalendarEntry)) (bs : List Byte) (h : 5 ≤ off) :
    field off len (filingBytes o ++ bs) = field (off - 5) len bs := by
  rw [field_append_skip len bs (by simpa using h), filingBytes_length]

/-- The three fields of a filing, at their offsets. -/
theorem tagPayload_filing (s : State) (e : Entry) : ∃ rest,
    field 41 1 (tagPayload s e) = field 0 1 (filingBytes (s.calendarOf e.addr) ++ rest)
      ∧ field 42 1 (tagPayload s e) = field 1 1 (filingBytes (s.calendarOf e.addr) ++ rest)
      ∧ field 43 3 (tagPayload s e) = field 2 3 (filingBytes (s.calendarOf e.addr) ++ rest) := by
  refine ⟨[boolByte (s.boostOf e.addr).isSome], ?_⟩
  rw [tagPayload_eq]
  simp only [List.append_assoc, List.cons_append, List.nil_append]
  simp (disch := omega) only [field_le_skip, field_cons_skip, field_optField_skip, Nat.sub_self, Nat.reduceSub, and_self]

theorem filingBytes_fields (c : Cell) (x : CalendarEntry) (rest : List Byte) :
    field 0 1 (filingBytes (some (c, x)) ++ rest) = 1 ∧ field 1 1 (filingBytes (some (c, x)) ++ rest) = c.val
      ∧ field 2 3 (filingBytes (some (c, x)) ++ rest) = x.due.toNat := by
  unfold filingBytes
  simp only [List.append_assoc, List.cons_append, List.nil_append]
  simp (disch := omega) only [field_le_front, field_le_skip, field_cons_skip, field_head, Nat.sub_self, Nat.reduceSub]
  exact ⟨rfl, Nat.mod_eq_of_lt (by omega), toNat_mod_pow _ (by norm_num)⟩

theorem filingBytes_none_fields (rest : List Byte) :
    field 0 1 (filingBytes none ++ rest) = 0 ∧ field 1 1 (filingBytes none ++ rest) = 0
      ∧ field 2 3 (filingBytes none ++ rest) = 0 := by
  unfold filingBytes
  simp only [List.cons_append, List.nil_append]
  simp (disch := omega) only [field_le_front, field_cons_skip, field_head, Nat.sub_self, Nat.reduceSub]
  exact ⟨rfl, rfl, rfl⟩

/-- The QUERY-TAG reply's fields stand at their offsets (Table 11-16). -/
theorem tagPayload_fields {s : State} (filed : OneFiling s) (e : Entry) : TagFields s e (tagPayload s e) := by
  obtain ⟨rest, f41, f42, f43⟩ := tagPayload_filing s e
  unfold TagFields
  refine ⟨by simp [tagPayload_eq], ?tagId, ?addr, ?zone, ?page, ?state, ?home, ?believed, ?commanded, ?boostEnd, ?flash, ?shown,
    ?staged, ?condition, ?link, ?battery, ?allowance, ?effective, ?remaining, ?misses, ?live, ?tier, fun c x hx same => ?filed,
    fun unfiled => ?unfiled, ?boost⟩
  case filed =>
    rw [f41, f42, f43, ← same, calendarOf_some filed hx]
    exact filingBytes_fields c x rest
  case unfiled =>
    rw [f41, f42, f43, calendarOf_none unfiled]
    exact filingBytes_none_fields rest
  case home | commanded | boostEnd | shown | staged | link | battery | live =>
    rw [tagPayload_eq]
    simp only [List.append_assoc, List.cons_append, List.nil_append]
    simp (disch := omega) only [optionalAt_le_skip, optionalAt_cons_skip, optionalAt_optField_skip, Nat.sub_self, Nat.reduceSub]
    exact optionalAt_optField ..
  all_goals
    rw [tagPayload_eq]
    simp only [List.append_assoc, List.cons_append, List.nil_append]
    simp (disch := omega) only [field_le_front, field_le_skip, field_cons_skip, field_head, field_optField_skip,
      field_filingBytes_skip, Nat.sub_self, Nat.reduceSub, boolByte_toNat]
  case tagId => exact toNat_mod_pow _ (by norm_num)
  case addr | allowance | effective | remaining | misses => rfl
  case page | believed => exact Nat.mod_eq_of_lt (by omega)
  case state => cases e.state <;> rfl
  case condition =>
    cases e.staged with
    | none => rfl
    | some p => cases h : p.condition <;> simp [h, Condition.code]
  case tier =>
    cases e.link with
    | none => rfl
    | some l =>
      unfold linkTier
      dsimp only
      split_ifs <;> rfl
  case boost => exact if_congr (boostOf_isSome_iff s e.addr) rfl rfl

/-! ### QUERY-CAMPAIGN -/

/-- A QUERY-CAMPAIGN reply ahead of its figures. -/
def campaignFront (i : CampaignIndex) (c : Campaign) : List Byte :=
  le 1 (i.val + 1) ++ [c.state.code] ++ optField 4 (c.activation.map (·.time.toNat))
    ++ le 3 ((c.activation.map (·.beacon.toNat)).getD 0) ++ [((c.activation.map (·.policy.code)).getD 0)]
    ++ le 4 c.admitted.toNat ++ le 2 c.live ++ c.tallies.toList.flatMap (fun t => le 4 t.toNat)
    ++ le 2 c.lateCount ++ le 2 c.staleCount ++ optField 3 (c.doneBeacon.map (·.toNat))

theorem optField_eq (n : Nat) (v : Option Nat) : optField n v = boolByte v.isSome :: le n (v.getD 0) := by
  cases v <;> rfl

theorem campaignPayload_eq (s : State) (i : CampaignIndex) :
    campaignPayload s i = campaignFront i (s.campaigns.get i) ++ campaignFigures s i (s.campaigns.get i) := by
  unfold campaignPayload campaignFront
  rw [optField_eq, Option.isSome_map]
  simp only [List.append_assoc, List.cons_append, List.nil_append]

@[simp] theorem campaignFront_length (i : CampaignIndex) (c : Campaign) : (campaignFront i c).length = 73 := by
  have skip := tallies_bytes_length c.tallies
  simp [campaignFront, skip]

@[simp] theorem campaignFigures_length (s : State) (i : CampaignIndex) (c : Campaign) : (campaignFigures s i c).length = 16 := by
  unfold campaignFigures
  split <;> simp

theorem optionalAt_tallies_skip {off n : Nat} {v : Option Nat} (t : Tallies) {bs : List Byte} (h : 48 ≤ off) :
    optionalAt off n v ((t.toList.flatMap fun t => le 4 t.toNat) ++ bs) ↔ optionalAt (off - 48) n v bs := by
  unfold optionalAt
  rw [field_tallies_skip 1 t bs h, field_tallies_skip n t bs (by omega), Nat.sub_add_comm h]

/-- The figures of an OPEN or CUT campaign (Table 11-18). -/
theorem campaignFigures_running {s : State} {i : CampaignIndex} {c : Campaign} (h : c.state = .opened ∨ c.state = .cut) :
    let count := fun st : ChangeState => s.table.records.countP fun r => decide (r.campaign = some i ∧ r.state = st)
    field 0 1 (campaignFigures s i c) = 1
      ∧ (∀ a, c.activation = some a → field 1 3 (campaignFigures s i c) = (a.beacon - s.air.beacon).toNat)
      ∧ field 4 2 (campaignFigures s i c) = count .queued % 65536 ∧ field 6 2 (campaignFigures s i c) = count .sending % 65536
      ∧ field 8 2 (campaignFigures s i c) = count .staged % 65536
      ∧ field 10 2 (campaignFigures s i c) = count .withdrawing % 65536
      ∧ field 12 2 (campaignFigures s i c) = count .verifying % 65536
      ∧ field 14 2 (campaignFigures s i c) = count .finished % 65536 := by
  intro count
  have counted (st : ChangeState) : s.countRecords i st = count st := by
    simp only [State.countRecords, count, Bool.decide_and]
  unfold campaignFigures
  rw [if_pos h]
  simp only [counted, List.flatMap_cons, List.flatMap_nil, List.append_nil, List.append_assoc, List.cons_append, List.nil_append]
  simp (disch := omega) only [field_le_front, field_le_skip, field_cons_skip, field_head, field_le_alone, Nat.sub_self,
    Nat.reduceSub]
  refine ⟨rfl, fun a ha => ?_, rfl, rfl, rfl, rfl, rfl, rfl⟩
  rw [ha]
  exact toNat_mod_pow _ (by norm_num)

theorem campaignFigures_idle {s : State} {i : CampaignIndex} {c : Campaign} (h : c.state = .free ∨ c.state = .done) {off : Nat}
    (hoff : off < 16) : field off 1 (campaignFigures s i c) = 0 := by
  unfold campaignFigures
  rw [if_neg (by obtain h | h := h <;> rw [h] <;> decide)]
  interval_cases off <;> rfl

/-- The QUERY-CAMPAIGN reply's fields stand at their offsets (Table 11-18). -/
theorem campaignPayload_fields (s : State) (i : CampaignIndex) : CampaignFields s i (campaignPayload s i) := by
  have skip {off : Nat} (len : Nat) (h : 73 ≤ off) :
      field off len (campaignPayload s i) = field (off - 73) len (campaignFigures s i (s.campaigns.get i)) := by
    rw [campaignPayload_eq, field_append_skip len _ (by simpa using h), campaignFront_length]
  have beacon := toNat_getD_mod (n := 3) ((s.campaigns.get i).activation.map (·.beacon)) (by norm_num)
  rw [Option.map_map] at beacon
  unfold CampaignFields
  dsimp only
  refine ⟨by simp [campaignPayload_eq], ?id, ?state, ?time, ?beacon, ?policy, ?admitted, ?live, fun j t h => ?tallies, ?late,
    ?stale, ?doneBeacon, fun running => ?running, fun idle off lo hi => ?idle⟩
  case running =>
    simp only [skip _ (le_refl 73), skip _ (show 73 ≤ 74 by norm_num), skip _ (show 73 ≤ 77 by norm_num),
      skip _ (show 73 ≤ 79 by norm_num), skip _ (show 73 ≤ 81 by norm_num), skip _ (show 73 ≤ 83 by norm_num),
      skip _ (show 73 ≤ 85 by norm_num), skip _ (show 73 ≤ 87 by norm_num)]
    exact campaignFigures_running running
  case idle =>
    rw [skip 1 lo]
    exact campaignFigures_idle idle (by omega)
  case tallies =>
    have front : campaignPayload s i = (le 1 (i.val + 1) ++ [(s.campaigns.get i).state.code]
        ++ optField 4 ((s.campaigns.get i).activation.map (·.time.toNat))
        ++ le 3 (((s.campaigns.get i).activation.map (·.beacon.toNat)).getD 0)
        ++ [(((s.campaigns.get i).activation.map (·.policy.code)).getD 0)]
        ++ le 4 (s.campaigns.get i).admitted.toNat ++ le 2 (s.campaigns.get i).live)
        ++ (((s.campaigns.get i).tallies.toList.flatMap fun t => le 4 t.toNat)
        ++ (le 2 (s.campaigns.get i).lateCount ++ le 2 (s.campaigns.get i).staleCount
        ++ optField 3 ((s.campaigns.get i).doneBeacon.map (·.toNat)) ++ campaignFigures s i (s.campaigns.get i))) := by
      rw [campaignPayload_eq]
      simp only [campaignFront, List.append_assoc]
    rw [front]
    exact field_tally (by simp) h _
  case time =>
    rw [campaignPayload_eq]
    unfold campaignFront
    simp only [List.append_assoc, List.cons_append, List.nil_append]
    simp (disch := omega) only [optionalAt_le_skip, optionalAt_cons_skip, Nat.sub_self, Nat.reduceSub]
    exact optionalAt_optField ..
  case doneBeacon =>
    rw [campaignPayload_eq]
    unfold campaignFront
    simp only [List.append_assoc, List.cons_append, List.nil_append]
    simp (disch := omega) only [optionalAt_le_skip, optionalAt_cons_skip, optionalAt_optField_skip, optionalAt_tallies_skip,
      Nat.sub_self, Nat.reduceSub]
    exact optionalAt_optField ..
  all_goals
    rw [campaignPayload_eq]
    unfold campaignFront
    simp only [List.append_assoc, List.cons_append, List.nil_append]
    simp (disch := omega) only [field_le_front, field_le_skip, field_cons_skip, field_head, field_optField_skip,
      field_tallies_skip, Nat.sub_self, Nat.reduceSub]
  case id => exact Nat.mod_eq_of_lt (show i.val + 1 < 256 ^ 1 by omega)
  case state => cases (s.campaigns.get i).state <;> rfl
  case beacon => exact beacon
  case policy => cases (s.campaigns.get i).activation with
    | none => rfl
    | some a => cases h : a.policy <;> simp [h, LatePolicy.code]
  case admitted => exact toNat_mod_pow _ (by norm_num)
  case live | late | stale => rfl

/-! ### The requests -/

theorem exec_queryTag (num : Byte) (payload : List Byte) (s : State) :
    exec (.queryTag num payload) s = .next (request 0x11 num payload (ofLength 4 payload fun s =>
      match s.entryOf (BitVec.ofNat 32 (leNat payload)) with
      | none => refuse .noSuchTag s
      | some e => okWith (tagPayload s e) s) s) := rfl

theorem exec_queryCampaign (num : Byte) (payload : List Byte) (s : State) :
    exec (.queryCampaign num payload) s = .next (request 0x15 num payload (ofLength 1 payload fun s =>
      match campaignIndex (leNat payload) with
      | none => refuse .noSuchCampaign s
      | some i => okWith (campaignPayload s i) s) s) := rfl

theorem exec_queryChange (num : Byte) (payload : List Byte) (s : State) :
    exec (.queryChange num payload) s = .next (request 0x19 num payload (ofLength 2 payload fun s =>
      match s.recordOf (BitVec.ofNat 16 (leNat payload)) with
      | none => refuse .noSuchChange s
      | some r => okWith (changePayload s r) s) s) := rfl

/-- Settles O32: each query answers with the layout of what it finds. -/
theorem queriesChangeNothing : Obligations.QueriesChangeNothing := by
  intro num id n k s ready filed answer
  rw [exec_queryTag, exec_queryCampaign, exec_queryChange, request_ofLength_ready ready 0x11 num (le_length 4 _),
    request_ofLength_ready ready 0x15 num (n := 1) rfl, request_ofLength_ready ready 0x19 num (le_length 2 _), tagId_alone,
    leNat_singleton, ofNat_leNat_le k (by norm_num)]
  refine ⟨fun none => ?_, fun e held => ⟨_, tagPayload_fields filed e, ?_⟩, fun bad => ?_,
    fun i hi => ⟨_, campaignPayload_fields s i, ?_⟩, fun none => ?_, fun r held => ⟨_, changePayload_fields s r, ?_⟩⟩
  · rw [none]
    rfl
  · rw [held]
    rfl
  · rw [campaignIndex_none bad]
    rfl
  · rw [campaignIndex_some i hi]
    rfl
  · rw [none]
    rfl
  · rw [held]
    rfl

end Sys2Proof.Machine
end

section
/-! Filing a list of tags, the rule of RESET WARM (R125, R184), and a beacon start without a cut (R2, R3, R6). -/

namespace Sys2Proof.Machine

/-! ### Filing a list of tags -/

/-- What the calendars hold once a tag without an entry is filed. -/
theorem mem_fileTag_new {a : Nat} {s : State} (unfiled : ¬ ∃ d, ∃ y ∈ s.planner.calendar.get d, y.addr = a) (d : Cell)
    (y : CalendarEntry) : y ∈ (fileTag a s).planner.calendar.get d
      ↔ y ∈ s.planner.calendar.get d ∨ ∃ e, s.entryAt a = some e ∧ e.home = some d ∧ y = ⟨a, s.fileDue e d⟩ := by
  unfold fileTag
  cases he : s.entryAt a with
  | none => simp
  | some e =>
    dsimp only
    cases hh : e.home with
    | none => simp [hh]
    | some h =>
      refine (mem_placeCalendar_new unfiled d y).trans (or_congr_right ⟨?_, ?_⟩)
      · rintro ⟨rfl, rfl⟩
        exact ⟨e, rfl, hh, rfl⟩
      · rintro ⟨_, he', hd, rfl⟩
        obtain rfl := Option.some.inj he'
        obtain rfl : h = d := Option.some.inj (hh.symm.trans hd)
        exact ⟨rfl, rfl⟩

/-- Filing tags touches the calendars alone. -/
theorem foldl_fileTag_planner (as : List Nat) (s : State) :
    ∃ cal, as.foldl (fun s a => fileTag a s) s = { s with planner.calendar := cal } := by
  induction as generalizing s with
  | nil => exact ⟨s.planner.calendar, rfl⟩
  | cons a as ih =>
    obtain ⟨cal, h⟩ := fileTag_planner a s
    obtain ⟨cal', h'⟩ := ih (fileTag a s)
    refine ⟨cal', ?_⟩
    rw [List.foldl_cons, h', h]

/-- Tags without an entry are each filed at home, and the other entries stay. -/
theorem mem_foldl_fileTag {as : List Nat} (nodup : as.Nodup) {s : State}
    (unfiled : ∀ d, ∀ y ∈ s.planner.calendar.get d, y.addr ∉ as) (d : Cell) (y : CalendarEntry) :
    y ∈ (as.foldl (fun s a => fileTag a s) s).planner.calendar.get d
      ↔ y ∈ s.planner.calendar.get d
        ∨ ∃ a ∈ as, ∃ e, s.entryAt a = some e ∧ e.home = some d ∧ y = ⟨a, s.fileDue e d⟩ := by
  induction as generalizing s with
  | nil => simp
  | cons a as ih =>
    obtain ⟨fresh, nodup⟩ := List.nodup_cons.mp nodup
    have new : ¬ ∃ d, ∃ y ∈ s.planner.calendar.get d, y.addr = a := by
      rintro ⟨d, y, hy, rfl⟩
      exact unfiled d y hy List.mem_cons_self
    obtain ⟨cal, filed⟩ := fileTag_planner a s
    have entries (b : Nat) : (fileTag a s).entryAt b = s.entryAt b := by
      rw [filed]
      rfl
    have dues (e : Entry) (c : Cell) : (fileTag a s).fileDue e c = s.fileDue e c := by
      rw [filed]
      rfl
    have rest : ∀ d, ∀ y ∈ (fileTag a s).planner.calendar.get d, y.addr ∉ as := by
      intro d y hy
      obtain old | ⟨e, -, -, rfl⟩ := (mem_fileTag_new new d y).mp hy
      · exact fun h => unfiled d y old (List.mem_cons_of_mem a h)
      · exact fresh
    rw [List.foldl_cons, ih nodup rest, mem_fileTag_new new, or_assoc]
    simp only [entries, dues, List.mem_cons, exists_eq_or_imp]

/-! ### RESET WARM -/

/-- An entry is found at its address where addresses are distinct. -/
theorem entryAt_eq_some_iff {s : State} (nodup : (s.dir.entries.map (·.addr)).Nodup) {a : Nat} {e : Entry} :
    s.entryAt a = some e ↔ e ∈ s.dir.entries ∧ e.addr = a := by
  constructor
  · exact entryAt_mem
  · rintro ⟨he, rfl⟩
    have found : (s.entryAt e.addr).isSome = true := List.find?_isSome.mpr ⟨e, he, by simp⟩
    obtain ⟨d, hd⟩ := Option.isSome_iff_exists.mp found
    obtain ⟨mem, addr⟩ := entryAt_mem hd
    rwa [List.inj_on_of_nodup_map nodup mem he addr] at hd

/-- The line when a RESET acts, given which of its frames have gone (log entry 10). -/
theorem sendThrough_reset {line : HostLine} {s : State}
    (h : (∀ f ∈ s.line.outbound, ¬ f.okReplyTo 0x08) ∧ line = s.line
      ∨ ∃ before f later, s.line.outbound = before ++ f :: later ∧ f.okReplyTo 0x08 ∧ (∀ g ∈ before, ¬ g.okReplyTo 0x08)
        ∧ line = s.line.afterSending before f later) :
    sendThrough isResetReply s = { s with line := line } := by
  obtain ⟨sent, rfl⟩ | ⟨before, f, later, outbound, reply, ahead, rfl⟩ := h
  · obtain same | ⟨before, f, later, -, -, -, -, outbound, reply, -⟩ := sendThrough_eq isResetReply s
    · exact same
    · exact absurd ((isResetReply_iff f).mp reply) (sent f (by rw [outbound]; simp))
  · exact sendThrough_afterSending outbound (fun g hg => Bool.eq_false_iff.mpr fun hr => ahead g hg ((isResetReply_iff g).mp hr))
      ((isResetReply_iff f).mpr reply)

/-- Without a boost list a filing is by the class. -/
theorem fileDue_noBoosts {s : State} (e : Entry) {h : Cell} (none : s.planner.boosts.get h = []) :
    s.fileDue e h = nextWake e.believed e.tagId (s.planner.last.get h) := by
  unfold State.fileDue
  rw [none]
  rfl

theorem Quad.get_const {α : Type} (a : α) (c : Fin 4) : (⟨a, a, a, a⟩ : Quad α).get c = a := by fin_cases c <;> rfl

/-- What RESET WARM files, once the work is cleared (R125). -/
theorem mem_actWarm {s : State} (nodup : (s.dir.entries.map (·.addr)).Nodup) (c : Cell) (a : Nat) (due : Beacon) :
    (⟨a, due⟩ : CalendarEntry) ∈ (actWarm s).planner.calendar.get c
      ↔ ∃ e ∈ s.dir.entries, e.addr = a ∧ e.state = .present ∧ (e.commanded.isSome = true ∨ e.flash = true)
          ∧ e.home = some c ∧ due = nextWake e.believed e.tagId (s.planner.last.get c) := by
  have cleared : ((clearWork s).dir.entries.map (·.addr)).Nodup := by
    change ((s.dir.entries.map fun e => { e with live := none }).map (·.addr)).Nodup
    rwa [List.map_map]
  have empty (d : Cell) : (clearWork s).planner.calendar.get d = [] := Quad.get_const [] d
  have noBoosts (d : Cell) : (clearWork s).planner.boosts.get d = [] := Quad.get_const [] d
  have byClass (e : Entry) (d : Cell) : (clearWork s).fileDue e d = nextWake e.believed e.tagId (s.planner.last.get d) :=
    fileDue_noBoosts e (noBoosts d)
  have filed (e : Entry) : e.filedAtWarm = true ↔ e.state = .present ∧ (e.commanded.isSome = true ∨ e.flash = true) := by
    simp [Entry.filedAtWarm]
  unfold actWarm
  rw [mem_foldl_fileTag (nodup.sublist (List.filter_sublist.map _)) (fun d y hy => by rw [empty] at hy; cases hy), empty]
  simp only [List.not_mem_nil, false_or, byClass, CalendarEntry.mk.injEq, List.mem_map, List.mem_filter, filed]
  constructor
  · rintro ⟨_, ⟨e, ⟨he, present, work⟩, rfl⟩, d, hd, home, rfl, rfl⟩
    obtain ⟨hd, addr⟩ := entryAt_mem hd
    obtain ⟨x, hx, rfl⟩ := List.mem_map.mp hd
    obtain rfl : x = e := List.inj_on_of_nodup_map nodup hx he addr
    exact ⟨x, he, rfl, present, work, home, rfl⟩
  · rintro ⟨e, he, rfl, present, work, home, rfl⟩
    exact ⟨e.addr, ⟨e, ⟨he, present, work⟩, rfl⟩, { e with live := none },
      (entryAt_eq_some_iff cleared).mpr ⟨List.mem_map_of_mem he, rfl⟩, home, rfl, rfl⟩

/-- Settles O21: the work is cleared, then the tags with an order are filed. -/
theorem resetWarmRule : Obligations.ResetWarmRule := by
  intro line s hp warm nodup sent
  obtain ⟨cal, rebuilt⟩ := foldl_fileTag_planner ((s.dir.entries.filter Entry.filedAtWarm).map (·.addr))
    (clearWork { s with line := line })
  have acts : exec .resetActs s = .next (actWarm { s with line := line }) := by
    rw [exec_resetActs hp, resetActs_resetting warm, sendThrough_reset sent]
    rfl
  have calendar := mem_actWarm (s := { s with line := line }) nodup
  have result : actWarm { s with line := line } = { clearWork { s with line := line } with planner.calendar := cal } := rebuilt
  rw [result] at acts calendar
  exact ⟨_, acts, rfl, rfl, rfl, Quad.get_const _, Quad.get_const _, rfl, calendar, rfl, rfl, hp, rfl, rfl, rfl, rfl, rfl⟩

/-! ### A beacon start without a cut -/

theorem exec_beaconStart {s : State} (hp : s.powered = true) : exec .beaconStart s = .next (beaconStart s) :=
  congrArg _ (event_powered hp _)

theorem takeCuts_none {s : State} (h : dueCuts s = []) : takeCuts s = s := by
  unfold takeCuts
  rw [h]
  rfl

theorem mem_dueCuts (s : State) (i : CampaignIndex) : i ∈ dueCuts s
    ↔ (s.campaigns.get i).state = .opened ∧ ∃ a, (s.campaigns.get i).activation = some a ∧ a.beacon = s.air.beacon := by
  simp [dueCuts, mem_allFour, State.activationBeacon]

theorem locked_iff (s : State) : (s.table.records ≠ [] ∨ (∃ i, (s.campaigns.get i).state ≠ .free)
    ∨ ∃ e ∈ s.dir.entries, ∃ u, e.boostEnd = some u ∧ isAfter u s.air.beacon = true) ↔ s.presetFree = false := by
  rw [← Bool.not_eq_true, presetFree_iff, not_and_or, not_and_or]
  simp only [not_forall, exists_prop, Bool.not_eq_false, ne_eq]

/-- With no preset that may be taken, B rises by 1 and a preset goes (R2, R6). -/
theorem nextBeacon_locked {s : State} (locked : s.air.preset = none ∨ s.presetFree = false) :
    nextBeacon s = { s with air := { s.air with beacon := s.air.beacon + 1, preset := none } } := by
  unfold nextBeacon
  split
  · next none => rw [← none]
  · next some => rw [if_neg (by simp [locked.resolve_left (by rw [some]; exact Option.some_ne_none _)])]

/-- Settles O25: with no campaign due nothing is cut, and a preset is taken by its conditions. -/
theorem beaconStartRule : Obligations.BeaconStartRule := by
  intro s hp w air locked
  have lockedIff : locked ↔ s.presetFree = false := locked_iff s
  rw [exec_beaconStart hp]
  refine ⟨fun h uncut => ?_, fun p preset free => ?_⟩
  · have next : nextBeacon (reloadGeometry s) = { s with air := { air with beacon := s.air.beacon + 1 } } :=
      nextBeacon_locked (s := reloadGeometry s) (h.imp_right lockedIff.mp)
    have noCuts : dueCuts (nextBeacon (reloadGeometry s)) = [] := by
      refine List.eq_nil_iff_forall_not_mem.mpr fun i hi => ?_
      rw [next] at hi
      obtain ⟨opened, a, ha, hb⟩ := (mem_dueCuts _ i).mp hi
      exact uncut i a opened ha hb
    unfold beaconStart
    rw [takeCuts_none noCuts, next]
  · have unlocked : (reloadGeometry s).presetFree = true := by
      have := mt lockedIff.mpr free
      exact Bool.not_eq_false _ ▸ this
    have allFree : ∀ i, (s.campaigns.get i).state = .free := ((presetFree_iff _).mp unlocked).2.1
    have next : nextBeacon (reloadGeometry s) = applyPreset p (reloadGeometry s) := by
      have : (reloadGeometry s).air.preset = some p := preset
      unfold nextBeacon
      rw [this]
      exact if_pos unlocked
    have noCuts : dueCuts (nextBeacon (reloadGeometry s)) = [] := by
      refine List.eq_nil_iff_forall_not_mem.mpr fun i hi => ?_
      rw [next] at hi
      obtain ⟨opened, -⟩ := (mem_dueCuts _ i).mp hi
      have : CampaignState.free = .opened := (allFree i).symm.trans opened
      cases this
    have same : refiled (reloadGeometry s) (p - 1) = fun x => match s.entryAt x.addr with
        | none => x
        | some e => { x with due := nextWake e.believed e.tagId (p - 1) } := by
      funext x
      change (match s.entryAt x.addr with | none => x | some e => _) = _
      cases s.entryAt x.addr <;> rfl
    unfold beaconStart
    rw [takeCuts_none noCuts, next]
    unfold applyPreset
    rw [same]
    rfl

end Sys2Proof.Machine
end

section
/-! The rules of the heads (R11, R12) and of an instant with no tag due (R126, R141, R143; log entries 4 and 17). -/

namespace Sys2Proof.Machine

/-! ### Heads -/

theorem exec_headLost {s : State} (hp : s.powered = true) (c : Cell) : exec (.headLost c) s = .next (headLost c s) :=
  congrArg _ (event_powered hp _)

theorem exec_headReturned {s : State} (hp : s.powered = true) (c : Cell) :
    exec (.headReturned c) s = .next { s with cells.heads := s.cells.heads.set c true } :=
  congrArg _ (event_powered hp _)

theorem headLost_present {c : Cell} {s : State} (h : s.cells.heads.get c = true) :
    headLost c s = abandonWindow c (raiseFlag .cellDown { s with cells.heads := s.cells.heads.set c false }) := if_pos h

theorem abandonWindow_none {c : Cell} {s : State} (h : s.cells.windows.get c = none) : abandonWindow c s = s := by
  unfold abandonWindow
  rw [h]

theorem abandonWindow_some {c : Cell} {s : State} {w : Window} (h : s.cells.windows.get c = some w) :
    abandonWindow c s
      = w.remaining.foldl (fun s p => endSlot p none 0 s) { s with cells.windows := s.cells.windows.set c none } := by
  unfold abandonWindow
  rw [h]

/-- Settles O44: a present head that is lost abandons its window. -/
theorem headRule : Obligations.HeadRule := by
  intro c s hp
  rw [exec_headReturned hp, exec_headLost hp]
  refine ⟨rfl, fun present closed => ?_, fun w present opened => ?_⟩
  · rw [headLost_present present]
    exact congrArg _ (abandonWindow_none closed)
  · rw [headLost_present present]
    exact congrArg _ (abandonWindow_some opened)

/-! ### The beacon frame and the window -/

/-- The beacon frame is that of Table 11-9. -/
theorem beaconFrame_bytes (site : BitVec 16) (b : Beacon) (c : Cell) (m : Mode) (called : List Nat)
    (grant : Option (Grant × WakeClass)) :
    beaconFrame site b c m called (grant.map fun x => grantBytes x.1 site x.2) = beaconBytes site b c m called grant := by
  cases grant <;> cases m <;> rfl

/-- A window's slots, one for each snapshot. -/
def slotsOf (called : List Snapshot) : List Slot := called.map fun p => ⟨p, slotDownlink p, false⟩

theorem openWindow_noGrant {c : Cell} {s : State} (b : Beacon) (called : List Snapshot) (h : s.dir.grants.get c = []) :
    openWindow c b called s = { s with cells.windows := s.cells.windows.set c (some ⟨b, s.store.mode,
      beaconBytes s.store.working.siteCode b c s.store.mode (called.map (·.addr)) none, none, slotsOf called⟩) } := by
  unfold openWindow takeGrant
  rw [h, ← beaconFrame_bytes]
  rfl

theorem openWindow_grant {c : Cell} {s : State} (b : Beacon) (called : List Snapshot) {g : Grant} {rest : List Grant}
    (h : s.dir.grants.get c = g :: rest) :
    openWindow c b called s = { s with
      dir.grants := s.dir.grants.set c rest
      cells.windows := s.cells.windows.set c (some ⟨b, s.store.mode,
        beaconBytes s.store.working.siteCode b c s.store.mode (called.map (·.addr))
          (some (g, ((s.entryAt g.addr).map (·.believed)).getD 0)), some g, slotsOf called⟩) } := by
  unfold openWindow takeGrant
  rw [h, ← beaconFrame_bytes]
  rfl

/-! ### Taking an instant -/

theorem exec_cellBeaconInstant {s : State} (hp : s.powered = true) (c : Cell) (order : InstantOrder) :
    exec (.cellBeaconInstant c order) s = .next (match instantPlace s c order with
      | none => s
      | some (b, g) => if s.instantOpen c b then instant c b g s else s) :=
  congrArg _ (event_powered hp _)

theorem instantOpen_iff (s : State) (c : Cell) (b : Beacon) :
    s.instantOpen c b = true ↔ s.planner.last.get c ≠ b ∧ s.cells.windows.get c = none := by
  simp [State.instantOpen]

theorem exec_instant_open {s : State} (hp : s.powered = true) {c : Cell} (fresh : s.planner.last.get c ≠ s.air.beacon)
    (closed : s.cells.windows.get c = none) :
    exec (.cellBeaconInstant c .afterStart) s = .next (instant c s.air.beacon s.air.geometry s) := by
  rw [exec_cellBeaconInstant hp]
  exact congrArg _ (if_pos ((instantOpen_iff s c _).mpr ⟨fresh, closed⟩))

theorem transmits_iff (s : State) (g : Geometry) (c : Cell) : s.transmits g c = true
    ↔ (g.cells.get c).enabled = true ∧ s.cells.heads.get c = true ∧ s.store.mode ≠ .quiet := by
  simp [State.transmits, and_assoc]

/-- With no tag due an instant is its first two steps and the window of an empty call list. -/
theorem instant_noneDue {c : Cell} {b : Beacon} (g : Geometry) {s : State}
    (none : ∀ x ∈ s.planner.calendar.get c, x.due.toNat % 128 ≠ b.toNat % 128) :
    instant c b g s = if s.transmits g c then openWindow c b [] (beginInstant c b s) else beginInstant c b s := by
  have out : ∀ x ∈ s.planner.calendar.get c, inBucket b x = false := fun x hx => decide_eq_false (none x hx)
  have calendar : s.planner.calendar.modify c (fun l => l.filter fun x => !inBucket b x) = s.planner.calendar := by
    refine Quad.ext_get fun d => ?_
    rw [Quad.get_modify]
    split
    · next h =>
      rw [h]
      exact List.filter_eq_self.mpr fun x hx => by rw [out x hx]; rfl
    · rfl
  have due : takeDue c b (beginInstant c b s) = ([], beginInstant c b s) := by
    have noDue : (s.planner.calendar.get c).filter (inBucket b) = [] :=
      List.filter_eq_nil_iff.mpr fun x hx => by rw [out x hx]; exact Bool.false_ne_true
    unfold takeDue beginInstant
    dsimp only
    rw [noDue, calendar]
    rfl
  unfold instant
  rw [due]
  dsimp only
  rw [show (beginInstant c b s).transmits g c = s.transmits g c from rfl]
  have walked : (if (beginInstant c b s).capacity g c = 0 then ([], [].foldl (fun s a => fileTag a s) (beginInstant c b s))
      else ((dueList (beginInstant c b s) b []).map (·.addr)).foldl
        (walkTag c b (beginInstant c b s).store.mode ((beginInstant c b s).capacity g c)) ([], beginInstant c b s))
      = (([] : List Snapshot), beginInstant c b s) := by
    split <;> rfl
  rw [walked]

/-! ### An instant looks at the geometry it is given, not at the Air Timer's -/

/-- The part with another Air Timer. -/
def State.withAir (s : State) (a : AirTimer) : State := { s with air := a }

section
variable (s : State) (a : AirTimer)

theorem fileTag_withAir (addr : Nat) : fileTag addr (s.withAir a) = (fileTag addr s).withAir a := by
  unfold fileTag
  rw [show (s.withAir a).entryAt addr = s.entryAt addr from rfl]
  cases s.entryAt addr with
  | none => rfl
  | some e => dsimp only; cases e.home <;> rfl

theorem debit_withAir (addr cost : Nat) : debit addr cost (s.withAir a) = (debit addr cost s).withAir a := by
  unfold debit
  rw [show ((s.withAir a).entryAt addr).bind (s.withAir a).liveRecord = (s.entryAt addr).bind s.liveRecord from rfl]
  cases (s.entryAt addr).bind s.liveRecord <;> rfl

theorem commitCall_withAir (p : Snapshot) : commitCall p (s.withAir a) = (commitCall p s).withAir a := by
  unfold commitCall
  dsimp only
  rw [debit_withAir]
  cases p.boostOrder <;> rfl

theorem walkTag_withAir (c : Cell) (b : Beacon) (m : Mode) (cap : Nat) (called : List Snapshot) (addr : Nat) :
    walkTag c b m cap (called, s.withAir a) addr
      = ((walkTag c b m cap (called, s) addr).1, (walkTag c b m cap (called, s) addr).2.withAir a) := by
  unfold walkTag
  dsimp only
  rw [show (s.withAir a).entryAt addr = s.entryAt addr from rfl]
  cases s.entryAt addr with
  | none => rfl
  | some e =>
    dsimp only
    by_cases full : cap ≤ called.length
    · rw [if_pos full, if_pos full, fileTag_withAir]
    · rw [if_neg full, if_neg full]
      by_cases short : e.remaining < s.store.working.threshold (s.deliveryCall e)
      · rw [if_pos short]
        exact (if_pos short).trans (Prod.ext rfl (fileTag_withAir (raiseFlag .budgetShort s) a addr))
      · rw [if_neg short]
        exact (if_neg short).trans (Prod.ext rfl (commitCall_withAir s a _))

theorem walk_withAir (c : Cell) (b : Beacon) (m : Mode) (cap : Nat) (as : List Nat) (called : List Snapshot) :
    as.foldl (walkTag c b m cap) (called, s.withAir a)
      = ((as.foldl (walkTag c b m cap) (called, s)).1, (as.foldl (walkTag c b m cap) (called, s)).2.withAir a) := by
  induction as generalizing s called with
  | nil => rfl
  | cons addr as ih =>
    rw [List.foldl_cons, List.foldl_cons, walkTag_withAir, ih]

theorem foldl_fileTag_withAir (as : List Nat) :
    as.foldl (fun s a => fileTag a s) (s.withAir a) = (as.foldl (fun s a => fileTag a s) s).withAir a := by
  induction as generalizing s with
  | nil => rfl
  | cons addr as ih => rw [List.foldl_cons, List.foldl_cons, fileTag_withAir, ih]

theorem openWindow_withAir (c : Cell) (b : Beacon) (called : List Snapshot) :
    openWindow c b called (s.withAir a) = (openWindow c b called s).withAir a := by
  unfold openWindow takeGrant
  rw [show (s.withAir a).dir.grants.get c = s.dir.grants.get c from rfl]
  cases s.dir.grants.get c <;> rfl

theorem instant_withAir (c : Cell) (b : Beacon) (g : Geometry) :
    instant c b g (s.withAir a) = (instant c b g s).withAir a := by
  have due : takeDue c b (beginInstant c b (s.withAir a))
      = ((takeDue c b (beginInstant c b s)).1, (takeDue c b (beginInstant c b s)).2.withAir a) := rfl
  unfold instant
  rw [due]
  generalize takeDue c b (beginInstant c b s) = d
  obtain ⟨as, u⟩ := d
  dsimp only
  rw [show (u.withAir a).capacity g c = u.capacity g c from rfl, show (u.withAir a).transmits g c = u.transmits g c from rfl,
    show dueList (u.withAir a) b as = dueList u b as from rfl, show (u.withAir a).store.mode = u.store.mode from rfl,
    foldl_fileTag_withAir, walk_withAir]
  by_cases none : u.capacity g c = 0
  · rw [if_pos none, if_pos none]
    dsimp only
    rw [openWindow_withAir]
    split_ifs <;> rfl
  · rw [if_neg none, if_neg none]
    dsimp only
    rw [openWindow_withAir]
    split_ifs <;> rfl

end

/-- Settles O45: the window of an empty call list, and the instant that comes before its beacon start. -/
theorem instantRule : Obligations.InstantRule := by
  refine ⟨fun c s hp fresh closed noneDue => ?_, fun c s hp => ⟨fun zero noPreset => ?_, fun other => ?_⟩⟩
  · intro b t on site
    have transmits : s.transmits s.air.geometry c = true ↔ on := transmits_iff s _ c
    rw [exec_instant_open hp fresh closed, instant_noneDue _ noneDue]
    refine ⟨fun off => ?_, fun here noGrant => ?_, fun g rest e here grants entry => ?_⟩
    · rw [if_neg (mt transmits.mp off)]
      rfl
    · have noGrant' : (beginInstant c b s).dir.grants.get c = [] := noGrant
      rw [if_pos (transmits.mpr here), openWindow_noGrant b [] noGrant']
      rfl
    · have grants' : (beginInstant c b s).dir.grants.get c = g :: rest := grants
      have entry' : (beginInstant c b s).entryAt g.addr = some e := entry
      rw [if_pos (transmits.mpr here), openWindow_grant b [] grants', entry']
      rfl
  · have place : instantPlace s c .beforeStart = some (s.air.beacon + 1, s.store.working.geometry) := if_pos ⟨zero, noPreset⟩
    set u : State := { s with
      air.beacon := s.air.beacon + 1
      air.geometry := ⟨s.store.working.period, s.store.working.cells, s.store.working.capacityNight,
        s.store.working.capacityDay⟩ }
    have later := instant_withAir u s.air c (s.air.beacon + 1) s.store.working.geometry
    refine ⟨_, exec_cellBeaconInstant (s := u) hp c .afterStart, ?_⟩
    rw [exec_cellBeaconInstant hp, place]
    change (Host.Outcome.next (if s.instantOpen c (s.air.beacon + 1) = true
        then instant c (s.air.beacon + 1) s.store.working.geometry (u.withAir s.air) else u.withAir s.air) : Out)
      = .next ((if s.instantOpen c (s.air.beacon + 1) = true
        then instant c (s.air.beacon + 1) s.store.working.geometry u else u).withAir s.air)
    rw [later]
    split_ifs <;> rfl
  · rw [exec_cellBeaconInstant hp]
    have place : instantPlace s c .beforeStart = none := if_neg fun h => other.elim (· h.1) (· h.2)
    rw [place]

end Sys2Proof.Machine
end

section
/-! Records pass from the retire queue into the outcome list (R82, R94, R103, R174): the passing of records one by one is what
`Passes` says of them together. -/

namespace Sys2Proof.Machine

/-! ### The records that a part of the retire queue stands for -/

/-- Dropping duplicates and keeping some elements may change places. -/
theorem eraseDups_filter {α : Type} [DecidableEq α] (p : α → Bool) (l : List α) :
    (l.filter p).eraseDups = l.eraseDups.filter p := by
  induction hn : l.length using Nat.strong_induction_on generalizing l with
  | _ n ih =>
    cases l with
    | nil => rfl
    | cons a l =>
      have shorter (q : α → Bool) : (l.filter q).length < n := by
        have := List.length_filter_le q l
        rw [← hn, List.length_cons]
        omega
      have rest := ih _ (shorter fun b => !b == a) (l.filter fun b => !b == a) rfl
      rw [List.eraseDups_cons, List.filter_cons, List.filter_cons]
      by_cases pa : p a = true
      · rw [if_pos pa, if_pos pa, List.eraseDups_cons, ← rest, List.filter_filter, List.filter_filter]
        simp only [Bool.and_comm]
      · rw [if_neg pa, if_neg pa, ← rest, List.filter_filter]
        congr 1
        refine List.filter_congr fun x _ => ?_
        by_cases hx : x = a
        · rw [hx]
          simp [Bool.eq_false_iff.mpr pa]
        · simp [hx]

/-- The outcome records of the FINISHED records that some serials name, each serial once. -/
def State.outcomesOf (s : State) (ks : List Serial) : List OutcomeRecord :=
  ks.eraseDups.filterMap fun k => (s.recordOf k).bind Change.outcomeRecord

theorem recordOf_filter_ne {s t : State} {k : Serial}
    (ht : t.table.records = s.table.records.filter fun r => decide (r.serial ≠ k)) (j : Serial) :
    t.recordOf j = if j = k then none else s.recordOf j := by
  unfold State.recordOf
  rw [ht, List.find?_filter]
  by_cases hj : j = k
  · subst hj
    simp [List.find?_eq_none]
  · rw [if_neg hj]
    by_cases zero : j = 0
    · rw [if_pos zero, if_pos zero]
    · rw [if_neg zero, if_neg zero]
      congr 1
      funext r
      by_cases hr : r.serial = j
      · simp [hr, hj]
      · simp [hr]

/-- The head's outcome record comes first, and no later place stands for the same record. -/
theorem outcomesOf_cons {s t : State} {k : Serial} (ks : List Serial)
    (h : ∀ j, j ≠ k → (t.recordOf j).bind Change.outcomeRecord = (s.recordOf j).bind Change.outcomeRecord)
    (gone : (t.recordOf k).bind Change.outcomeRecord = none) :
    s.outcomesOf (k :: ks) = ((s.recordOf k).bind Change.outcomeRecord).toList ++ t.outcomesOf ks := by
  have rest : (ks.filter fun b => !b == k).eraseDups.filterMap (fun k => (s.recordOf k).bind Change.outcomeRecord)
      = t.outcomesOf ks := by
    unfold State.outcomesOf
    rw [eraseDups_filter, List.filterMap_filter]
    refine List.filterMap_congr fun j _ => ?_
    by_cases hj : j = k
    · rw [hj, gone]
      simp
    · simp [hj, h j hj]
  unfold State.outcomesOf at rest ⊢
  rw [List.eraseDups_cons, List.filterMap_cons, rest]
  cases (s.recordOf k).bind Change.outcomeRecord <;> rfl

theorem outcomeRecord_serial {s : State} {k : Serial} {r : Change} {o : OutcomeRecord} (hr : s.recordOf k = some r)
    (ho : r.outcomeRecord = some o) : o.serial = k := by
  unfold Change.outcomeRecord at ho
  split at ho
  · cases ho
    exact recordOf_serial hr
  · cases ho

/-! ### Counting a campaign's outcomes -/

/-- A campaign and its waiting notice as one more of its outcomes is tallied at beacon `b` (R94, R103, R104). -/
def tallyOne (b : Beacon) (x : Campaign × Option Campaign) (o : OutcomeRecord) : Campaign × Option Campaign :=
  let c := { x.1 with tallies := x.1.tallies.bump o.code }
  if c.state = .cut ∧ c.admitted = c.tallies.sum then
    ({ c with state := .done, doneBeacon := some b }, some { c with state := .done, doneBeacon := some b })
  else (c, x.2)

/-- Whether a campaign's first `n` of some outcomes complete it. -/
def Campaign.completedBy (c : Campaign) (os : List OutcomeRecord) (n : Nat) : Prop :=
  c.state = .cut ∧ 1 ≤ n ∧ n ≤ os.length ∧ c.admitted = (c.tallies.counting (os.take n)).sum

theorem counting_cons (t : Tallies) (o : OutcomeRecord) (os : List OutcomeRecord) :
    t.counting (o :: os) = (t.bump o.code).counting os := rfl

/-- A campaign that is not CUT, or that its outcomes do not complete, only counts them. -/
theorem foldl_tallyOne_counts (b : Beacon) (c : Campaign) (notice : Option Campaign) (os : List OutcomeRecord)
    (h : ∀ n, ¬ c.completedBy os n) :
    os.foldl (tallyOne b) (c, notice) = ({ c with tallies := c.tallies.counting os }, notice) := by
  induction os generalizing c with
  | nil => rfl
  | cons o os ih =>
    have first : ¬ (c.state = .cut ∧ c.admitted = (c.tallies.bump o.code).sum) :=
      fun done => h 1 ⟨done.1, le_rfl, by simp, done.2⟩
    have one : tallyOne b (c, notice) o = ({ c with tallies := c.tallies.bump o.code }, notice) := if_neg first
    rw [List.foldl_cons, one, ih]
    · rfl
    · rintro n ⟨cut, pos, le, sum⟩
      exact h (n + 1) ⟨cut, by omega, by simpa using le, sum⟩

/-- The first count that completes a CUT campaign makes it DONE and places its notice; what follows is still counted. -/
theorem foldl_tallyOne_done (b : Beacon) (c : Campaign) (notice : Option Campaign) (os : List OutcomeRecord) {n : Nat}
    (h : c.completedBy os n) (first : ∀ m, m < n → ¬ c.completedBy os m) :
    os.foldl (tallyOne b) (c, notice)
      = ({ c with tallies := c.tallies.counting os, state := .done, doneBeacon := some b },
        some { c with tallies := c.tallies.counting (os.take n), state := .done, doneBeacon := some b }) := by
  induction os generalizing c n with
  | nil =>
    obtain ⟨-, pos, le, -⟩ := h
    simp only [List.length_nil] at le
    omega
  | cons o os ih =>
    obtain ⟨cut, pos, le, sum⟩ := h
    obtain ⟨n, rfl⟩ := Nat.exists_eq_add_of_le' pos
    rw [List.foldl_cons]
    by_cases done : c.admitted = (c.tallies.bump o.code).sum
    · have one : tallyOne b (c, notice) o = ({ c with tallies := c.tallies.bump o.code, state := .done, doneBeacon := some b },
          some { c with tallies := c.tallies.bump o.code, state := .done, doneBeacon := some b }) := if_pos ⟨cut, done⟩
      have zero : n = 0 := by
        by_contra hn
        exact first 1 (by omega) ⟨cut, le_rfl, by simp, done⟩
      rw [one, foldl_tallyOne_counts b _ _ os fun m hm => CampaignState.noConfusion hm.1, zero]
      rfl
    · have one : tallyOne b (c, notice) o = ({ c with tallies := c.tallies.bump o.code }, notice) := if_neg fun h => done h.2
      have later : n ≠ 0 := by
        rintro rfl
        exact done sum
      rw [one]
      refine ih _ ⟨cut, by omega, by simpa using le, sum⟩ fun m hm hc => first (m + 1) (by omega) ?_
      obtain ⟨cut, -, le, sum⟩ := hc
      exact ⟨cut, by omega, by simpa using le, sum⟩

end Sys2Proof.Machine
end

section
/-! The passing of all that can pass, and the end of a record (R81, R82): `Passes` and `RecordEnds`. -/

namespace Sys2Proof.Machine

/-- The first `j` places of the retire queue of `s` have passed into the outcome list of `t`, one by one. -/
structure PassedThrough (s t : State) (j : Nat) : Prop where
  table : t.table = { s.table with
    outcomes := s.table.outcomes ++ s.outcomesOf (s.table.retire.take j)
    retire := s.table.retire.drop j
    records := s.table.records.filter fun r =>
      decide (r.serial ∉ (s.outcomesOf (s.table.retire.take j)).map (·.serial)) }
  stop : s.table.retire.drop j = [] ∨ 1024 ≤ t.table.outcomes.length
  bound : s.outcomesOf (s.table.retire.take j) ≠ [] → t.table.outcomes.length ≤ 1024
  counted : ∀ i, (t.campaigns.get i, t.handler.notices.campaignDone.get i)
    = ((s.outcomesOf (s.table.retire.take j)).filter fun o => decide (o.campaign = some i)).foldl (tallyOne s.air.beacon)
      (s.campaigns.get i, s.handler.notices.campaignDone.get i)
  latched : let ready := s.handler.latch = .armed ∧ s.outcomesOf (s.table.retire.take j) ≠ []
      ∧ s.store.working.outcomeTrigger ≤ t.table.outcomes.length
    t.handler.latch = (if ready then .spent else s.handler.latch)
    ∧ t.handler.timer = (if ready then 0 else s.handler.timer)
    ∧ t.handler.notices.outcomesReady = (if ready then true else s.handler.notices.outcomesReady)

theorem PassedThrough.refl {s : State} (h : s.table.retire = [] ∨ 1024 ≤ s.table.outcomes.length) : PassedThrough s s 0 where
  table := by simp [State.outcomesOf]
  stop := h
  bound := fun ne => absurd rfl ne
  counted := fun _ => rfl
  latched := by simp [State.outcomesOf]

/-- What passed one by one has passed together. -/
theorem PassedThrough.passes {s t : State} {j : Nat} (h : PassedThrough s t j) : Passes s t := by
  refine ⟨j, h.table, h.stop, h.bound, fun i => ⟨fun none => ?_, fun n completes first => ?_⟩, h.latched⟩
  · dsimp only
    rw [List.take_length]
    exact Prod.ext_iff.mp ((h.counted i).trans (foldl_tallyOne_counts _ _ _ _ none))
  · dsimp only
    rw [List.take_length]
    exact Prod.ext_iff.mp ((h.counted i).trans (foldl_tallyOne_done _ _ _ _ completes first))

/-! ### One record passing -/

theorem tallyOutcome_some (i : CampaignIndex) (code : OutcomeCode) (s : State) : tallyOutcome (some i) code s
    = doneCheck i { s with campaigns := s.campaigns.modify i fun c => { c with tallies := c.tallies.bump code } } := rfl

theorem tallyOutcome_counted (o : OutcomeRecord) (s : State) (i : CampaignIndex) :
    ((tallyOutcome o.campaign o.code s).campaigns.get i, (tallyOutcome o.campaign o.code s).handler.notices.campaignDone.get i)
      = ([o].filter fun o => decide (o.campaign = some i)).foldl (tallyOne s.air.beacon)
        (s.campaigns.get i, s.handler.notices.campaignDone.get i) := by
  cases hc : o.campaign with
  | none => simp [tallyOutcome, hc]
  | some j =>
    rw [tallyOutcome_some, doneCheck_markDone]
    by_cases hj : i = j
    · subst hj
      have mine : ([o].filter fun o => decide (o.campaign = some i)) = [o] := by simp [hc]
      rw [mine, List.foldl_cons, List.foldl_nil]
      unfold tallyOne
      simp only [Quad.get_modify, if_true]
      split_ifs
      · simp [markDone, Quad.get_modify]
      · simp [Quad.get_modify]
    · have other : ([o].filter fun o => decide (o.campaign = some i)) = [] := by simp [hc, Ne.symm hj]
      rw [other, List.foldl_nil]
      split_ifs
      · simp [markDone, Quad.get_set, Quad.get_modify, hj]
      · simp [Quad.get_modify, hj]

/-- A tally leaves the latch, its timer and its notice. -/
theorem tallyOutcome_latch (i : Option CampaignIndex) (code : OutcomeCode) (s : State) :
    (tallyOutcome i code s).handler.latch = s.handler.latch ∧ (tallyOutcome i code s).handler.timer = s.handler.timer
      ∧ (tallyOutcome i code s).handler.notices.outcomesReady = s.handler.notices.outcomesReady := by
  cases i with
  | none => exact ⟨rfl, rfl, rfl⟩
  | some i =>
    rw [tallyOutcome_some, doneCheck_markDone]
    split_ifs <;> exact ⟨rfl, rfl, rfl⟩

/-- The trigger test: the latch, its timer and its notice, and the campaigns with their notices (R174). -/
theorem latchTrigger_latch (s : State) :
    let ready := s.handler.latch = .armed ∧ s.store.working.outcomeTrigger ≤ s.table.outcomes.length
    (latchTrigger s).handler.latch = (if ready then .spent else s.handler.latch)
      ∧ (latchTrigger s).handler.timer = (if ready then 0 else s.handler.timer)
      ∧ (latchTrigger s).handler.notices.outcomesReady = (if ready then true else s.handler.notices.outcomesReady)
      ∧ (latchTrigger s).handler.notices.campaignDone = s.handler.notices.campaignDone := by
  unfold latchTrigger
  dsimp only
  split_ifs <;> exact ⟨rfl, rfl, rfl, rfl⟩

/-- A record passed: its campaign is counted, and the latch is tested at the new length. -/
theorem passHead_one {s : State} {k : Serial} {rest : List Serial} {r : Change} {o : OutcomeRecord}
    (queue : s.table.retire = k :: rest) (hr : s.recordOf k = some r) (ho : r.outcomeRecord = some o) :
    let ready := s.handler.latch = .armed ∧ s.store.working.outcomeTrigger ≤ s.table.outcomes.length + 1
    (∀ i, ((passHead s).campaigns.get i, (passHead s).handler.notices.campaignDone.get i)
      = ([o].filter fun o => decide (o.campaign = some i)).foldl (tallyOne s.air.beacon)
        (s.campaigns.get i, s.handler.notices.campaignDone.get i))
    ∧ (passHead s).handler.latch = (if ready then .spent else s.handler.latch)
    ∧ (passHead s).handler.timer = (if ready then 0 else s.handler.timer)
    ∧ (passHead s).handler.notices.outcomesReady = (if ready then true else s.handler.notices.outcomesReady) := by
  intro ready
  rw [passHead_some queue hr ho]
  set u : State := { s with
    table.retire := rest
    table.records := s.table.records.filter fun r => decide (r.serial ≠ k)
    table.outcomes := s.table.outcomes ++ [o] }
  obtain ⟨latch, timer, notice⟩ := tallyOutcome_latch o.campaign o.code u
  obtain ⟨trigLatch, trigTimer, trigNotice, done⟩ := latchTrigger_latch (tallyOutcome o.campaign o.code u)
  have readyIff : ((tallyOutcome o.campaign o.code u).handler.latch = .armed
      ∧ (tallyOutcome o.campaign o.code u).store.working.outcomeTrigger
        ≤ (tallyOutcome o.campaign o.code u).table.outcomes.length) ↔ ready := by
    rw [latch, (tallyOutcome_base o.campaign o.code u).store, (tallyOutcome_dir o.campaign o.code u).2.2.1]
    simp [u, ready]
  refine ⟨fun i => ?_, trigLatch.trans (if_congr readyIff rfl latch), trigTimer.trans (if_congr readyIff rfl timer),
    trigNotice.trans (if_congr readyIff rfl notice)⟩
  rw [(latchTrigger_dir _).2.2.2.2.1, done]
  exact tallyOutcome_counted o u i

/-! ### All that can pass -/

/-- A place of the retire queue without a FINISHED record behind it only goes. -/
theorem PassedThrough.skip {s t : State} {k : Serial} {rest : List Serial} {j : Nat} (queue : s.table.retire = k :: rest)
    (gone : (s.recordOf k).bind Change.outcomeRecord = none) (h : PassedThrough { s with table.retire := rest } t j) :
    PassedThrough s t (j + 1) := by
  have moved : s.outcomesOf (s.table.retire.take (j + 1)) = ({ s with table.retire := rest } : State).outcomesOf (rest.take j) := by
    rw [queue, List.take_succ_cons, outcomesOf_cons (s := s) (t := { s with table.retire := rest }) _ (fun _ _ => rfl) gone, gone]
    rfl
  have later : s.table.retire.drop (j + 1) = rest.drop j := by rw [queue, List.drop_succ_cons]
  exact ⟨by rw [moved, later]; exact h.table, by rw [later]; exact h.stop, by rw [moved]; exact h.bound,
    fun i => by rw [moved]; exact h.counted i, by rw [moved]; exact h.latched⟩

/-- The record at the head passes, and the others behind it. -/
theorem PassedThrough.pass {s t : State} {k : Serial} {rest : List Serial} {r : Change} {o : OutcomeRecord} {j : Nat}
    (queue : s.table.retire = k :: rest) (room : s.table.outcomes.length < 1024) (hr : s.recordOf k = some r)
    (ho : r.outcomeRecord = some o) (h : PassedThrough (passHead s) t j) : PassedThrough s t (j + 1) := by
  have table : (passHead s).table = { s.table with
      retire := rest
      records := s.table.records.filter fun r => decide (r.serial ≠ k)
      outcomes := s.table.outcomes ++ [o] } := by
    rw [passHead_some queue hr ho, (latchTrigger_dir _).2.2.1, (tallyOutcome_dir _ _ _).2.2.1]
  obtain ⟨base, -⟩ := passHead_frame s
  obtain ⟨counted, latch, timer, notice⟩ := passHead_one queue hr ho
  have left (x : Serial) : (passHead s).recordOf x = if x = k then none else s.recordOf x :=
    recordOf_filter_ne (by rw [table]) x
  have moved : s.outcomesOf (s.table.retire.take (j + 1)) = o :: (passHead s).outcomesOf (rest.take j) := by
    rw [queue, List.take_succ_cons, outcomesOf_cons (t := passHead s) _ (fun x hx => by rw [left, if_neg hx])
      (by rw [left, if_pos rfl]; rfl), hr, Option.bind_some, ho]
    rfl
  have later : s.table.retire.drop (j + 1) = rest.drop j := by rw [queue, List.drop_succ_cons]
  have retire : (passHead s).table.retire = rest := by rw [table]
  obtain ⟨htable, hstop, hbound, hcounted, hlatch, htimer, hnotice⟩ := h
  rw [retire] at htable hstop hbound hcounted hlatch htimer hnotice
  have outcomes : t.table.outcomes = s.table.outcomes ++ o :: (passHead s).outcomesOf (rest.take j) := by
    rw [htable, table]
    exact List.append_assoc ..
  have length : s.table.outcomes.length + 1 ≤ t.table.outcomes.length := by
    rw [outcomes, List.length_append, List.length_cons]
    omega
  refine ⟨?table, ?stop, fun _ => ?bound, fun i => ?counted, ?latched⟩
  case table =>
    have records (ms : List OutcomeRecord) : (s.table.records.filter fun r => decide (r.serial ≠ k)).filter
          (fun r => decide (r.serial ∉ ms.map (·.serial)))
        = s.table.records.filter fun r => decide (r.serial ∉ (o :: ms).map (·.serial)) := by
      rw [List.filter_filter]
      refine List.filter_congr fun r _ => ?_
      rw [List.map_cons, outcomeRecord_serial hr ho, Bool.eq_iff_iff, Bool.and_eq_true, decide_eq_true_iff, decide_eq_true_iff,
        decide_eq_true_iff, List.mem_cons, not_or, and_comm]
    rw [moved, later, htable, table, ← records]
    simp only [List.append_assoc, List.singleton_append]
  case stop => rw [later]; exact hstop
  case bound =>
    by_cases none : (passHead s).outcomesOf (rest.take j) = []
    · rw [outcomes, none]
      simpa using room
    · exact hbound none
  case counted =>
    rw [moved, ← List.singleton_append, List.filter_append, List.foldl_append, ← counted i]
    exact base.air ▸ hcounted i
  case latched =>
    rw [moved]
    rw [latch, base.store] at hlatch htimer hnotice
    rw [timer] at htimer
    rw [notice] at hnotice
    by_cases armed : s.handler.latch = .armed
    · by_cases reached : s.store.working.outcomeTrigger ≤ s.table.outcomes.length + 1
      · have done : s.store.working.outcomeTrigger ≤ t.table.outcomes.length := reached.trans length
        simp only [armed, reached, true_and, if_true, reduceCtorEq, false_and, if_false] at hlatch htimer hnotice
        simp only [armed, done, ne_eq, reduceCtorEq, not_false_eq_true, and_self, if_true]
        exact ⟨hlatch, htimer, hnotice⟩
      · have last (h : (passHead s).outcomesOf (rest.take j) = []) : ¬ s.store.working.outcomeTrigger ≤ t.table.outcomes.length := by
          rw [outcomes, h]
          simpa using reached
        have same : (s.handler.latch = .armed ∧ (passHead s).outcomesOf (rest.take j) ≠ []
              ∧ s.store.working.outcomeTrigger ≤ t.table.outcomes.length)
            ↔ (s.handler.latch = .armed ∧ o :: (passHead s).outcomesOf (rest.take j) ≠ []
              ∧ s.store.working.outcomeTrigger ≤ t.table.outcomes.length) :=
          ⟨fun h => ⟨h.1, List.cons_ne_nil _ _, h.2.2⟩, fun h => ⟨h.1, fun nil => last nil h.2.2, h.2.2⟩⟩
        simp only [reached, and_false, if_false] at hlatch htimer hnotice
        exact ⟨hlatch.trans (if_congr same rfl rfl), htimer.trans (if_congr same rfl rfl),
          hnotice.trans (if_congr same rfl rfl)⟩
    · simp only [armed, false_and, if_false] at hlatch htimer hnotice ⊢
      exact ⟨hlatch, htimer, hnotice⟩

/-- Where the steps reach the end of the queue, all that can pass has passed. -/
theorem passRecords_through {n : Nat} {s : State} (h : s.table.retire.length ≤ n) : ∃ j, PassedThrough s (passRecords n s) j := by
  induction n generalizing s with
  | zero => exact ⟨0, .refl (.inl (List.length_eq_zero_iff.mp (Nat.le_zero.mp h)))⟩
  | succ n ih =>
    unfold passRecords
    split
    · next done => exact ⟨0, .refl done⟩
    · next more =>
      push Not at more
      obtain ⟨k, rest, queue⟩ := List.exists_cons_of_ne_nil more.1
      have shorter : rest.length ≤ n := by
        rw [queue, List.length_cons] at h
        omega
      cases hro : (s.recordOf k).bind Change.outcomeRecord with
      | none =>
        rw [passHead_none queue hro]
        obtain ⟨j, hj⟩ := ih (s := { s with table.retire := rest }) shorter
        exact ⟨j + 1, hj.skip queue hro⟩
      | some o =>
        obtain ⟨r, hr, ho⟩ := Option.bind_eq_some_iff.mp hro
        have retire : (passHead s).table.retire = rest := by
          rw [passHead_some queue hr ho, (latchTrigger_dir _).2.2.1, (tallyOutcome_dir _ _ _).2.2.1]
        obtain ⟨j, hj⟩ := ih (s := passHead s) (by rw [retire]; exact shorter)
        exact ⟨j + 1, hj.pass queue more.2 hr ho⟩

/-- All that can pass does (R82). -/
theorem passAll_passes (s : State) : Passes s (passAll s) := by
  obtain ⟨j, hj⟩ := passRecords_through (s := s) le_rfl
  exact hj.passes

end Sys2Proof.Machine
end

section
/-! The end of a record (R81, R82): what every finishing does to the table, its campaign, the pool, the latch, its tag and the Call
Planner. -/

namespace Sys2Proof.Machine

/-! ### What `Passes` looks at -/

/-- The latch, its timer, and the notices of outcomes and campaigns are as they were. -/
structure SameNotices (s t : State) : Prop where
  latch : t.handler.latch = s.handler.latch
  timer : t.handler.timer = s.handler.timer
  ready : t.handler.notices.outcomesReady = s.handler.notices.outcomesReady
  done : t.handler.notices.campaignDone = s.handler.notices.campaignDone

theorem SameNotices.of_handler {s t : State} (h : t.handler = s.handler) : SameNotices s t :=
  ⟨by rw [h], by rw [h], by rw [h], by rw [h]⟩

theorem SameNotices.trans {s t u : State} (h : SameNotices s t) (k : SameNotices t u) : SameNotices s u :=
  ⟨k.1.trans h.1, k.2.trans h.2, k.3.trans h.3, k.4.trans h.4⟩

/-- `Passes` looks at the table, the campaigns, the latch and its notices before and after, and at the settings and the beacon. -/
theorem Passes.congr {s s' t t' : State} (h : Passes s t) (table : s'.table = s.table) (campaigns : s'.campaigns = s.campaigns)
    (notices : SameNotices s s') (store : s'.store = s.store) (air : s'.air = s.air) (table' : t'.table = t.table)
    (campaigns' : t'.campaigns = t.campaigns) (notices' : SameNotices t t') : Passes s' t' := by
  have records : s'.recordOf = s.recordOf := funext (recordOf_congr (congrArg (·.records) table))
  obtain ⟨latch, timer, ready, done⟩ := notices
  obtain ⟨latch', timer', ready', done'⟩ := notices'
  unfold Passes at h ⊢
  simp only [table, campaigns, latch, timer, ready, done, store, air, table', campaigns', latch', timer', ready', done', records]
  exact h

/-- What is counted leaves a campaign's live count. -/
theorem Passes.live {s t : State} (h : Passes s t) (i : CampaignIndex) : (t.campaigns.get i).live = (s.campaigns.get i).live := by
  obtain ⟨j, -, -, -, counted, -⟩ := h
  obtain ⟨counts, completes⟩ := counted i
  by_cases none : ∀ n, ¬ (s.campaigns.get i).completedBy ((s.outcomesOf (s.table.retire.take j)).filter fun o =>
      decide (o.campaign = some i)) n
  · rw [(counts none).1]
  · push Not at none
    classical
    rw [(completes _ (Nat.find_spec none) fun m hm => Nat.find_min none hm).1]

theorem raiseFlag_notices (f : Flag) (s : State) : SameNotices s (raiseFlag f s) := by
  obtain ⟨-, latch, timer, ready, done, -⟩ := raise_rest s.handler _ f
  exact ⟨latch, timer, ready, done⟩

theorem noteBacklog_rest (k : Serial) (s : State) : (noteBacklog k s).table = s.table ∧ (noteBacklog k s).campaigns = s.campaigns
    ∧ SameNotices s (noteBacklog k s) := by
  unfold noteBacklog
  split_ifs
  · exact ⟨rfl, rfl, raiseFlag_notices .outcomeBacklog s⟩
  · exact ⟨rfl, rfl, .of_handler rfl⟩

/-- A flag is set after a flag is raised where it is that flag or was set. -/
theorem isIn_raiseFlag (f g : Flag) (s : State) :
    f.isIn (raiseFlag g s).handler.flags = (f.isIn s.handler.flags || decide (f = g)) := by
  have flags : (raiseFlag g s).handler.flags = s.handler.flags ||| g.bit := raise_flags ..
  unfold Flag.isIn
  rw [flags, BitVec.getLsbD_or, bit_getLsbD g (by cases f <;> decide)]
  congr 1
  cases f <;> cases g <;> rfl

theorem noteBacklog_flags (f : Flag) (k : Serial) (s : State) : f.isIn (noteBacklog k s).handler.flags = true
    ↔ f.isIn s.handler.flags = true ∨ f = .outcomeBacklog ∧ k ∈ s.table.retire := by
  unfold noteBacklog
  split_ifs with h
  · rw [isIn_raiseFlag]
    simp [h]
  · simp [h]

/-! ### A record's end -/

/-- A record that has been closed joins the retire queue of a part that is otherwise as `s`. -/
theorem joinRetire_recordEnds {r : Change} {code : OutcomeCode} {s u : State} (law : TableLaw s) (mem : r ∈ s.table.records)
    (table : u.table = (closeRecord r.serial code s).table)
    (campaigns : u.campaigns = (updCampaign r.campaign (fun c => { c with live := c.live - 1 }) s).campaigns)
    (pool : u.pool = s.pool.release r.serial) (handler : u.handler = s.handler) (store : u.store = s.store) (air : u.air = s.air) :
    RecordEnds r code s (joinRetire r.serial u) := by
  have closed : (s.table.records.map fun q => if q.serial = r.serial then
        { r with state := .finished, outcome := some code, finalBeacon := some s.air.beacon } else q)
      = s.table.records.map fun q => if q.serial = r.serial then Change.closed code s.air.beacon q else q := by
    refine List.map_congr_left fun q hq => ?_
    by_cases same : q.serial = r.serial
    · rw [if_pos same, if_pos same, law.eq_of_serial hq mem same]
      rfl
    · rw [if_neg same, if_neg same]
  obtain ⟨noteTable, noteCampaigns, notices⟩ :=
    noteBacklog_rest r.serial (passAll { u with table.retire := u.table.retire ++ [r.serial] })
  have flags := noteBacklog_flags .outcomeBacklog r.serial (passAll { u with table.retire := u.table.retire ++ [r.serial] })
  have passed := passRecords_frame (u.table.retire ++ [r.serial]).length { u with table.retire := u.table.retire ++ [r.serial] }
  refine ⟨(passAll_passes { u with table.retire := u.table.retire ++ [r.serial] }).congr ?_ ?_
    (.of_handler handler.symm) store.symm air.symm noteTable noteCampaigns notices, ?_, ?_⟩
  · change _ = { u.table with retire := u.table.retire ++ [r.serial] }
    rw [table]
    exact congrArg (fun q => ({ s.table with records := q, retire := s.table.retire ++ [r.serial] } : ChangeTable)) closed
  · rw [campaigns]
    cases r.campaign <;> rfl
  · exact (joinRetire_frame r.serial u).2.2.1.trans pool
  · rw [joinRetire_eq, flags, noteTable]
    refine or_congr ?_ (and_iff_right rfl)
    have same : (passAll { u with table.retire := u.table.retire ++ [r.serial] }).handler.flags = s.handler.flags :=
      passed.2.2.2.2.trans (congrArg (·.flags) handler)
    rw [same]

/-- A record's end is told of the part as it was before what does not concern the record's end. -/
theorem RecordEnds.of_before {r : Change} {code : OutcomeCode} {s u t : State} (h : RecordEnds r code u t)
    (table : u.table = { s.table with records := u.table.records })
    (records : ∀ x : Change, (u.table.records.map fun q => if q.serial = r.serial then x else q)
      = s.table.records.map fun q => if q.serial = r.serial then x else q)
    (campaigns : u.campaigns = s.campaigns) (pool : u.pool = s.pool) (store : u.store = s.store) (air : u.air = s.air)
    (notices : SameNotices s u) (backlog : Flag.outcomeBacklog.isIn u.handler.flags = Flag.outcomeBacklog.isIn s.handler.flags) :
    RecordEnds r code s t := by
  obtain ⟨passes, released, flags⟩ := h
  refine ⟨passes.congr ?_ ?_ ⟨notices.1.symm, notices.2.symm, notices.3.symm, notices.4.symm⟩ store.symm air.symm rfl rfl
    (.of_handler rfl), released.trans (by rw [pool]), by rw [flags, backlog]⟩
  · dsimp only
    rw [records, air, table]
  · dsimp only
    rw [campaigns]

/-- Every finishing of a record, whatever its cause (R81, R82). -/
theorem finish_recordEnds {k : Serial} {r : Change} {s : State} (law : TableLaw s) (hr : s.recordOf k = some r)
    (code : OutcomeCode) (within : Bool) : RecordEnds r code s (finish k code within s) := by
  obtain rfl := recordOf_serial hr
  have mem := recordOf_mem hr
  cases within with
  | true =>
    rw [finish_within code hr]
    refine joinRetire_recordEnds law mem (endRecord_table ..) ?_ (endRecord_pool ..) ?_ ?_ ?_ <;>
      unfold endRecord <;> cases r.campaign <;> rfl
  | false =>
    rw [finish_eq code hr]
    refine joinRetire_recordEnds law mem (endRecord_table ..) ?_ (endRecord_pool ..) ?_ ?_ ?_ <;>
      unfold endRecord <;> cases r.campaign <;> rfl

/-- A record stands under its serial after another of its serial took its place. -/
theorem find?_replaced {rs : List Change} {r : Change} (h : ∃ q ∈ rs, q.serial = r.serial) :
    (rs.map fun q => if q.serial = r.serial then r else q).find? (fun q => decide (q.serial = r.serial)) = some r := by
  induction rs with
  | nil => simp at h
  | cons q rs ih =>
    by_cases same : q.serial = r.serial
    · simp [same]
    · have rest : ∃ q ∈ rs, q.serial = r.serial := by
        obtain ⟨x, hx, hs⟩ := h
        obtain rfl | hx := List.mem_cons.mp hx
        · exact absurd hs same
        · exact ⟨x, hx, hs⟩
      rw [List.map_cons, if_neg same, List.find?_cons, decide_eq_false same]
      exact ih rest

theorem eraseDups_mem {α : Type} [DecidableEq α] {a : α} {l : List α} : a ∈ l.eraseDups ↔ a ∈ l := List.mem_eraseDups

/-- A record that has ended stands in the outcome list, or waits FINISHED with its serial in the retire queue. -/
theorem RecordEnds.finishedAs {r : Change} {code : OutcomeCode} {s t : State} (h : RecordEnds r code s t)
    (held : (s.recordOf r.serial).isSome = true) : FinishedAs t (r.finishedWith code s.air.beacon) := by
  obtain ⟨⟨j, table, -⟩, -, -⟩ := h
  obtain ⟨q, hq⟩ := Option.isSome_iff_exists.mp held
  set ended : Change := { r with state := .finished, outcome := some code, finalBeacon := some s.air.beacon } with hended
  set u : State := { s with
    table := { s.table with
      records := s.table.records.map fun q => if q.serial = r.serial then ended else q
      retire := s.table.retire ++ [r.serial] }
    campaigns := match r.campaign with
      | none => s.campaigns
      | some i => s.campaigns.set i { s.campaigns.get i with live := (s.campaigns.get i).live - 1 } } with hu
  have record : u.recordOf r.serial = some ended := by
    unfold State.recordOf
    rw [if_neg (recordOf_ne_zero hq)]
    exact find?_replaced (r := ended) ⟨q, recordOf_mem hq, recordOf_serial hq⟩
  have outcome : (u.recordOf r.serial).bind Change.outcomeRecord = some (r.finishedWith code s.air.beacon) := by
    rw [record]
    rfl
  change t.table = { u.table with
    outcomes := u.table.outcomes ++ u.outcomesOf (u.table.retire.take j)
    retire := u.table.retire.drop j
    records := u.table.records.filter fun r => decide (r.serial ∉ (u.outcomesOf (u.table.retire.take j)).map (·.serial)) }
    at table
  by_cases passed : r.serial ∈ u.table.retire.take j
  · left
    rw [table]
    refine List.mem_append_right _ (List.mem_filterMap.mpr ⟨r.serial, eraseDups_mem.mpr passed, outcome⟩)
  · right
    have waits : r.serial ∈ u.table.retire.drop j := by
      have mem : r.serial ∈ u.table.retire.take j ++ u.table.retire.drop j := by
        rw [List.take_append_drop]
        simp [hu]
      exact (List.mem_append.mp mem).resolve_left passed
    rw [table]
    refine ⟨waits, ended, List.mem_filter.mpr ⟨recordOf_mem record, decide_eq_true ?_⟩, rfl, rfl, rfl⟩
    intro moved
    obtain ⟨o, ho, same⟩ := List.mem_map.mp moved
    obtain ⟨k, hk, hko⟩ := List.mem_filterMap.mp ho
    obtain ⟨x, hx, hxo⟩ := Option.bind_eq_some_iff.mp hko
    have serial : k = r.serial := (outcomeRecord_serial hx hxo).symm.trans same
    exact passed (serial ▸ eraseDups_mem.mp hk)

/-- A record that has ended leaves its campaign one live record fewer. -/
theorem RecordEnds.live {r : Change} {code : OutcomeCode} {s t : State} (h : RecordEnds r code s t) (i : CampaignIndex) :
    (t.campaigns.get i).live = (s.campaigns.get i).live - (if r.campaign = some i then 1 else 0) := by
  obtain ⟨passes, -, -⟩ := h
  rw [passes.live i]
  cases hc : r.campaign with
  | none => simp
  | some j =>
    dsimp only
    rw [Quad.get_set]
    by_cases hj : i = j
    · subst hj
      simp
    · rw [if_neg hj, if_neg fun h => hj (Option.some.inj h).symm]
      rfl

/-! ### The Call Planner at a finishing -/

/-- The part as the Call Planner finds it when it is told of ended work (log entry 24). -/
def endNotice (r : Change) (code : OutcomeCode) (s : State) : State :=
  dropBoost r.addr (clearLive r.addr r.serial (closeRecord r.serial code s))

theorem finish_planner {k : Serial} {r : Change} {s : State} (hr : s.recordOf k = some r) (code : OutcomeCode) :
    (finish k code false s).planner = { s.planner with
      calendar := (workNotice r.addr (endNotice r code s)).planner.calendar
      boosts := s.planner.boosts.map fun l => l.filter fun x => decide (x.addr ≠ r.addr) } := by
  obtain rfl := recordOf_serial hr
  rw [finish_eq code hr, (joinRetire_frame _ _).2.2.2]
  simp [endNotice]

theorem workNotice_calendar_others {a : Nat} {s : State} {d : Cell} {y : CalendarEntry} (other : y.addr ≠ a) :
    y ∈ (workNotice a s).planner.calendar.get d ↔ y ∈ s.planner.calendar.get d := by
  obtain h | h | h := workNotice_eq a s <;> rw [h]
  · obtain h | ⟨e, c, -, -, h⟩ := fileTag_eq a s
    · rw [h]
    rw [h, mem_placeCalendar]
    exact ⟨fun h => h.elim (fun new => absurd (congrArg (·.addr) new.2) other) (·.1), fun h => .inr ⟨h, other⟩⟩
  · rw [mem_dropCalendar]
    exact and_iff_left other

/-- A finishing leaves the other tags. -/
theorem finish_othersKept {k : Serial} {r : Change} {s : State} (hr : s.recordOf k = some r) (code : OutcomeCode) :
    OthersKept r.addr s (finish k code false s) where
  entries := ⟨fun e => if e.live = some k then { e with live := none } else e, by rw [finish_dir code hr]; rfl⟩
  strangers := by rw [finish_dir code hr]; rfl
  last := by rw [finish_planner hr]
  calendar d y other := by rw [finish_planner hr]; exact workNotice_calendar_others other
  boosts d y other := by
    rw [finish_planner hr]
    simp [Quad.get_map, List.mem_filter, other]

/-- What the Call Planner leaves of a tag's calendar entry when it is told of it in a part `u` with the calendars of `s`. -/
theorem calendarTold_of_notice {e e' : Entry} {work : Prop} {due : Cell → Beacon → Prop} {s t u : State}
    (held : u.entryAt e.addr = some e') (state : e'.state = e.state) (home : e'.home = e.home)
    (works : u.hasWork e' = true ↔ work) (dues : ∀ h, due h (u.fileDue e' h))
    (before : u.planner.calendar = s.planner.calendar)
    (after : t.planner.calendar = (workNotice e.addr u).planner.calendar) : CalendarTold e work due s t := by
  have filedIff : (u.calendarOf e.addr).isSome = true ↔ ∃ d, ∃ y ∈ s.planner.calendar.get d, y.addr = e.addr := by
    rw [calendarOf_isSome_iff, before]
  refine ⟨fun other d y _ => ?_, fun present working filed d y _ => ?_, fun h present working unfiled hh => ?_,
    fun present idle d y hy => ?_⟩
  · rw [after, workNotice_absent held (state ▸ other), before]
  · rw [after, workNotice_filed held (state.trans present) (works.mpr working) (filedIff.mpr filed), before]
  · refine ⟨u.fileDue e' h, dues h, fun d y same => ?_⟩
    have fresh : ¬ ∃ d, ∃ y ∈ u.planner.calendar.get d, y.addr = e.addr := by
      rw [before]
      exact unfiled
    rw [after, workNotice_files held (state.trans present) (works.mpr working) (mt filedIff.mp unfiled) (home.trans hh),
      mem_placeCalendar_new fresh, before]
    constructor
    · rintro (old | ⟨rfl, rfl⟩)
      · exact absurd ⟨d, y, old, same⟩ unfiled
      · exact ⟨rfl, rfl⟩
    · rintro ⟨rfl, at_due⟩
      exact .inr ⟨rfl, by rw [← same, ← at_due]⟩
  · rw [after, workNotice_idle held (state.trans present) (mt works.mp idle), mem_dropCalendar] at hy
    exact hy.2

/-- A change of the entries that keeps their addresses is seen at each address. -/
theorem entryAt_map {f : Entry → Entry} (hf : ∀ e, (f e).addr = e.addr) {s t : State}
    (ht : t.dir.entries = s.dir.entries.map f) (a : Nat) : t.entryAt a = (s.entryAt a).map f := by
  unfold State.entryAt
  rw [ht, List.find?_map]
  congr 2
  funext e
  simp [hf]

theorem hasWork_noLive {s : State} {e : Entry} (h : e.live = none) :
    s.hasWork e = true ↔ e.commanded.isSome = true ∨ e.flash = true := by
  simp [State.hasWork, State.liveRecord, h]

/-- The Call Planner's part in a finishing: the tag's filing by its class, once its change and its boost are gone (log entry 24). -/
theorem finish_calendarTold {k : Serial} {r : Change} {s : State} {e : Entry} (hr : s.recordOf k = some r)
    (he : s.entryAt r.addr = some e) (live : e.live = some k) (code : OutcomeCode) :
    CalendarTold e (e.commanded.isSome = true ∨ e.flash = true) (ClassFiling s e) s (finish k code false s) := by
  obtain rfl := recordOf_serial hr
  obtain ⟨-, addr⟩ := entryAt_mem he
  have cleared : e.cleared r.addr r.serial = { e with live := none } := if_pos ⟨addr, live⟩
  have held : (endNotice r code s).entryAt e.addr = some { e with live := none } := by
    have entries : (endNotice r code s).dir.entries = s.dir.entries.map (Entry.cleared r.addr r.serial) :=
      congrArg (·.entries) (clearLive_dir r.addr r.serial s)
    rw [congrArg (endNotice r code s).entryAt addr, entryAt_map (cleared_addr r.addr r.serial) entries, he, Option.map_some,
      cleared]
  refine calendarTold_of_notice held rfl rfl (hasWork_noLive rfl) (fun h => ?_) rfl
    (by rw [finish_planner hr, addr])
  have unboosted : ((endNotice r code s).planner.boosts.get h).filter (fun x => decide (x.addr = e.addr) && x.confirmed) = [] := by
    rw [List.filter_eq_nil_iff]
    intro x hx same
    have := ne_of_mem_dropped h x hx
    rw [← addr] at this
    simp only [Bool.and_eq_true, decide_eq_true_eq] at same
    exact this same.1
  obtain ⟨-, byClass⟩ := fileDue_filedFor (endNotice r code s) { e with live := none } h
  exact byClass (by rw [unboosted]; simp)

theorem isIn_flags_congr {s t : State} (h : t.handler.flags = s.handler.flags) (f : Flag) :
    f.isIn t.handler.flags = f.isIn s.handler.flags := by rw [h]

/-- A finishing sets no flag but OUTCOME_BACKLOG. -/
theorem joinRetire_flags {f : Flag} (other : f ≠ .outcomeBacklog) (k : Serial) (s : State) :
    f.isIn (joinRetire k s).handler.flags = f.isIn s.handler.flags := by
  have passed := passRecords_frame (s.table.retire ++ [k]).length { s with table.retire := s.table.retire ++ [k] }
  rw [joinRetire_eq, Bool.eq_iff_iff, noteBacklog_flags]
  rw [or_iff_left fun h => other h.1]
  exact Bool.eq_iff_iff.mp (isIn_flags_congr passed.2.2.2.2 f)

theorem finish_flags {f : Flag} (other : f ≠ .outcomeBacklog) {k : Serial} {r : Change} {s : State} (hr : s.recordOf k = some r)
    (code : OutcomeCode) : f.isIn (finish k code false s).handler.flags = f.isIn s.handler.flags := by
  rw [finish_eq code hr, joinRetire_flags other]
  unfold endRecord
  cases r.campaign <;> rfl

/-- A record that is not FINISHED is the live change of the entry at its address (R62). -/
theorem LiveLaw.live_of_record {s : State} (live : LiveLaw s) (directory : DirectoryLaw s) {r : Change} (hr : r ∈ s.table.records)
    (running : r.state ≠ .finished) {e : Entry} (he : s.entryAt r.addr = some e) : e.live = some r.serial := by
  obtain ⟨d, hd, addr, hlive⟩ := live.2 r hr running
  have same := directory.entryAt hd
  rw [addr, he] at same
  rwa [Option.some.inj same]

/-! ### CANCEL-CHANGE -/

theorem exec_cancelChange (num : Byte) (payload : List Byte) (s : State) :
    exec (.cancelChange num payload) s
      = .next (request 0x18 num payload (ofLength 2 payload (actCancelChange payload)) s) := rfl

/-- Settles O42: by the state of the record that the serial names. -/
theorem cancelChangeRule : Obligations.CancelChangeRule := by
  refine ⟨fun k code within r s law hr => finish_recordEnds law hr code within, fun num k s ready law => ?_⟩
  have answer {a : Answer} (h : actCancelChange (le 2 k.toNat) s = a) :
      exec (.cancelChange num (le 2 k.toNat)) s = .next (answerWith 0x18 num a) := by
    rw [exec_cancelChange, request_ofLength_ready ready 0x18 num (le_length 2 _), h]
  unfold actCancelChange at answer
  rw [ofNat_leNat_le k (by norm_num)] at answer
  dsimp only at answer
  refine ⟨fun none => answer (a := refuse .noSuchChange s) (by rw [none]), fun r hr => ?_⟩
  rw [hr] at answer
  dsimp only at answer
  refine ⟨fun running => ?_, fun staged => ⟨_, rfl, ?_⟩, fun h => answer (a := refuse .already s) (by rw [h]),
    fun h => answer (a := refuse .tooLate s) (by rw [h]), fun h => answer (a := refuse .noSuchChange s) (by rw [h])⟩
  · have finished := answer (a := okWith [5] (finish k .cancelled false s)) (by obtain h | h := running <;> rw [h] <;> rfl)
    obtain ⟨base, tags, -⟩ := finish_frame k .cancelled false s
    have ends := finish_recordEnds law hr .cancelled false
    have serial := recordOf_serial hr
    refine ⟨finish k .cancelled false s, ?_, base, tags, finish_othersKept hr .cancelled, ends, ?_, fun e he addr live => ?_,
      fun d x hx => ?_, ends.live, fun waits => ?_, ends.finishedAs (by rw [serial, hr]; rfl), fun f other => finish_flags other hr _,
      fun directory live e he => finish_calendarTold hr he ?_ .cancelled⟩
    · rw [finished, answer_okWith _ _ _ base.line]
      rfl
    · exact serial ▸ ends.2.1
    · rw [finish_dir .cancelled hr, clearLive_dir] at he
      obtain ⟨x, hx, rfl⟩ := List.mem_map.mp he
      rw [cleared_live, cleared_addr] at *
      split at live
      · cases live
      · next other => exact other ⟨addr, live⟩
    · rw [finish_planner hr] at hx
      exact ne_of_mem_dropped d x hx
    · exact ends.2.2.mpr (.inr (serial ▸ waits))
    · exact serial ▸ live.live_of_record directory (recordOf_mem hr) (by obtain h | h := running <;> rw [h] <;> decide) he
  · have withdrawn := answer (a := okWith [3] (workNotice r.addr (updRecord k (fun r => { r with state := .withdrawing }) s)))
      (by rw [staged]; rfl)
    rw [withdrawn, answer_okWith _ _ _ (workNotice_line _ _)]
    rfl

end Sys2Proof.Machine
end

section
/-! The OUTCOMES_READY time-out and FETCH-OUTCOMES (R82, R84, R174). -/

namespace Sys2Proof.Machine

/-! ### Outcome records -/

@[simp] theorem outcomeBytes_length (o : OutcomeRecord) : o.bytes.length = 15 := by simp [OutcomeRecord.bytes]

/-- An outcome record's fields stand at their offsets (Table 11-7). -/
theorem outcomeBytes_fields (o : OutcomeRecord) : OutcomeFields o o.bytes := by
  unfold OutcomeFields
  refine ⟨outcomeBytes_length o, ?serial, ?tagId, ?campaign, ?code, ?marks, ?beacon, ?calls, ?spent⟩
  all_goals
    unfold OutcomeRecord.bytes
    simp only [List.append_assoc, List.cons_append, List.nil_append]
    simp (disch := omega) only [field_le_front, field_le_skip, field_cons_skip, field_head, field_le_alone, Nat.sub_self,
      Nat.reduceSub]
  case serial | tagId | beacon => exact toNat_mod_pow _ (by norm_num)
  case campaign => exact campaignNumber_mod o.campaign
  case marks => exact marksByte_toNat o.late o.staleCut
  case calls | spent => rfl

/-- The reply of a fetch lists the records that it takes, in order. -/
theorem fetchBytes_part {os : List OutcomeRecord} {n : Nat} {o : OutcomeRecord} (h : os[n]? = some o) :
    ((le 1 os.length ++ os.flatMap OutcomeRecord.bytes).drop (1 + 15 * n)).take 15 = o.bytes := by
  have part := part_flatMap (f := OutcomeRecord.bytes) (fun o _ => outcomeBytes_length o) h []
  rw [List.append_nil] at part
  rw [← List.drop_drop, List.drop_append_of_le_length (by simp), List.drop_of_length_le (l := le 1 os.length) (by simp),
    List.nil_append]
  exact part

/-! ### The requests -/

theorem exec_outcomesReadyTimeout {s : State} (hp : s.powered = true) :
    exec .outcomesReadyTimeout s = .next (outcomesTimeout s) := congrArg _ (event_powered hp _)

theorem exec_fetchOutcomes (num : Byte) (s : State) :
    exec (.fetchOutcomes num []) s = .next (request 0x1A num [] (ofLength 0 [] actFetchOutcomes) s) := rfl

/-- The latch and its timer after a fetch (R174). -/
theorem fetchLatch_eq (u : State) : fetchLatch u = { u with
    handler.latch := if u.table.outcomes.length < u.store.working.outcomeTrigger then .armed else u.handler.latch
    handler.timer := if u.table.outcomes.length < u.store.working.outcomeTrigger ∨ u.handler.latch = .armed then 0
      else u.handler.timer } := by
  unfold fetchLatch
  by_cases below : u.table.outcomes.length < u.store.working.outcomeTrigger
  · rw [if_pos below, if_pos below, if_pos (.inl below)]
  · rw [if_neg below, if_neg below, if_congr (or_iff_right below) rfl rfl]
    split_ifs <;> rfl

/-- Settles O43: a fetch takes the oldest records, and what can pass moves in behind. -/
theorem outcomesRule : Obligations.OutcomesRule := by
  refine ⟨fun s hp armed waiting below => ?_, fun num s ready => ?_⟩
  · rw [exec_outcomesReadyTimeout hp]
    exact congrArg _ (if_pos ⟨armed, waiting, below⟩)
  · intro trigger left
    have frame := passRecords_frame left.table.retire.length left
    obtain ⟨base, dir, pool, planner, flags⟩ := frame
    have count : (s.table.outcomes.take 16).length = min 16 s.table.outcomes.length := List.length_take
    have fetched : fetchLatch (passAll left) = { passAll left with
        handler.latch := if (passAll left).table.outcomes.length < trigger then .armed else (passAll left).handler.latch
        handler.timer := if (passAll left).table.outcomes.length < trigger ∨ (passAll left).handler.latch = .armed then 0
          else (passAll left).handler.timer } := by
      have same : (passAll left).store.working.outcomeTrigger = trigger := congrArg (·.working.outcomeTrigger) base.store
      rw [fetchLatch_eq, same]
    refine ⟨{ passAll left with
        handler.latch := if (passAll left).table.outcomes.length < trigger then .armed else (passAll left).handler.latch
        handler.timer := if (passAll left).table.outcomes.length < trigger ∨ (passAll left).handler.latch = .armed then 0
          else (passAll left).handler.timer }, passAll left, le 1 (s.table.outcomes.take 16).length ++ (s.table.outcomes.take 16).flatMap OutcomeRecord.bytes,
      ?_, ?_, ?_, fun n o h => ?_, ?_, dir, pool, planner, flags, passAll_passes left, fun bound => ?_, rfl, fun below => ?_,
      fun none => ?_⟩
    · rw [exec_fetchOutcomes, request_ofLength_ready ready 0x1A num List.length_nil, ← fetched]
      have line : (fetchLatch (passAll left)).line = s.line := by
        rw [fetched]
        exact base.line
      exact answer_okWith 0x1A num _ line
    · rw [field_le_front, count]
      exact Nat.mod_eq_of_lt (by omega)
    · rw [List.length_append, le_length, flatMap_length outcomeBytes_length, count]
    · rw [fetchBytes_part h]
      exact outcomeBytes_fields o
    · exact ⟨base.powered, base.store, base.air, base.cells, base.line, base.task, base.freeIndex, base.pending⟩
    · exact passRecords_bound _ left ((List.length_drop ..).trans_le ((Nat.sub_le ..).trans bound))
    · exact ⟨if_pos below, if_pos (.inl below)⟩
    · have stays : passAll left = left := by
        unfold passAll
        rw [show left.table.retire = [] from none]
        rfl
      rw [stays]

end Sys2Proof.Machine
end

section
/-! The slot end's turns (R153), and the LOST transition (R42, R158). -/

namespace Sys2Proof.Machine

/-! ### Taking a slot end -/

theorem exec_slotEnd {s : State} (hp : s.powered = true) (c : Cell) (received : Option (List Byte)) (level : Byte) :
    exec (.slotEnd c received level) s = .next (slotEnd c received level s) := congrArg _ (event_powered hp _)

theorem nextSlot_split {before after : List Slot} {p : Snapshot} {downlink : List (List Byte)}
    (ended : ∀ x ∈ before, x.ended = true) :
    nextSlot (before ++ ⟨p, downlink, false⟩ :: after) = some (p, before ++ ⟨p, downlink, true⟩ :: after) := by
  induction before with
  | nil => rfl
  | cons x xs ih =>
    rw [List.cons_append, nextSlot, if_pos (ended x List.mem_cons_self),
      ih fun y hy => ended y (List.mem_cons_of_mem x hy)]
    rfl

/-- The slot end of the next slot is that of its snapshot, the slot marked ended. -/
theorem slotEnd_next {s : State} {c : Cell} {p : Snapshot} {windows : Quad (Option Window)} (next : NextSlot s c p windows)
    (received : Option (List Byte)) (level : Byte) :
    slotEnd c received level s = endSlot p received level { s with cells.windows := windows } := by
  obtain ⟨w, before, downlink, after, opened, slots, ended, rfl⟩ := next
  unfold slotEnd
  rw [opened]
  dsimp only
  rw [slots, nextSlot_split ended]

theorem exec_slotEnd_next {s : State} (hp : s.powered = true) {c : Cell} {p : Snapshot} {windows : Quad (Option Window)}
    (next : NextSlot s c p windows) (received : Option (List Byte)) (level : Byte) :
    exec (.slotEnd c received level) s = .next (endSlot p received level { s with cells.windows := windows }) := by
  rw [exec_slotEnd hp, slotEnd_next next]

theorem endSlot_missed {p : Snapshot} {received : Option (List Byte)} (level : Byte) {s : State} {e : Entry}
    (held : s.entryAt p.addr = some e) (same : e.tagId = p.tagId) (missed : slotReport p received = none) :
    endSlot p received level s = slotFiling p.addr (resolveBoost p none (countMiss p.addr s)) := by
  unfold endSlot
  rw [held]
  dsimp only
  rw [if_pos same, missed]

theorem endSlot_reported {p : Snapshot} {received : Option (List Byte)} {rep : Report} (level : Byte) {s : State} {e : Entry}
    (held : s.entryAt p.addr = some e) (same : e.tagId = p.tagId) (reported : slotReport p received = some rep) :
    endSlot p received level s = slotFiling p.addr (resolveBoost p (some rep)
      (budgetReport p rep (changeReport p.addr p.serial rep (directoryReport p rep level s)))) := by
  unfold endSlot
  rw [held]
  dsimp only
  rw [if_pos same, reported]

theorem slotReport_none (p : Snapshot) : slotReport p none = none := rfl

theorem endSlot_gone {p : Snapshot} (received : Option (List Byte)) (level : Byte) {s : State}
    (gone : ∀ e ∈ s.dir.entries, e.addr = p.addr → e.tagId ≠ p.tagId) : endSlot p received level s = s := by
  unfold endSlot
  cases held : s.entryAt p.addr with
  | none => rfl
  | some e =>
    obtain ⟨mem, addr⟩ := entryAt_mem held
    exact if_neg (gone e mem addr)

/-! ### A miss -/

theorem entryAt_updEntry_same {f : Entry → Entry} (hf : ∀ e, (f e).addr = e.addr) {a : Nat} {s : State} {e : Entry}
    (held : s.entryAt a = some e) : (updEntry a f s).entryAt a = some (f e) := by
  obtain ⟨-, addr⟩ := entryAt_mem held
  rw [entryAt_map (f := fun e => if e.addr = a then f e else e) (fun e => by split <;> simp [hf]) (s := s) rfl, held,
    Option.map_some, if_pos addr]

theorem boostOf_eq_none_iff (s : State) (a : Nat) :
    s.boostOf a = none ↔ ∀ c, ∀ x ∈ s.planner.boosts.get c, x.addr ≠ a := by
  rw [← Option.not_isSome_iff_eq_none, boostOf_isSome_iff]
  push Not
  rfl

/-- Without a boost list entry there is nothing to resolve. -/
theorem resolveBoost_none {p : Snapshot} {s : State} (rep : Option Report)
    (h : ∀ c, ∀ x ∈ s.planner.boosts.get c, x.addr ≠ p.addr) : resolveBoost p rep s = s := by
  unfold resolveBoost
  rw [(boostOf_eq_none_iff s p.addr).mpr h]

theorem slotFiling_absent {a : Nat} {s : State} {e : Entry} (held : s.entryAt a = some e) (absent : e.state ≠ .present) :
    slotFiling a s = s := by
  unfold slotFiling
  rw [held]
  exact if_neg absent

/-- The part of a LOST tag before its live change is looked at (R42). -/
def dropLost (e : Entry) (s : State) : State :=
  dropGrants e.tagId (dropBoost e.addr (dropCalendar e.addr
    (raiseFlag .tagLost (updEntry e.addr (fun e => { e with state := .lost }) s))))

theorem becomeLost_eq (e : Entry) (s : State) : becomeLost e s = match s.liveRecord e with
    | none => dropLost e s
    | some r => match lostOutcome r.state with
      | none => dropLost e s
      | some code => finish r.serial code false (dropLost e s) := by
  unfold becomeLost
  change (match s.liveRecord e with | none => _ | some r => _) = _
  cases s.liveRecord e with
  | none => rfl
  | some r =>
    dsimp only
    cases lostOutcome r.state <;> rfl

/-- In a directory in order a change of the entry at an address may be told of that entry alone. -/
theorem map_at_entry {s : State} (directory : DirectoryLaw s) {a : Nat} {e : Entry} (held : s.entryAt a = some e)
    (f : Entry → Entry) : (s.dir.entries.map fun x => if x.addr = a then f x else x)
      = s.dir.entries.map fun x => if x.addr = a then f e else x := by
  obtain ⟨mem, addr⟩ := entryAt_mem held
  refine List.map_congr_left fun x hx => ?_
  by_cases here : x.addr = a
  · rw [if_pos here, if_pos here, directory.eq_of_addr hx mem (here.trans addr.symm)]
  · rw [if_neg here, if_neg here]

/-- A record's end does not bring a LOST tag's boost or calendar entry back. -/
theorem finish_lost_planner {k : Serial} {r : Change} {s : State} {e : Entry} (hr : s.recordOf k = some r) (code : OutcomeCode)
    (held : s.entryAt r.addr = some e) (lost : e.state = .lost)
    (unboosted : ∀ c, ∀ x ∈ s.planner.boosts.get c, x.addr ≠ r.addr) : (finish k code false s).planner = s.planner := by
  obtain rfl := recordOf_serial hr
  have entries : (endNotice r code s).dir.entries = s.dir.entries.map (Entry.cleared r.addr r.serial) :=
    congrArg (·.entries) (clearLive_dir r.addr r.serial s)
  have cleared : (endNotice r code s).entryAt r.addr = some (e.cleared r.addr r.serial) := by
    rw [entryAt_map (cleared_addr r.addr r.serial) entries, held, Option.map_some]
  have absent : (e.cleared r.addr r.serial).state ≠ .present := by
    unfold Entry.cleared
    split <;> (rw [lost]; decide)
  have boosts : (s.planner.boosts.map fun l => l.filter fun x => decide (x.addr ≠ r.addr)) = s.planner.boosts := by
    refine Quad.ext_get fun c => ?_
    rw [Quad.get_map]
    exact List.filter_eq_self.mpr fun x hx => decide_eq_true (unboosted c x hx)
  rw [finish_planner hr, workNotice_absent cleared absent, boosts]
  rfl

/-- What the LOST transition of entry `e` leaves, its live change being `live` from then on (R42). -/
structure LostAs (s : State) (windows : Quad (Option Window)) (e : Entry) (live : Option Serial) (t : State) : Prop where
  dir : t.dir = { s.dir with
    entries := s.dir.entries.map fun x =>
      if x.addr = e.addr then { e with state := .lost, misses := s.store.working.missLimit, live := live } else x
    grants := s.dir.grants.map fun l => l.filter fun g => decide (g.tagId ≠ e.tagId) }
  planner : t.planner = { s.planner with
    calendar := s.planner.calendar.map fun l => l.filter fun x => decide (x.addr ≠ e.addr)
    boosts := s.planner.boosts.map fun l => l.filter fun x => decide (x.addr ≠ e.addr) }
  base : SameBase { s with cells.windows := windows } t
  tagLost : Flag.tagLost.isIn t.handler.flags = true
  flags : ∀ f, f ≠ Flag.tagLost → f ≠ .outcomeBacklog → f.isIn t.handler.flags = f.isIn s.handler.flags

/-- The part of a tag that has just become LOST, before its live change ends. -/
def lostState (s : State) (windows : Quad (Option Window)) (e : Entry) : State :=
  dropLost e (updEntry e.addr (fun x => { x with misses := min (x.misses + 1) s.store.working.missLimit })
    { s with cells.windows := windows })

theorem lostState_lostAs {s : State} {windows : Quad (Option Window)} {e : Entry} (directory : DirectoryLaw s)
    (held : s.entryAt e.addr = some e) (limit : s.store.working.missLimit ≤ e.misses + 1) :
    LostAs s windows e e.live (lostState s windows e) where
  dir := by
    have entries : (lostState s windows e).dir.entries = s.dir.entries.map fun x => if x.addr = e.addr then
        { x with state := .lost, misses := min (x.misses + 1) s.store.working.missLimit } else x := by
      change ((s.dir.entries.map _).map _) = _
      rw [List.map_map]
      refine List.map_congr_left fun x _ => ?_
      by_cases here : x.addr = e.addr <;> simp [here]
    have alone := map_at_entry directory held fun x =>
      { x with state := .lost, misses := min (x.misses + 1) s.store.working.missLimit }
    rw [min_eq_right limit] at alone
    change { (lostState s windows e).dir with entries := (lostState s windows e).dir.entries } = _
    rw [entries, alone]
    rfl
  planner := rfl
  base := ⟨rfl, rfl, rfl, rfl, rfl, (raiseFlag_base .tagLost s).task, rfl, rfl⟩
  tagLost := (isIn_raiseFlag .tagLost .tagLost s).trans (by simp)
  flags f h _ := (isIn_raiseFlag f .tagLost s).trans (by simp [h])

theorem LostAs.entryAt {s t : State} {windows : Quad (Option Window)} {e : Entry} {live : Option Serial}
    (h : LostAs s windows e live t) (held : s.entryAt e.addr = some e) : t.entryAt e.addr
      = some { e with state := .lost, misses := s.store.working.missLimit, live := live } := by
  rw [entryAt_map (s := s) (f := fun x => if x.addr = e.addr then
    { e with state := .lost, misses := s.store.working.missLimit, live := live } else x)
    (fun x => by split <;> simp_all) (by rw [h.dir]), held, Option.map_some, if_pos rfl]

theorem LostAs.unboosted {s t : State} {windows : Quad (Option Window)} {e : Entry} {live : Option Serial}
    (h : LostAs s windows e live t) (c : Cell) : ∀ x ∈ t.planner.boosts.get c, x.addr ≠ e.addr := by
  rw [h.planner]
  exact fun x hx => ne_of_mem_dropped c x hx

/-- The end of a LOST tag's live change. -/
theorem LostAs.finish {s t : State} {windows : Quad (Option Window)} {e : Entry} {r : Change}
    (h : LostAs s windows e e.live t) (held : s.entryAt e.addr = some e) (hr : t.recordOf r.serial = some r)
    (addr : r.addr = e.addr) (live : e.live = some r.serial) (code : OutcomeCode) :
    LostAs s windows e none (finish r.serial code false t) where
  dir := by
    rw [finish_dir code hr, clearLive_dir, h.dir, addr]
    dsimp only
    rw [List.map_map]
    congr 1
    refine List.map_congr_left fun x hx => ?_
    by_cases here : x.addr = e.addr
    · simp [Entry.cleared, here, live]
    · simp [Entry.cleared, here]
  planner := by
    rw [finish_lost_planner hr code (by rw [addr]; exact h.entryAt held) rfl (by rw [addr]; exact h.unboosted)]
    exact h.planner
  base := h.base.trans (finish_frame r.serial code false t).1
  tagLost := (finish_flags (by decide) hr code).trans h.tagLost
  flags f h1 h2 := (finish_flags h2 hr code).trans (h.flags f h1 h2)

/-- An entry's live change is a record at its address (R62). -/
theorem LiveLaw.addr_of_live {s : State} (live : LiveLaw s) (law : TableLaw s) {e : Entry} (he : e ∈ s.dir.entries) {r : Change}
    (hr : s.liveRecord e = some r) : r.addr = e.addr ∧ r.tagId = e.tagId ∧ r.state ≠ .finished := by
  obtain ⟨hlive, hrec⟩ := liveRecord_eq_some hr
  obtain ⟨q, hq, serial, addr, tagId, running⟩ := live.1 e he r.serial hlive
  obtain rfl := law.eq_of_serial hq (recordOf_mem hrec) serial
  exact ⟨addr, tagId, running⟩

/-- The miss that reaches the limit, where the LOST transition leaves `t` (R158). -/
theorem exec_lost {s : State} (hp : s.powered = true) {c : Cell} {p : Snapshot} {windows : Quad (Option Window)} {e : Entry}
    (level : Byte) (next : NextSlot s c p windows) (held : s.entryAt p.addr = some e) (same : e.tagId = p.tagId)
    (present : e.state = .present) (limit : s.store.working.missLimit ≤ e.misses + 1) {t : State} {live : Option Serial}
    (becomes : becomeLost e (updEntry e.addr (fun x => { x with misses := min (x.misses + 1) s.store.working.missLimit })
      { s with cells.windows := windows }) = t) (lost : LostAs s windows e live t) :
    exec (.slotEnd c none level) s = .next t := by
  obtain ⟨-, addr⟩ := entryAt_mem held
  have held' : ({ s with cells.windows := windows } : State).entryAt p.addr = some e := held
  have here : s.entryAt e.addr = some e := addr ▸ held
  have counted : countMiss p.addr { s with cells.windows := windows } = t := by
    unfold countMiss
    rw [held', ← addr]
    exact (if_pos ⟨limit, present⟩).trans becomes
  rw [exec_slotEnd_next hp next, endSlot_missed level held' same rfl, counted,
    resolveBoost_none none (by rw [← addr]; exact lost.unboosted), ← addr,
    slotFiling_absent (lost.entryAt here) (fun h => EntryState.noConfusion h)]

/-- Settles O51: the entry's work is dropped, then its live change ends by its state. -/
theorem lostRule : Obligations.LostRule := by
  intro c level p windows e s hp next directory law live held same present limit
  obtain ⟨mem, addr⟩ := entryAt_mem held
  have here : s.entryAt e.addr = some e := addr ▸ held
  have lost := lostState_lostAs (windows := windows) directory here limit
  have step := fun {t : State} {live : Option Serial} => exec_lost hp level next held same present limit (t := t) (live := live)
  rw [becomeLost_eq] at step
  change ∀ {t : State} {live : Option Serial}, (match s.liveRecord e with
    | none => lostState s windows e
    | some r => match lostOutcome r.state with
      | none => lostState s windows e
      | some code => finish r.serial code false (lostState s windows e)) = t → _ at step
  rw [← same, ← addr]
  have ended {r : Change} {code : OutcomeCode} (hr : s.liveRecord e = some r) (hc : lostOutcome r.state = some code) :
      LostAs s windows e none (finish r.serial code false (lostState s windows e))
        ∧ exec (.slotEnd c none level) s = .next (finish r.serial code false (lostState s windows e))
        ∧ FinishedAs (finish r.serial code false (lostState s windows e)) (r.finishedWith code s.air.beacon)
        ∧ RecordEnds r code s (finish r.serial code false (lostState s windows e)) := by
    obtain ⟨hlive, hrec⟩ := liveRecord_eq_some hr
    have hrec' : (lostState s windows e).recordOf r.serial = some r := hrec
    have after := lost.finish here hrec' (live.addr_of_live law mem hr).1 hlive code
    have ends : RecordEnds r code s (finish r.serial code false (lostState s windows e)) :=
      (finish_recordEnds (s := lostState s windows e) law hrec' code false).of_before rfl (fun _ => rfl) rfl rfl rfl rfl
        ((raiseFlag_notices .tagLost s).trans (.of_handler rfl)) ((isIn_raiseFlag .outcomeBacklog .tagLost s).trans (by simp))
    refine ⟨after, step ?_ after, ends.finishedAs (by rw [hrec]; rfl), ends⟩
    rw [hr]
    dsimp only
    rw [hc]
  have kept (h : ∀ r, s.liveRecord e = some r → lostOutcome r.state = none) :
      exec (.slotEnd c none level) s = .next (lostState s windows e) := by
    refine step ?_ lost
    cases hr : s.liveRecord e with
    | none => rfl
    | some r =>
      dsimp only
      rw [h r hr]
  suffices outcome : ∃ t l, exec (.slotEnd c none level) s = .next t ∧ LostAs s windows e l t
      ∧ ((∀ r, s.liveRecord e = some r → lostOutcome r.state = none) →
        l = e.live ∧ t.table = s.table ∧ t.pool = s.pool ∧ t.campaigns = s.campaigns)
      ∧ ∀ r code, s.liveRecord e = some r → lostOutcome r.state = some code →
        l = none ∧ FinishedAs t (r.finishedWith code s.air.beacon) ∧ t.pool = s.pool.release r.serial ∧ RecordEnds r code s t by
    obtain ⟨t, l, done, after, stays, ends⟩ := outcome
    refine ⟨t, l, done, after.dir, after.planner, after.base.cells, after.base.line, after.base.air, after.base.store,
      after.base.powered, after.base.task, after.base.freeIndex, after.base.pending, after.tagLost, after.flags,
      fun none => stays fun r hr => ?_, fun r hr => ⟨fun h => ends r _ hr ?_, fun h => ends r _ hr ?_, fun h => ends r _ hr ?_,
        fun h => stays fun q hq => ?_⟩⟩
    · rw [none] at hr
      cases hr
    · obtain h | h := h <;> rw [h] <;> rfl
    · rw [h]
      rfl
    · rw [h]
      rfl
    · rw [← Option.some.inj (hr.symm.trans hq), h]
      rfl
  cases hx : (s.liveRecord e).bind fun r => lostOutcome r.state with
  | none =>
    have none (r : Change) (hr : s.liveRecord e = some r) : lostOutcome r.state = none := by
      rw [hr] at hx
      exact hx
    exact ⟨_, _, kept none, lost, fun _ => ⟨rfl, rfl, rfl, rfl⟩, fun r code hr hc => by rw [none r hr] at hc; cases hc⟩
  | some code =>
    obtain ⟨r, hr, hc⟩ := Option.bind_eq_some_iff.mp hx
    obtain ⟨after, done, finished, ends⟩ := ended hr hc
    refine ⟨_, _, done, after, fun stays => (nomatch (stays r hr).symm.trans hc), fun q code' hq hc' => ?_⟩
    obtain rfl := Option.some.inj (hr.symm.trans hq)
    obtain rfl := Option.some.inj (hc.symm.trans hc')
    exact ⟨rfl, finished, ends.2.1, ends⟩

end Sys2Proof.Machine
end

section
/-! The turns of a slot end after the Directory's (R153 to R157): what they leave of the facts that a report brings, and the rule of
SLOT_END. -/

namespace Sys2Proof.Machine

/-! ### What the later turns leave -/

/-- An entry but for its remaining charge and its live change. -/
def Entry.facts (e : Entry) : Entry := { e with remaining := 0, live := none }

/-- The facts of the entries, the grants, the strangers, the flags but OUTCOME_BACKLOG, and the filings of tags that are not PRESENT
stay, with what `SameBase` names. -/
structure FactsKept (s t : State) : Prop where
  base : SameBase s t
  grants : t.dir.grants = s.dir.grants
  strangers : t.dir.strangers = s.dir.strangers
  entries : t.dir.entries.map Entry.facts = s.dir.entries.map Entry.facts
  flags : ∀ f, f ≠ Flag.outcomeBacklog → f.isIn t.handler.flags = f.isIn s.handler.flags
  calendar : ∀ a e, s.entryAt a = some e → e.state ≠ .present → ∀ d y, y.addr = a →
    (y ∈ t.planner.calendar.get d ↔ y ∈ s.planner.calendar.get d)

theorem FactsKept.refl (s : State) : FactsKept s s :=
  ⟨.rfl, rfl, rfl, rfl, fun _ _ => rfl, fun _ _ _ _ _ _ _ => Iff.rfl⟩

theorem entryAt_facts {s t : State} (h : t.dir.entries.map Entry.facts = s.dir.entries.map Entry.facts) (a : Nat) :
    (t.entryAt a).map Entry.facts = (s.entryAt a).map Entry.facts := by
  have find (es : List Entry) : (es.find? fun e => decide (e.addr = a)).map Entry.facts
      = (es.map Entry.facts).find? fun e => decide (e.addr = a) := by
    rw [List.find?_map]
    rfl
  unfold State.entryAt
  rw [find, find, h]

/-- The entry at an address keeps its facts. -/
theorem FactsKept.entryAt {s t : State} (h : FactsKept s t) {a : Nat} {e : Entry} (held : s.entryAt a = some e) :
    ∃ f, t.entryAt a = some f ∧ f = { e with remaining := f.remaining, live := f.live } := by
  have same := entryAt_facts h.entries a
  rw [held, Option.map_some] at same
  obtain ⟨f, hf, facts⟩ := Option.map_eq_some_iff.mp same
  refine ⟨f, hf, ?_⟩
  have := congrArg (fun x : Entry => { x with remaining := f.remaining, live := f.live }) facts
  exact this

theorem FactsKept.trans {s t u : State} (h : FactsKept s t) (k : FactsKept t u) : FactsKept s u where
  base := h.base.trans k.base
  grants := k.grants.trans h.grants
  strangers := k.strangers.trans h.strangers
  entries := k.entries.trans h.entries
  flags f hf := (k.flags f hf).trans (h.flags f hf)
  calendar a e held absent d y same := by
    obtain ⟨f, hf, facts⟩ := h.entryAt held
    have absent' : f.state ≠ .present := by
      rw [facts]
      exact absent
    rw [k.calendar a f hf absent' d y same, h.calendar a e held absent d y same]

/-- Work on the table, the pool and the campaigns alone. -/
theorem FactsKept.of_table {s t : State} (base : SameBase s t) (dir : t.dir = s.dir) (planner : t.planner = s.planner)
    (flags : t.handler.flags = s.handler.flags) : FactsKept s t :=
  ⟨base, by rw [dir], by rw [dir], by rw [dir], fun f _ => by rw [flags], fun _ _ _ _ _ _ _ => by rw [planner]⟩

theorem updRecord_facts (k : Serial) (f : Change → Change) (s : State) : FactsKept s (updRecord k f s) :=
  .of_table ⟨rfl, rfl, rfl, rfl, rfl, rfl, rfl, rfl⟩ rfl rfl rfl

theorem workNotice_calendar_absent {a b : Nat} {s : State} {e : Entry} (held : s.entryAt b = some e) (absent : e.state ≠ .present)
    {d : Cell} {y : CalendarEntry} (same : y.addr = b) :
    y ∈ (workNotice a s).planner.calendar.get d ↔ y ∈ s.planner.calendar.get d := by
  by_cases here : a = b
  · rw [here, workNotice_absent held absent]
  · exact workNotice_calendar_others (same ▸ Ne.symm here)

theorem workNotice_facts (a : Nat) (s : State) : FactsKept s (workNotice a s) where
  base := workNotice_base a s
  grants := (workNotice_tags a s).grants
  strangers := (workNotice_tags a s).strangers
  entries := by
    obtain ⟨cal, h⟩ := workNotice_planner a s
    rw [h]
  flags f _ := by
    obtain ⟨cal, h⟩ := workNotice_planner a s
    rw [h]
  calendar _ _ held absent _ _ same := workNotice_calendar_absent held absent same

theorem finish_facts (k : Serial) (code : OutcomeCode) (s : State) : FactsKept s (finish k code false s) := by
  cases hr : s.recordOf k with
  | none =>
    rw [finish_none code false hr]
    exact .refl s
  | some r =>
    obtain ⟨base, tags, -⟩ := finish_frame k code false s
    refine ⟨base, tags.grants, tags.strangers, ?_, fun f hf => finish_flags hf hr code, fun a e held absent d y same => ?_⟩
    · have := congrArg (List.map Entry.facts) tags.entries
      rwa [List.map_map, List.map_map] at this
    · obtain rfl := recordOf_serial hr
      have entries : (endNotice r code s).dir.entries = s.dir.entries.map (Entry.cleared r.addr r.serial) :=
        congrArg (·.entries) (clearLive_dir r.addr r.serial s)
      have cleared : (endNotice r code s).entryAt a = some (e.cleared r.addr r.serial) := by
        rw [entryAt_map (cleared_addr r.addr r.serial) entries, held, Option.map_some]
      have absent' : (e.cleared r.addr r.serial).state ≠ .present := by
        unfold Entry.cleared
        split <;> exact absent
      rw [finish_planner hr]
      exact workNotice_calendar_absent cleared absent' same

theorem moveRecord_facts (k : Serial) (f : Change → Change) (s : State) : FactsKept s (moveRecord k f s) := by
  unfold moveRecord
  split
  · exact .refl s
  · dsimp only
    split
    · exact updRecord_facts k f s
    · exact (updRecord_facts k f s).trans (workNotice_facts _ _)

theorem badReport_facts (r : Change) (s : State) : FactsKept s (badReport r s) := by
  unfold badReport
  dsimp only
  split_ifs
  · exact (updRecord_facts _ _ s).trans (finish_facts _ _ _)
  · exact (updRecord_facts _ _ s).trans (moveRecord_facts _ _ _)
  · exact (updRecord_facts _ _ s).trans (moveRecord_facts _ _ _)

theorem reportDelivery_facts (r : Change) (p : Report) (s : State) : FactsKept s (reportDelivery r p s) := by
  unfold reportDelivery
  split
  · exact finish_facts _ _ s
  · split
    · cases p.staged.condition with
      | bad => exact badReport_facts r s
      | complete => exact moveRecord_facts _ _ s
      | partly => exact moveRecord_facts _ _ s
      | nil => exact moveRecord_facts _ _ s
    · exact moveRecord_facts _ _ s

theorem reportStaged_facts (r : Change) (p : Report) (s : State) : FactsKept s (reportStaged r p s) := by
  unfold reportStaged
  split_ifs
  · exact .refl s
  · exact badReport_facts r s
  · exact moveRecord_facts _ _ s

theorem reportVerifying_facts (r : Change) (p : Report) (s : State) : FactsKept s (reportVerifying r p s) := by
  unfold reportVerifying
  split_ifs
  · exact finish_facts _ _ s
  · exact .refl s
  · exact badReport_facts r s
  · exact moveRecord_facts _ _ s

theorem reportWithdrawing_facts (r : Change) (p : Report) (s : State) : FactsKept s (reportWithdrawing r p s) := by
  unfold reportWithdrawing
  split_ifs
  · exact .refl s
  · exact finish_facts _ _ s

/-- The Change Table's turn on a report, by the state of the record that it acts on (R75 to R79). -/
def reportRecord (q : Change) (rep : Report) (s : State) : State :=
  match q.state with
  | .sending | .queued => reportDelivery q rep s
  | .staged => reportStaged q rep s
  | .verifying => reportVerifying q rep s
  | .withdrawing => reportWithdrawing q rep s
  | .finished => s

theorem reportRecord_facts (q : Change) (rep : Report) (s : State) : FactsKept s (reportRecord q rep s) := by
  unfold reportRecord
  split
  · exact reportDelivery_facts q rep s
  · exact reportDelivery_facts q rep s
  · exact reportStaged_facts q rep s
  · exact reportVerifying_facts q rep s
  · exact reportWithdrawing_facts q rep s
  · exact .refl s

/-- The part with a record's displaced version cleared, where a report shows the serial staged (R71). -/
def clearDisplaced (k : Serial) (rep : Report) (s : State) : State :=
  if rep.staged.serial = k then updRecord k (fun r => { r with displaced := none }) s else s

theorem changeReport_idle {a : Nat} {k : Serial} (rep : Report) {s : State} {e : Entry} (held : s.entryAt a = some e)
    (h : k = 0 ∨ e.live ≠ some k) : changeReport a k rep s = s := by
  unfold changeReport
  rw [held]
  exact if_neg fun both => h.elim both.1 (· both.2)

theorem changeReport_acts {a : Nat} {k : Serial} (rep : Report) {s : State} {e : Entry} {q : Change} (held : s.entryAt a = some e)
    (nonzero : k ≠ 0) (live : e.live = some k) (hq : s.recordOf k = some q) :
    changeReport a k rep s = reportRecord q rep (clearDisplaced k rep s) := by
  unfold changeReport
  rw [held]
  refine (if_pos ⟨nonzero, live⟩).trans ?_
  rw [hq]
  unfold reportRecord clearDisplaced
  cases h : q.state <;> simp only [h]

theorem changeReport_dead {a : Nat} {k : Serial} (rep : Report) {s : State} (hq : s.recordOf k = none) :
    changeReport a k rep s = s := by
  unfold changeReport
  split
  · rfl
  · rw [hq]
    exact ite_self _

theorem clearDisplaced_facts (k : Serial) (rep : Report) (s : State) : FactsKept s (clearDisplaced k rep s) := by
  unfold clearDisplaced
  split_ifs
  · exact updRecord_facts _ _ s
  · exact .refl s

theorem changeReport_facts (a : Nat) (k : Serial) (rep : Report) (s : State) : FactsKept s (changeReport a k rep s) := by
  cases held : s.entryAt a with
  | none =>
    unfold changeReport
    rw [held]
    exact .refl s
  | some e =>
    by_cases acts : k ≠ 0 ∧ e.live = some k
    · cases hq : s.recordOf k with
      | none =>
        rw [changeReport_dead rep hq]
        exact .refl s
      | some q =>
        rw [changeReport_acts rep held acts.1 acts.2 hq]
        exact (clearDisplaced_facts k rep s).trans (reportRecord_facts q rep _)
    · rw [changeReport_idle rep held (by tauto)]
      exact .refl s

theorem debit_facts (a cost : Nat) (s : State) : FactsKept s (debit a cost s) := by
  have charged : FactsKept s (updEntry a (fun e => { e with remaining := e.remaining - cost }) s) := by
    refine ⟨⟨rfl, rfl, rfl, rfl, rfl, rfl, rfl, rfl⟩, rfl, rfl, ?_, fun _ _ => rfl, fun _ _ _ _ _ _ _ => Iff.rfl⟩
    change (s.dir.entries.map _).map Entry.facts = _
    rw [List.map_map]
    refine List.map_congr_left fun e _ => ?_
    dsimp only [Function.comp]
    split <;> rfl
  unfold debit
  dsimp only
  split
  · exact charged
  · exact charged.trans (updRecord_facts _ _ _)

theorem budgetReport_facts (p : Snapshot) (rep : Report) (s : State) : FactsKept s (budgetReport p rep s) := by
  unfold budgetReport
  split
  · split_ifs
    · exact debit_facts _ _ s
    · exact .refl s
  · exact .refl s

theorem FactsKept.of_boosts (s : State) (boosts : Quad (List BoostEntry)) :
    FactsKept s { s with planner.boosts := boosts } :=
  ⟨⟨rfl, rfl, rfl, rfl, rfl, rfl, rfl, rfl⟩, rfl, rfl, rfl, fun _ _ => rfl, fun _ _ _ _ _ _ _ => Iff.rfl⟩

theorem resolveBoost_boosts (p : Snapshot) (rep : Option Report) (s : State) :
    ∃ boosts, resolveBoost p rep s = { s with planner.boosts := boosts } := by
  unfold resolveBoost
  split
  · exact ⟨_, rfl⟩
  · split
    · split_ifs <;> exact ⟨_, rfl⟩
    · split
      · exact ⟨_, rfl⟩
      · split_ifs <;> exact ⟨_, rfl⟩

theorem resolveBoost_facts (p : Snapshot) (rep : Option Report) (s : State) : FactsKept s (resolveBoost p rep s) := by
  obtain ⟨boosts, h⟩ := resolveBoost_boosts p rep s
  rw [h]
  exact .of_boosts s boosts

end Sys2Proof.Machine
end

section
/-! The Change Table's turn on a report (R74 to R79): what it makes of the record that the slot named. -/

namespace Sys2Proof.Machine

/-! ### A record that stays in the table -/

/-- Record `k` becomes `q'`; the Call Planner may be told of the tag at `a`. -/
structure RecordBecomes (a : Nat) (k : Serial) (q' : Change) (s t : State) : Prop where
  base : SameBase s t
  dir : t.dir = s.dir
  handler : t.handler = s.handler
  table : t.table = { s.table with records := s.table.records.map fun x => if x.serial = k then q' else x }
  pool : t.pool = s.pool
  campaigns : t.campaigns = s.campaigns
  last : t.planner.last = s.planner.last
  boosts : t.planner.boosts = s.planner.boosts
  calendar : ∀ d y, y.addr ≠ a → (y ∈ t.planner.calendar.get d ↔ y ∈ s.planner.calendar.get d)

theorem map_at_record {s : State} (law : TableLaw s) {k : Serial} {q : Change} (hq : s.recordOf k = some q) (f : Change → Change) :
    (s.table.records.map fun x => if x.serial = k then f x else x)
      = s.table.records.map fun x => if x.serial = k then f q else x := by
  refine List.map_congr_left fun x hx => ?_
  by_cases here : x.serial = k
  · rw [if_pos here, if_pos here, law.eq_of_serial hx (recordOf_mem hq) (here.trans (recordOf_serial hq).symm)]
  · rw [if_neg here, if_neg here]

theorem updRecord_becomes {s : State} (law : TableLaw s) {k : Serial} {q : Change} (hq : s.recordOf k = some q) (a : Nat)
    (f : Change → Change) : RecordBecomes a k (f q) s (updRecord k f s) where
  base := updRecord_base k f s
  dir := rfl
  handler := rfl
  table := congrArg (fun rs => { s.table with records := rs }) (map_at_record law hq f)
  pool := rfl
  campaigns := rfl
  last := rfl
  boosts := rfl
  calendar _ _ _ := Iff.rfl

theorem recordBecomes_stays {s : State} (law : TableLaw s) {k : Serial} {q : Change} (hq : s.recordOf k = some q) (a : Nat) :
    RecordBecomes a k q s s where
  base := .rfl
  dir := rfl
  handler := rfl
  table := by
    have same := map_at_record law hq id
    simp only [id_eq, ite_self, List.map_id'] at same
    rw [← same]
  pool := rfl
  campaigns := rfl
  last := rfl
  boosts := rfl
  calendar _ _ _ := Iff.rfl

theorem RecordBecomes.told {a : Nat} {k : Serial} {q' : Change} {s t : State} (h : RecordBecomes a k q' s t) :
    RecordBecomes a k q' s (workNotice a t) := by
  obtain ⟨cal, told⟩ := workNotice_planner a t
  refine ⟨h.base.trans (workNotice_base a t), ?_, ?_, ?_, ?_, ?_, ?_, ?_, fun d y other => ?_⟩
  · rw [told]; exact h.dir
  · rw [told]; exact h.handler
  · rw [told]; exact h.table
  · rw [told]; exact h.pool
  · rw [told]; exact h.campaigns
  · rw [told]; exact h.last
  · rw [told]; exact h.boosts
  · rw [workNotice_calendar_others other, h.calendar d y other]

theorem RecordBecomes.trans {a : Nat} {k : Serial} {q r : Change} {s t u : State} (h : RecordBecomes a k q s t)
    (serial : q.serial = k) (g : RecordBecomes a k r t u) : RecordBecomes a k r s u where
  base := h.base.trans g.base
  dir := g.dir.trans h.dir
  handler := g.handler.trans h.handler
  table := by
    rw [g.table, h.table]
    dsimp only
    rw [List.map_map]
    congr 1
    refine List.map_congr_left fun x _ => ?_
    by_cases here : x.serial = k <;> simp [here, serial]
  pool := g.pool.trans h.pool
  campaigns := g.campaigns.trans h.campaigns
  last := g.last.trans h.last
  boosts := g.boosts.trans h.boosts
  calendar d y other := (g.calendar d y other).trans (h.calendar d y other)

theorem RecordBecomes.recordOf {a : Nat} {k : Serial} {q q' : Change} {s t : State} (h : RecordBecomes a k q' s t)
    (hq : s.recordOf k = some q) (serial : q'.serial = k) : t.recordOf k = some q' := by
  subst serial
  unfold State.recordOf
  rw [if_neg (recordOf_ne_zero hq), h.table]
  exact find?_replaced ⟨q, recordOf_mem hq, recordOf_serial hq⟩

theorem RecordBecomes.tableLaw {a : Nat} {k : Serial} {q q' : Change} {s t : State} (h : RecordBecomes a k q' s t)
    (law : TableLaw s) (hq : s.recordOf k = some q) (alike : q.Alike q') : TableLaw t := by
  refine law.of_map (fun x => if x.serial = k then q' else x) (fun x hx => ?_) (congrArg (·.records) h.table)
  by_cases here : x.serial = k
  · obtain rfl := law.eq_of_serial hx (recordOf_mem hq) (here.trans (recordOf_serial hq).symm)
    rw [if_pos here]
    exact ⟨alike.serial, alike.fits⟩
  · rw [if_neg here]
    exact ⟨rfl, id⟩

/-- A record's move tells the Call Planner where it moves between work and no work (R63). -/
theorem RecordBecomes.moved {a : Nat} {k : Serial} {q q' : Change} {s t : State} (h : RecordBecomes a k q' s t) (law : TableLaw s)
    (hq : s.recordOf k = some q) (alike : q.Alike q') (addr : q.addr = a) (f : Change → Change) :
    RecordBecomes a k (f q') s (moveRecord k f t) := by
  have serial : q'.serial = k := alike.serial.trans (recordOf_serial hq)
  have hq' := h.recordOf hq serial
  have moved := h.trans serial (updRecord_becomes (h.tableLaw law hq alike) hq' a f)
  unfold moveRecord
  rw [hq']
  dsimp only
  split
  · exact moved
  · rw [alike.addr, addr]
    exact moved.told

/-! ### A record that finishes -/

/-- Record `x` finishes with `code`, the record of a tag at `a` with this live change. -/
structure RecordGone (a : Nat) (x : Change) (code : OutcomeCode) (s t : State) : Prop where
  base : SameBase s t
  dir : t.dir = { s.dir with entries := s.dir.entries.map (Entry.cleared a x.serial) }
  ends : RecordEnds x code s t
  held : (s.recordOf x.serial).isSome = true
  last : t.planner.last = s.planner.last
  boosts : t.planner.boosts = s.planner.boosts.map fun l => l.filter fun y => decide (y.addr ≠ a)
  calendar : ∀ d y, y.addr ≠ a → (y ∈ t.planner.calendar.get d ↔ y ∈ s.planner.calendar.get d)

/-- A record finishes after it has become what it then is. -/
theorem RecordBecomes.finish {a : Nat} {k : Serial} {q x : Change} {s t : State} (h : RecordBecomes a k x s t) (law : TableLaw s)
    (hq : s.recordOf k = some q) (alike : q.Alike x) (addr : q.addr = a) (code : OutcomeCode) :
    RecordGone a x code s (finish k code false t) := by
  obtain rfl := (alike.serial.trans (recordOf_serial hq) : x.serial = k)
  have hx := h.recordOf hq rfl
  have here : x.addr = a := alike.addr.trans addr
  refine ⟨h.base.trans (finish_base _ _ _ _), ?_, ?_, by rw [hq]; rfl, ?_, ?_, fun d y other => ?_⟩
  · rw [finish_dir code hx, clearLive_dir, h.dir, here]
  · refine (finish_recordEnds (h.tableLaw law hq alike) hx code false).of_before (by rw [h.table]) (fun y => ?_) h.campaigns h.pool
      h.base.store h.base.air (.of_handler h.handler) (by rw [h.handler])
    rw [h.table]
    dsimp only
    rw [List.map_map]
    refine List.map_congr_left fun z _ => ?_
    by_cases same : z.serial = x.serial <;> simp [same]
  · rw [finish_planner hx]
    exact h.last
  · rw [finish_planner hx, here, h.boosts]
  · have others := (finish_othersKept hx code).calendar d y (by rw [here]; exact other)
    rw [others, h.calendar d y other]

/-! ### What a report makes of a record -/

/-- The record with its displaced version cleared, where the report shows its serial staged (R71). -/
def Change.shownStaged (q : Change) (rep : Report) : Change :=
  if rep.staged.serial = q.serial then { q with displaced := none } else q

/-- A record that is staged BAD starts again as `restarted`, and the second time it fails (R76). -/
def badVerdict (q restarted : Change) : Change × Option OutcomeCode :=
  if q.failures = 0 then (restarted, none)
  else ({ q with displaced := none, acked := 0, failures := q.failures + 1 }, some .failedCorrupt)

/-- A QUEUED or SENDING record (R75). -/
def deliveryVerdict (isOpen : Bool) (q : Change) (rep : Report) : Change × Option OutcomeCode :=
  if rep.shown = q.serial then (q.shownStaged rep, some (if q.late then .appliedLate else .applied))
  else if rep.staged.serial = q.serial then
    match rep.staged.condition with
    | .bad => badVerdict q { q with displaced := none, acked := 0, failures := q.failures + 1, state := .sending }
    | .complete =>
      ({ q with displaced := none, acked := q.blockCount, state := if isOpen then .staged else .sending }, none)
    | .partly | .nil => ({ q with displaced := none, acked := min rep.nextBlock q.blockCount, state := .sending }, none)
  else ({ q with acked := 0, state := .sending }, none)

/-- A STAGED record (R77). -/
def stagedVerdict (q : Change) (rep : Report) : Change × Option OutcomeCode :=
  if rep.staged.serial = q.serial ∧ rep.staged.condition = .complete then (q.shownStaged rep, none)
  else if rep.staged.serial = q.serial ∧ rep.staged.condition = .bad then
    badVerdict q { q with displaced := none, acked := 0, failures := q.failures + 1, state := .sending }
  else ({ q.shownStaged rep with acked := 0, state := .queued }, none)

/-- A VERIFYING record (R78). -/
def verifyingVerdict (q : Change) (rep : Report) : Change × Option OutcomeCode :=
  if rep.shown = q.serial then (q.shownStaged rep, some .applied)
  else if rep.staged.serial = q.serial ∧ rep.staged.condition = .complete then (q.shownStaged rep, none)
  else if rep.staged.serial = q.serial ∧ rep.staged.condition = .bad then
    badVerdict q { q with displaced := none, acked := 0, failures := q.failures + 1, state := .queued, late := true }
  else ({ q.shownStaged rep with acked := 0, state := .queued, late := true }, none)

/-- A WITHDRAWING record (R79). -/
def withdrawingVerdict (q : Change) (rep : Report) : Change × Option OutcomeCode :=
  if rep.staged.serial = q.serial then (q.shownStaged rep, none) else (q.shownStaged rep, some .withdrawn)

/-- What a report makes of the record that its slot named, and the code with which it finishes, if it does. -/
def reportVerdict (isOpen : Bool) (q : Change) (rep : Report) : Change × Option OutcomeCode :=
  match q.state with
  | .sending | .queued => deliveryVerdict isOpen q rep
  | .staged => stagedVerdict q rep
  | .verifying => verifyingVerdict q rep
  | .withdrawing => withdrawingVerdict q rep
  | .finished => (q.shownStaged rep, none)

/-- The table, the tag's live change and its boosts after a verdict. -/
def Judged (a : Nat) (k : Serial) (s t : State) (v : Change × Option OutcomeCode) : Prop :=
  match v.2 with
  | none => RecordBecomes a k v.1 s t
  | some code => RecordGone a v.1 code s t

section turn

variable {s : State} {q : Change} {a : Nat} (law : TableLaw s) (hq : s.recordOf q.serial = some q) (addr : q.addr = a)
  (rep : Report)

theorem shownStaged_alike (q : Change) (rep : Report) : q.Alike (q.shownStaged rep) := by
  unfold Change.shownStaged
  split <;> exact ⟨rfl, rfl, rfl, rfl, rfl, rfl, id, .rfl⟩

include law hq in
theorem clearDisplaced_becomes (a : Nat) :
    RecordBecomes a q.serial (q.shownStaged rep) s (clearDisplaced q.serial rep s) := by
  unfold clearDisplaced Change.shownStaged
  split_ifs
  · exact updRecord_becomes law hq a fun r => { r with displaced := none }
  · exact recordBecomes_stays law hq a

include law hq addr in
theorem badReport_judged (staged : rep.staged.serial = q.serial) :
    Judged a q.serial s (badReport q (clearDisplaced q.serial rep s))
      (badVerdict q (if q.state = .verifying then
          { q with displaced := none, acked := 0, failures := q.failures + 1, state := .queued, late := true }
        else { q with displaced := none, acked := 0, failures := q.failures + 1, state := .sending })) := by
  have cleared := clearDisplaced_becomes law hq rep a
  rw [show q.shownStaged rep = { q with displaced := none } from if_pos staged] at cleared
  have alike : q.Alike { q with displaced := none } := ⟨rfl, rfl, rfl, rfl, rfl, rfl, id, .rfl⟩
  have corrupt := cleared.trans rfl (updRecord_becomes (cleared.tableLaw law hq alike) (cleared.recordOf hq rfl) a
    fun r => { r with displaced := none, acked := 0, failures := r.failures + 1 })
  have alike' : q.Alike { q with displaced := none, acked := 0, failures := q.failures + 1 } :=
    ⟨rfl, rfl, rfl, rfl, rfl, rfl, fun _ => Nat.zero_le _, .rfl⟩
  unfold badReport badVerdict
  dsimp only
  by_cases first : q.failures = 0
  · rw [if_neg (by omega), if_pos first]
    split_ifs
    · exact corrupt.moved law hq alike' addr fun r => { r with state := .queued, late := true }
    · exact corrupt.moved law hq alike' addr fun r => { r with state := .sending }
  · rw [if_pos (by omega), if_neg first]
    exact corrupt.finish law hq alike' addr _

include law hq addr in
theorem moveRecord_judged (f : Change → Change) :
    Judged a q.serial s (moveRecord q.serial f (clearDisplaced q.serial rep s)) (f (q.shownStaged rep), none) :=
  (clearDisplaced_becomes law hq rep a).moved law hq (shownStaged_alike q rep) addr f

include law hq addr in
theorem finish_judged (code : OutcomeCode) :
    Judged a q.serial s (finish q.serial code false (clearDisplaced q.serial rep s)) (q.shownStaged rep, some code) :=
  (clearDisplaced_becomes law hq rep a).finish law hq (shownStaged_alike q rep) addr code

theorem shownStaged_staged {q : Change} {rep : Report} (staged : rep.staged.serial = q.serial) :
    q.shownStaged rep = { q with displaced := none } := if_pos staged

theorem shownStaged_other {q : Change} {rep : Report} (other : rep.staged.serial ≠ q.serial) : q.shownStaged rep = q :=
  if_neg other

include law hq addr in
theorem reportDelivery_judged (running : q.state ≠ .verifying) : Judged a q.serial s
    (reportDelivery q rep (clearDisplaced q.serial rep s)) (deliveryVerdict (s.campaignOpen q) q rep) := by
  have opened : (clearDisplaced q.serial rep s).campaignOpen q = s.campaignOpen q := by
    unfold State.campaignOpen
    rw [(clearDisplaced_becomes law hq rep a).campaigns]
  unfold reportDelivery deliveryVerdict
  rw [opened]
  by_cases shown : rep.shown = q.serial
  · rw [if_pos shown, if_pos shown]
    exact finish_judged law hq addr rep _
  rw [if_neg shown, if_neg shown]
  by_cases staged : rep.staged.serial = q.serial
  · rw [if_pos staged, if_pos staged]
    have moved := moveRecord_judged law hq addr rep
    rw [shownStaged_staged staged] at moved
    cases rep.staged.condition with
    | bad =>
      have bad := badReport_judged law hq addr rep staged
      rwa [if_neg running] at bad
    | complete => exact moved _
    | partly => exact moved _
    | nil => exact moved _
  · rw [if_neg staged, if_neg staged]
    have moved := moveRecord_judged law hq addr rep fun r => { r with acked := 0, state := .sending }
    rwa [shownStaged_other staged] at moved

include law hq in
theorem stays_judged (a : Nat) : Judged a q.serial s (clearDisplaced q.serial rep s) (q.shownStaged rep, none) :=
  clearDisplaced_becomes law hq rep a

include law hq addr in
theorem reportStaged_judged (running : q.state ≠ .verifying) :
    Judged a q.serial s (reportStaged q rep (clearDisplaced q.serial rep s)) (stagedVerdict q rep) := by
  unfold reportStaged stagedVerdict
  split
  · exact stays_judged law hq rep a
  · split
    · next bad =>
      have := badReport_judged law hq addr rep bad.1
      rwa [if_neg running] at this
    · exact moveRecord_judged law hq addr rep fun r => { r with acked := 0, state := .queued }

include law hq addr in
theorem reportVerifying_judged (verifying : q.state = .verifying) :
    Judged a q.serial s (reportVerifying q rep (clearDisplaced q.serial rep s)) (verifyingVerdict q rep) := by
  unfold reportVerifying verifyingVerdict
  split
  · exact finish_judged law hq addr rep _
  · split
    · exact stays_judged law hq rep a
    · split
      · next bad =>
        have := badReport_judged law hq addr rep bad.1
        rwa [if_pos verifying] at this
      · exact moveRecord_judged law hq addr rep fun r => { r with acked := 0, state := .queued, late := true }

include law hq addr in
theorem reportWithdrawing_judged :
    Judged a q.serial s (reportWithdrawing q rep (clearDisplaced q.serial rep s)) (withdrawingVerdict q rep) := by
  unfold reportWithdrawing withdrawingVerdict
  split
  · exact stays_judged law hq rep a
  · exact finish_judged law hq addr rep _

include law hq addr in
theorem reportRecord_judged : Judged a q.serial s (reportRecord q rep (clearDisplaced q.serial rep s))
    (reportVerdict (s.campaignOpen q) q rep) := by
  unfold reportRecord reportVerdict
  cases h : q.state with
  | queued => exact reportDelivery_judged law hq addr rep (by rw [h]; decide)
  | sending => exact reportDelivery_judged law hq addr rep (by rw [h]; decide)
  | staged => exact reportStaged_judged law hq addr rep (by rw [h]; decide)
  | verifying => exact reportVerifying_judged law hq addr rep h
  | withdrawing => exact reportWithdrawing_judged law hq addr rep
  | finished => exact stays_judged law hq rep a

end turn

end Sys2Proof.Machine
end

section
/-! A slot end with a report, turn by turn (R153): the Directory's facts, the record's move, the boost's cost, the boost list entry
and the filing. -/

namespace Sys2Proof.Machine

/-! ### The Directory's turn -/

/-- What the Directory's turn leaves, and the entry it brings. -/
structure ReportNoted (p : Snapshot) (rep : Report) (level : Byte) (s t : State) : Prop where
  base : SameBase s t
  dir : t.dir = { s.dir with
    entries := s.dir.entries.map fun x => if x.addr = p.addr then x.afterReport p.cell p.beacon rep level else x }
  table : t.table = s.table
  pool : t.pool = s.pool
  campaigns : t.campaigns = s.campaigns
  planner : t.planner = s.planner
  notices : SameNotices s t
  flags : ∀ f, f ≠ Flag.lowBattery → f.isIn t.handler.flags = f.isIn s.handler.flags

theorem directoryReport_noted (p : Snapshot) (rep : Report) (level : Byte) (s : State) :
    ReportNoted p rep level s (directoryReport p rep level s) := by
  have base := directoryReport_base p rep level s
  unfold directoryReport at *
  dsimp only at *
  split_ifs at *
  · refine ⟨base, rfl, rfl, rfl, rfl, rfl, ?_, fun f other => ?_⟩
    · have raised := raiseFlag_notices .lowBattery (updEntry p.addr (Entry.afterReport p.cell p.beacon rep level) s)
      exact ⟨raised.latch, raised.timer, raised.ready, raised.done⟩
    exact (isIn_raiseFlag f .lowBattery s).trans (by simp [other])
  · exact ⟨base, rfl, rfl, rfl, rfl, rfl, .of_handler rfl, fun _ _ => rfl⟩

theorem ReportNoted.entryAt {p : Snapshot} {rep : Report} {level : Byte} {s t : State} (h : ReportNoted p rep level s t) {e : Entry}
    (held : s.entryAt p.addr = some e) : t.entryAt p.addr = some (e.afterReport p.cell p.beacon rep level) := by
  obtain ⟨-, addr⟩ := entryAt_mem held
  rw [entryAt_map (s := s) (f := fun x => if x.addr = p.addr then x.afterReport p.cell p.beacon rep level else x)
    (fun x => by split <;> rfl) (congrArg (·.entries) h.dir), held, Option.map_some, if_pos addr]

/-- LOW_BATTERY is set by a fall to 3 or below (R154). -/
theorem directoryReport_lowBattery {p : Snapshot} (rep : Report) (level : Byte) {s : State} {e : Entry}
    (held : s.entryAt p.addr = some e) : Flag.lowBattery.isIn (directoryReport p rep level s).handler.flags = true
      ↔ Flag.lowBattery.isIn s.handler.flags = true ∨ rep.battery.val ≤ 3 ∧ ∀ old, e.battery = some old → 3 < old.val := by
  have fell : batteryFell e.battery rep.battery = true ↔ rep.battery.val ≤ 3 ∧ ∀ old, e.battery = some old → 3 < old.val := by
    unfold batteryFell
    cases e.battery <;> simp
  unfold directoryReport
  rw [held, ← fell]
  dsimp only
  split_ifs with h
  · have raised := isIn_raiseFlag .lowBattery .lowBattery (updEntry p.addr (Entry.afterReport p.cell p.beacon rep level) s)
    rw [raised]
    simp [h]
  · simp [h]

/-! ### The Change Table's turn -/

/-- The table, the record and the pool are judged in a part in which the report has been noted. -/
theorem changeReport_judged {p : Snapshot} {rep : Report} {level : Byte} {s t : State} (noted : ReportNoted p rep level s t)
    (law : TableLaw s) {e : Entry} (held : s.entryAt p.addr = some e) {q : Change} (nonzero : p.serial ≠ 0)
    (live : e.live = some p.serial) (hq : s.recordOf p.serial = some q) (addr : q.addr = p.addr) :
    Judged p.addr p.serial t (changeReport p.addr p.serial rep t) (reportVerdict (s.campaignOpen q) q rep) := by
  have serial := recordOf_serial hq
  have record : t.recordOf q.serial = some q := by
    rw [serial, ← hq]
    exact recordOf_congr (congrArg (·.records) noted.table) _
  have law' : TableLaw t := by
    unfold TableLaw
    rw [noted.table]
    exact law
  have opened : t.campaignOpen q = s.campaignOpen q := by
    unfold State.campaignOpen
    rw [noted.campaigns]
  rw [← serial] at nonzero live ⊢
  rw [changeReport_acts rep (noted.entryAt held) nonzero live record, ← opened]
  exact reportRecord_judged law' record addr rep

/-! ### The Budget Unit's turn -/

/-- The cost that a report brings, if it confirms the boost of its slot (R115). -/
def confirmCost (p : Snapshot) (rep : Report) (w : WakeClass) (id : TagId) (perWake : Nat) : Option Nat :=
  if confirmsBoost p rep then p.boostOrder.map fun u => boostCost p.beacon u w id perWake else none

/-- The charge spent after a cost, if there is one. -/
def spentAfter (cost : Option Nat) (n : Nat) : Nat := (cost.map fun c => min (n + c) 65535).getD n

theorem map_id_on {α : Type} {l : List α} {f : α → α} (h : ∀ x ∈ l, f x = x) : l.map f = l :=
  (List.map_congr_left h).trans (List.map_id' l)

/-- The part after the Budget Unit's turn: the tag's remaining charge and its live record's charge spent. -/
def spendAt (a : Nat) (live : Option Serial) (cost : Option Nat) (s : State) : State :=
  { s with
    dir.entries := s.dir.entries.map fun x => if x.addr = a then { x with remaining := x.remaining - cost.getD 0 } else x
    table.records := s.table.records.map fun x => if live = some x.serial then { x with spent := spentAfter cost x.spent } else x }

theorem spendAt_none (a : Nat) (live : Option Serial) (s : State) : spendAt a live none s = s := by
  have entries : (s.dir.entries.map fun x => if x.addr = a then { x with remaining := x.remaining - 0 } else x)
    = s.dir.entries := map_id_on fun x _ => ite_self x
  have records : (s.table.records.map fun x => if live = some x.serial then { x with spent := x.spent } else x)
    = s.table.records := map_id_on fun x _ => ite_self x
  change { s with dir.entries := _, table.records := _ } = s
  rw [show (Option.getD none 0 : Nat) = 0 from rfl, entries]
  exact congrArg (fun rs : List Change => ({ s with table.records := rs } : State)) records

theorem debit_spendAt {a cost : Nat} {s : State} {e : Entry} (held : s.entryAt a = some e)
    (liveHeld : ∀ k, e.live = some k → (s.recordOf k).isSome = true) : debit a cost s = spendAt a e.live (some cost) s := by
  unfold debit spendAt
  rw [held, Option.bind_some]
  cases hlive : e.live with
  | none =>
    have dead : s.liveRecord e = none := by
      unfold State.liveRecord
      rw [hlive]
      rfl
    rw [dead]
    have records : (s.table.records.map fun x =>
        if (none : Option Serial) = some x.serial then { x with spent := spentAfter (some cost) x.spent } else x)
        = s.table.records := map_id_on fun x _ => if_neg (by simp)
    rw [records]
    rfl
  | some k =>
    obtain ⟨r, hr⟩ := Option.isSome_iff_exists.mp (liveHeld k hlive)
    have alive : s.liveRecord e = some r := by
      unfold State.liveRecord
      rw [hlive]
      exact hr
    rw [alive]
    dsimp only
    rw [recordOf_serial hr]
    unfold updRecord updEntry
    dsimp only
    congr 3
    funext x
    simp only [Option.some.injEq, eq_comm (a := k)]
    rfl

theorem budgetReport_spendAt {p : Snapshot} (rep : Report) {s : State} {e : Entry} (held : s.entryAt p.addr = some e)
    (liveHeld : ∀ k, e.live = some k → (s.recordOf k).isSome = true) : budgetReport p rep s
      = spendAt p.addr e.live (confirmCost p rep e.believed e.tagId s.store.working.boostWakeCost) s := by
  unfold budgetReport confirmCost
  rw [held]
  cases hu : p.boostOrder with
  | none =>
    rw [Option.map_none, ite_self, spendAt_none]
  | some u =>
    dsimp only
    split_ifs
    · exact debit_spendAt held liveHeld
    · exact (spendAt_none _ _ s).symm

theorem spendAt_entryAt {a : Nat} {s : State} {e : Entry} (held : s.entryAt a = some e) (live : Option Serial) (cost : Option Nat) :
    (spendAt a live cost s).entryAt a = some { e with remaining := e.remaining - cost.getD 0 } := by
  obtain ⟨-, addr⟩ := entryAt_mem held
  rw [entryAt_map (s := s) (f := fun x => if x.addr = a then { x with remaining := x.remaining - cost.getD 0 } else x)
    (fun x => by split <;> rfl) rfl, held, Option.map_some, if_pos addr]

/-! ### The filing -/

theorem slotFiling_calendar (a : Nat) (s : State) : ∃ cal, slotFiling a s = { s with planner.calendar := cal } := by
  unfold slotFiling
  split
  · exact ⟨_, rfl⟩
  · split_ifs
    · obtain h | ⟨e, c, -, -, h⟩ := fileTag_eq a s <;> rw [h] <;> exact ⟨_, rfl⟩
    · exact ⟨_, rfl⟩
    · exact ⟨_, rfl⟩

theorem slotFiling_others {a : Nat} {s : State} {d : Cell} {y : CalendarEntry} (other : y.addr ≠ a) :
    y ∈ (slotFiling a s).planner.calendar.get d ↔ y ∈ s.planner.calendar.get d := by
  unfold slotFiling
  split
  · rfl
  · split_ifs
    · obtain h | ⟨e, c, -, -, h⟩ := fileTag_eq a s
      · rw [h]
      · rw [h, mem_placeCalendar]
        exact ⟨fun h => h.elim (fun new => absurd (congrArg (·.addr) new.2) other) (·.1), fun h => .inr ⟨h, other⟩⟩
    · rw [mem_dropCalendar]
      exact and_iff_left other
    · rfl

/-! ### The turns together -/

theorem OthersKept.refl (a : Nat) (s : State) : OthersKept a s s :=
  ⟨⟨id, (map_id_on fun x _ => ite_self x).symm⟩, rfl, rfl, fun _ _ _ => Iff.rfl, fun _ _ _ => Iff.rfl⟩

theorem OthersKept.trans {a : Nat} {s t u : State} (h : OthersKept a s t) (k : OthersKept a t u) : OthersKept a s u := by
  obtain ⟨f, hf⟩ := h.entries
  obtain ⟨g, hg⟩ := k.entries
  refine ⟨⟨fun x => if (f x).addr = a then g (f x) else f x, ?_⟩, k.strangers.trans h.strangers, k.last.trans h.last,
    fun d y other => (k.calendar d y other).trans (h.calendar d y other),
    fun d y other => (k.boosts d y other).trans (h.boosts d y other)⟩
  rw [hg, hf, List.map_map]
  refine List.map_congr_left fun x _ => ?_
  by_cases here : x.addr = a <;> simp [here]

theorem mem_boosts_filter {a : Nat} {boosts : Quad (List BoostEntry)} {d : Cell} {y : BoostEntry} (other : y.addr ≠ a) :
    y ∈ (boosts.map fun l => l.filter fun x => decide (x.addr ≠ a)).get d ↔ y ∈ boosts.get d := by
  simp [Quad.get_map, List.mem_filter, other]

theorem ReportNoted.othersKept {p : Snapshot} {rep : Report} {level : Byte} {s t : State} (h : ReportNoted p rep level s t) :
    OthersKept p.addr s t :=
  ⟨⟨_, congrArg (·.entries) h.dir⟩, by rw [h.dir], by rw [h.planner], fun _ _ _ => by rw [h.planner],
    fun _ _ _ => by rw [h.planner]⟩

theorem RecordBecomes.othersKept {a : Nat} {k : Serial} {q : Change} {s t : State} (h : RecordBecomes a k q s t) :
    OthersKept a s t :=
  ⟨⟨id, by rw [h.dir]; exact (map_id_on fun x _ => ite_self x).symm⟩, by rw [h.dir], h.last, h.calendar,
    fun _ _ _ => by rw [h.boosts]⟩

theorem RecordGone.othersKept {a : Nat} {x : Change} {code : OutcomeCode} {s t : State} (h : RecordGone a x code s t) :
    OthersKept a s t := by
  refine ⟨⟨Entry.cleared a x.serial, ?_⟩, by rw [h.dir], h.last, h.calendar,
    fun _ _ other => by rw [h.boosts, mem_boosts_filter other]⟩
  rw [h.dir]
  refine List.map_congr_left fun y _ => ?_
  by_cases here : y.addr = a <;> simp [Entry.cleared, here]

theorem spendAt_othersKept (a : Nat) (live : Option Serial) (cost : Option Nat) (s : State) :
    OthersKept a s (spendAt a live cost s) :=
  ⟨⟨_, rfl⟩, rfl, rfl, fun _ _ _ => Iff.rfl, fun _ _ _ => Iff.rfl⟩

theorem slotFiling_othersKept (a : Nat) (s : State) : OthersKept a s (slotFiling a s) := by
  have calendar {d : Cell} {y : CalendarEntry} := slotFiling_others (a := a) (s := s) (d := d) (y := y)
  obtain ⟨cal, h⟩ := slotFiling_calendar a s
  rw [h] at calendar ⊢
  exact ⟨(OthersKept.refl a s).entries, rfl, rfl, fun _ _ other => calendar other, fun _ _ _ => Iff.rfl⟩

theorem mem_map_others {a : Nat} {f : BoostEntry → BoostEntry} (hf : ∀ x, (f x).addr = x.addr) {boosts : List BoostEntry}
    {y : BoostEntry} (other : y.addr ≠ a) : y ∈ boosts.map (fun x => if x.addr = a then f x else x) ↔ y ∈ boosts := by
  constructor
  · intro h
    obtain ⟨x, hx, rfl⟩ := List.mem_map.mp h
    by_cases here : x.addr = a
    · rw [if_pos here, hf] at other
      exact absurd here other
    · rwa [if_neg here]
  · exact fun h => List.mem_map.mpr ⟨y, h, if_neg other⟩

theorem resolveBoost_others {p : Snapshot} {rep : Option Report} {s : State} {d : Cell} {y : BoostEntry} (other : y.addr ≠ p.addr) :
    y ∈ (resolveBoost p rep s).planner.boosts.get d ↔ y ∈ s.planner.boosts.get d := by
  have confirmed (u : Beacon) : y ∈ (confirmBoost p.addr u s).planner.boosts.get d ↔ y ∈ s.planner.boosts.get d := by
    unfold confirmBoost
    rw [Quad.get_map]
    exact mem_map_others (f := fun x => { x with boostEnd := u, confirmed := true }) (fun _ => rfl) other
  have dropped : y ∈ (dropBoost p.addr s).planner.boosts.get d ↔ y ∈ s.planner.boosts.get d := mem_boosts_filter other
  unfold resolveBoost
  split
  · rfl
  · split
    · split_ifs
      · rfl
      · exact confirmed _
      · exact dropped
    · split
      · rfl
      · split_ifs
        · exact dropped
        · rfl

theorem resolveBoost_othersKept (p : Snapshot) (rep : Option Report) (s : State) :
    OthersKept p.addr s (resolveBoost p rep s) := by
  have others {d : Cell} {y : BoostEntry} := resolveBoost_others (p := p) (rep := rep) (s := s) (d := d) (y := y)
  obtain ⟨boosts, h⟩ := resolveBoost_boosts p rep s
  rw [h] at others ⊢
  exact ⟨(OthersKept.refl p.addr s).entries, rfl, rfl, fun _ _ _ => Iff.rfl, fun _ _ other => others other⟩

/-- A verdict leaves a record's serial and charge spent. -/
def KeepsSpent (q : Change) (v : Change × Option OutcomeCode) : Prop := v.1.serial = q.serial ∧ v.1.spent = q.spent

theorem shownStaged_keeps (q : Change) (rep : Report) (code : Option OutcomeCode) : KeepsSpent q (q.shownStaged rep, code) := by
  unfold Change.shownStaged
  split <;> exact ⟨rfl, rfl⟩

theorem badVerdict_keeps {q x : Change} (serial : x.serial = q.serial) (spent : x.spent = q.spent) :
    KeepsSpent q (badVerdict q x) := by
  unfold badVerdict
  split
  · exact ⟨serial, spent⟩
  · exact ⟨rfl, rfl⟩

theorem reportVerdict_keeps (isOpen : Bool) (q : Change) (rep : Report) : KeepsSpent q (reportVerdict isOpen q rep) := by
  have shown := shownStaged_keeps q rep
  have delivery : KeepsSpent q (deliveryVerdict isOpen q rep) := by
    unfold deliveryVerdict
    split
    · exact shown _
    · split
      · cases rep.staged.condition with
        | bad => exact badVerdict_keeps rfl rfl
        | complete => exact ⟨rfl, rfl⟩
        | partly => exact ⟨rfl, rfl⟩
        | nil => exact ⟨rfl, rfl⟩
      · exact ⟨rfl, rfl⟩
  unfold reportVerdict
  cases q.state with
  | queued => exact delivery
  | sending => exact delivery
  | staged =>
    dsimp only
    unfold stagedVerdict
    split
    · exact shown none
    · split
      · exact badVerdict_keeps rfl rfl
      · exact shown none
  | verifying =>
    dsimp only
    unfold verifyingVerdict
    split
    · exact shown _
    · split
      · exact shown none
      · split
        · exact badVerdict_keeps rfl rfl
        · exact shown none
  | withdrawing =>
    dsimp only
    unfold withdrawingVerdict
    split
    · exact shown none
    · exact shown _
  | finished => exact shown none

/-- The Change Table's turn on a report of the tag of entry `e` (of `s`), whose live change is `live` from then on. -/
structure ChangeTurn (p : Snapshot) (rep : Report) (e : Entry) (live : Option Serial) (s t u : State) : Prop where
  others : OthersKept p.addr t u
  entry : u.entryAt p.addr = (t.entryAt p.addr).map fun e => { e with live := live }
  held : ∀ k, live = some k → (u.recordOf k).isSome = true
  spent : ∀ k q, live = some k → s.recordOf k = some q → ∃ x, u.recordOf k = some x ∧ x.spent = q.spent
  boosts : live = e.live ∧ u.planner.boosts = s.planner.boosts
    ∨ live ≠ e.live ∧ live = none
      ∧ u.planner.boosts = s.planner.boosts.map fun l => l.filter fun y => decide (y.addr ≠ p.addr)

theorem LiveLaw.held {s : State} (live : LiveLaw s) (law : TableLaw s) {e : Entry} (he : e ∈ s.dir.entries) {k : Serial}
    (hk : e.live = some k) : ∃ q, s.recordOf k = some q ∧ q.addr = e.addr := by
  obtain ⟨q, hq, rfl, addr, -⟩ := live.1 e he k hk
  exact ⟨q, law.recordOf hq, addr⟩

theorem changeReport_turn {p : Snapshot} {rep : Report} {level : Byte} {s t : State} (noted : ReportNoted p rep level s t)
    (law : TableLaw s) (live : LiveLaw s) {e : Entry} (held : s.entryAt p.addr = some e) :
    ∃ l, ChangeTurn p rep e l s t (changeReport p.addr p.serial rep t) := by
  obtain ⟨mem, addr⟩ := entryAt_mem held
  have records (k : Serial) : t.recordOf k = s.recordOf k := recordOf_congr (congrArg (·.records) noted.table) k
  have entry := noted.entryAt held
  by_cases acts : p.serial ≠ 0 ∧ e.live = some p.serial
  · obtain ⟨nonzero, hlive⟩ := acts
    obtain ⟨q, hq, home⟩ := live.held law mem hlive
    have judged := changeReport_judged noted law held nonzero hlive hq (home.trans addr)
    have keeps := reportVerdict_keeps (s.campaignOpen q) q rep
    have serial := recordOf_serial hq
    generalize reportVerdict (s.campaignOpen q) q rep = v at judged keeps
    obtain ⟨x, code⟩ := v
    cases code with
    | none =>
      have becomes : RecordBecomes p.addr p.serial x t _ := judged
      have found := becomes.recordOf ((records _).trans hq) (keeps.1.trans serial)
      refine ⟨e.live, becomes.othersKept, ?_, fun k hk => ?_, fun k q' hk hq' => ?_, .inl ⟨rfl, ?_⟩⟩
      · unfold State.entryAt at entry ⊢
        rw [becomes.dir, entry]
        rfl
      · obtain rfl := Option.some.inj (hlive.symm.trans hk)
        rw [found]
        rfl
      · obtain rfl := Option.some.inj (hlive.symm.trans hk)
        obtain rfl := Option.some.inj (hq.symm.trans hq')
        exact ⟨x, found, keeps.2⟩
      · rw [becomes.boosts, noted.planner]
    | some code =>
      have gone : RecordGone p.addr x code t _ := judged
      refine ⟨none, gone.othersKept, ?_, fun k hk => (nomatch hk), fun k _ hk => (nomatch hk), .inr ⟨?_, rfl, ?_⟩⟩
      · rw [entryAt_map (cleared_addr p.addr x.serial) (congrArg (·.entries) gone.dir), entry, Option.map_some, Option.map_some]
        exact congrArg some (if_pos ⟨addr, hlive.trans (congrArg some (keeps.1.trans serial).symm)⟩)
      · rw [hlive]
        exact Option.some_ne_none _ |>.symm
      · rw [gone.boosts, noted.planner]
  · have idle : changeReport p.addr p.serial rep t = t := changeReport_idle rep entry (by
      change p.serial = 0 ∨ e.live ≠ some p.serial
      tauto)
    rw [idle]
    refine ⟨e.live, .refl _ _, by rw [entry]; rfl, fun k hk => ?_, fun k q _ hq => ⟨q, (records k).trans hq, rfl⟩,
      .inl ⟨rfl, by rw [noted.planner]⟩⟩
    obtain ⟨q, hq, -⟩ := live.held law mem hk
    rw [records, hq]
    rfl

/-- A slot end with a report, after the Change Table's turn: the charge, the boost list entry and the filing. -/
def laterTurns (p : Snapshot) (rep : Report) (u : State) : State :=
  slotFiling p.addr (resolveBoost p (some rep) (budgetReport p rep u))

theorem slotReport_reportFrame {p : Snapshot} {r : Report} (sendable : r.Sendable) (same : r.tagId = p.tagId) :
    slotReport p (some (reportFrame r)) = some r := by
  unfold slotReport
  rw [Option.bind_some, decodeReport_reportFrame sendable]
  simp [same]

theorem exec_slotEnd_reported {s : State} (hp : s.powered = true) {c : Cell} {p : Snapshot} {windows : Quad (Option Window)}
    (next : NextSlot s c p windows) (level : Byte) {e : Entry} {r : Report} (held : s.entryAt p.addr = some e)
    (same : e.tagId = p.tagId) (tag : r.tagId = p.tagId) (sendable : r.Sendable) :
    exec (.slotEnd c (some (reportFrame r)) level) s = .next (laterTurns p r (changeReport p.addr p.serial r
      (directoryReport p r level { s with cells.windows := windows }))) := by
  rw [exec_slotEnd_next hp next,
    endSlot_reported (s := { s with cells.windows := windows }) level held same (slotReport_reportFrame sendable tag)]
  rfl

end Sys2Proof.Machine
end

section
/-! The rule of SLOT_END (R153 to R155, R157). -/

namespace Sys2Proof.Machine

theorem slotFiling_idle {a : Nat} {s : State} {e : Entry} (held : s.entryAt a = some e) (present : e.state = .present)
    (idle : s.hasWork e = false) : slotFiling a s = dropCalendar a s := by
  unfold slotFiling
  rw [held]
  dsimp only
  rw [if_pos present, idle]
  rfl

theorem slotFiling_files {a : Nat} {s : State} {e : Entry} {h : Cell} (held : s.entryAt a = some e) (present : e.state = .present)
    (work : s.hasWork e = true) (home : e.home = some h) : slotFiling a s = placeCalendar h ⟨a, s.fileDue e h⟩ s := by
  unfold slotFiling
  rw [held]
  dsimp only
  rw [if_pos present, if_pos work]
  unfold fileTag
  rw [held]
  dsimp only
  rw [home]

theorem slotFiling_facts (a : Nat) (s : State) : FactsKept s (slotFiling a s) := by
  have others {d : Cell} {y : CalendarEntry} := slotFiling_others (a := a) (s := s) (d := d) (y := y)
  have base := slotFiling_base a s
  refine ⟨base, ?_, ?_, ?_, ?_, fun b e held absent d y same => ?_⟩
  · obtain ⟨cal, h⟩ := slotFiling_calendar a s
    rw [h]
  · obtain ⟨cal, h⟩ := slotFiling_calendar a s
    rw [h]
  · obtain ⟨cal, h⟩ := slotFiling_calendar a s
    rw [h]
  · obtain ⟨cal, h⟩ := slotFiling_calendar a s
    rw [h]
    exact fun _ _ => rfl
  · by_cases here : b = a
    · rw [slotFiling_absent (here ▸ held) absent]
    · exact others (by rw [same]; exact here)

theorem laterTurns_facts (p : Snapshot) (rep : Report) (u : State) : FactsKept u (laterTurns p rep u) :=
  ((budgetReport_facts p rep u).trans (resolveBoost_facts p (some rep) _)).trans (slotFiling_facts _ _)

/-- The tag is filed by the entry as it stands in the end (R138). -/
theorem slotFiling_filed {a : Nat} {s : State} {f : Entry} (held : (slotFiling a s).entryAt a = some f)
    (present : f.state = .present) :
    ((slotFiling a s).hasWork f = false → ∀ d, ∀ y ∈ (slotFiling a s).planner.calendar.get d, y.addr ≠ a)
    ∧ ∀ h, (slotFiling a s).hasWork f = true → f.home = some h → ∀ d y, y.addr = a →
      (y ∈ (slotFiling a s).planner.calendar.get d ↔ d = h ∧ y.due = (slotFiling a s).fileDue f h) := by
  obtain ⟨cal, same⟩ := slotFiling_calendar a s
  have held' : s.entryAt a = some f := by
    rw [same] at held
    exact held
  have work : (slotFiling a s).hasWork f = s.hasWork f := by
    rw [same]
    rfl
  have due (h : Cell) : (slotFiling a s).fileDue f h = s.fileDue f h := by
    rw [same]
    rfl
  refine ⟨fun idle d y hy => ?_, fun h busy home d y here => ?_⟩
  · rw [slotFiling_idle held' present (work.symm.trans idle), mem_dropCalendar] at hy
    exact hy.2
  · rw [due, slotFiling_files held' present (work.symm.trans busy) home, mem_placeCalendar]
    constructor
    · rintro (⟨rfl, rfl⟩ | ⟨-, other⟩)
      · exact ⟨rfl, rfl⟩
      · exact absurd here other
    · rintro ⟨rfl, at_due⟩
      exact .inl ⟨rfl, by rw [← here, ← at_due]⟩

/-- A slot end looks at the report alone. -/
theorem endSlot_congr {p : Snapshot} {x y : Option (List Byte)} (h : slotReport p x = slotReport p y) (level : Byte) (s : State) :
    endSlot p x level s = endSlot p y level s := by
  unfold endSlot
  rw [h]

theorem slotReport_other {p : Snapshot} {bytes : List Byte} (h : ∀ r, decodeReport bytes = some r → r.tagId ≠ p.tagId) :
    slotReport p (some bytes) = none := by
  unfold slotReport
  rw [Option.bind_some, Option.filter_eq_none_iff]
  exact fun r hr => by simpa using h r hr

/-- A miss below the limit, or of an entry that is not PRESENT, is counted and no more. -/
theorem countMiss_counts {a : Nat} {s : State} {e : Entry} (held : s.entryAt a = some e)
    (stays : e.misses + 1 < s.store.working.missLimit ∨ e.state ≠ .present) :
    countMiss a s = updEntry a (fun e => { e with misses := min (e.misses + 1) s.store.working.missLimit }) s := by
  unfold countMiss
  rw [held]
  exact if_neg fun lost => stays.elim (fun low => absurd lost.1 (by omega)) fun other => other lost.2

/-- Under the laws a slot end with a report leaves the other tags. -/
theorem laterTurns_othersKept {p : Snapshot} (rep : Report) {u : State} {e : Entry} (held : u.entryAt p.addr = some e)
    (liveHeld : ∀ k, e.live = some k → (u.recordOf k).isSome = true) : OthersKept p.addr u (laterTurns p rep u) := by
  unfold laterTurns
  rw [budgetReport_spendAt rep held liveHeld]
  exact ((spendAt_othersKept ..).trans (resolveBoost_othersKept ..)).trans (slotFiling_othersKept ..)

/-- Settles O48: a report goes through the turns of R153; what each leaves is `FactsKept` and `OthersKept`. -/
theorem slotEndRule : Obligations.SlotEndRule := by
  refine ⟨fun e h s => fileDue_filedFor s e h, fun c level p windows s hp next => ⟨fun received gone => ?_, fun bytes other => ?_,
    fun e held same stays => ?_, fun e r held same tag cell sendable => ?_⟩⟩
  · rw [exec_slotEnd_next hp next, endSlot_gone (s := { s with cells.windows := windows }) received level gone]
  · rw [exec_slotEnd_next hp next, exec_slotEnd_next hp next, endSlot_congr ((slotReport_other other).trans (slotReport_none p).symm)]
  · rw [exec_slotEnd_next hp next, endSlot_missed (s := { s with cells.windows := windows }) level held same rfl,
      countMiss_counts (s := { s with cells.windows := windows }) held stays]
    rfl
  · have noted := directoryReport_noted p r level { s with cells.windows := windows }
    have battery := directoryReport_lowBattery (s := { s with cells.windows := windows }) r level held
    have entry := noted.entryAt (e := e) held
    have taken := exec_slotEnd_reported hp next level held same tag sendable
    have turn := changeReport_facts p.addr p.serial r (directoryReport p r level { s with cells.windows := windows })
    have others := fun table live => changeReport_turn (s := { s with cells.windows := windows }) noted table live held
    generalize directoryReport p r level { s with cells.windows := windows } = n at *
    have kept := turn.trans (laterTurns_facts p r _)
    obtain ⟨f, hf, facts⟩ := kept.entryAt entry
    generalize hu : changeReport p.addr p.serial r n = u at *
    have filed := slotFiling_filed (a := p.addr) (s := resolveBoost p (some r) (budgetReport p r u)) hf
    have state : f.state = e.state := by rw [facts]; rfl
    have home : f.home = e.home := by rw [facts]; rfl
    have base := noted.base.trans kept.base
    refine ⟨_, f, taken, hf, congrArg (·.windows) base.cells, congrArg (·.heads) base.cells, base.line, base.air, base.store,
      kept.grants.trans (congrArg (·.grants) noted.dir), kept.strangers.trans (congrArg (·.strangers) noted.dir), base.powered,
      base.task, base.freeIndex, base.pending, fun _ table live => ?_, ?_, ?_, fun g h1 h2 => ?_, fun absent d y here => ?_,
      fun present idle => (filed (state.trans present)).1 idle,
      fun h present busy at_home => (filed (state.trans present)).2 h busy (home.trans at_home)⟩
    · obtain ⟨l, turns⟩ := others table live
      have entry' := turns.entry
      rw [entry, Option.map_some] at entry'
      obtain ⟨entries, strangers, last, calendar, boosts⟩ :=
        (noted.othersKept.trans turns.others).trans (laterTurns_othersKept r entry' turns.held)
      exact ⟨entries, strangers, last, calendar, boosts⟩
    · subst cell
      exact facts
    · rw [kept.flags _ (by decide), battery]
    · rw [kept.flags g h2, noted.flags g h1]
    · rw [kept.calendar p.addr _ entry absent d y here, noted.planner]

end Sys2Proof.Machine
end

section
/-! The rule of a report and the change record (R74 to R79). -/

namespace Sys2Proof.Machine

/-- What the turns after the Change Table's leave: the charge, and what the Call Planner holds. -/
theorem laterTurns_eq {p : Snapshot} (rep : Report) {u : State} {e : Entry} (held : u.entryAt p.addr = some e)
    (liveHeld : ∀ k, e.live = some k → (u.recordOf k).isSome = true) : ∃ boosts calendar, laterTurns p rep u
      = { spendAt p.addr e.live (confirmCost p rep e.believed e.tagId u.store.working.boostWakeCost) u with
          planner := { u.planner with boosts := boosts, calendar := calendar } } := by
  unfold laterTurns
  rw [budgetReport_spendAt rep held liveHeld]
  obtain ⟨boosts, resolved⟩ := resolveBoost_boosts p (some rep)
    (spendAt p.addr e.live (confirmCost p rep e.believed e.tagId u.store.working.boostWakeCost) u)
  rw [resolved]
  obtain ⟨calendar, filed⟩ := slotFiling_calendar p.addr { spendAt p.addr e.live
    (confirmCost p rep e.believed e.tagId u.store.working.boostWakeCost) u with planner.boosts := boosts }
  exact ⟨boosts, calendar, filed⟩

/-- A record's end is told of the part as it is after what does not concern the record's end. -/
theorem RecordEnds.of_after {r : Change} {code : OutcomeCode} {s t u : State} (h : RecordEnds r code s t)
    (table : u.table = t.table) (campaigns : u.campaigns = t.campaigns) (pool : u.pool = t.pool) (handler : u.handler = t.handler) :
    RecordEnds r code s u := by
  obtain ⟨passes, released, flags⟩ := h
  refine ⟨passes.congr rfl rfl (.of_handler rfl) rfl rfl table campaigns (.of_handler handler), pool.trans released, ?_⟩
  rw [handler, table]
  exact flags

theorem spendAt_table_none (a : Nat) (cost : Option Nat) (s : State) : (spendAt a none cost s).table = s.table :=
  congrArg (fun rs : List Change => ({ s.table with records := rs } : ChangeTable)) (map_id_on fun _ _ => if_neg (by simp))

section acts

variable {p : Snapshot} {rep : Report} {level : Byte} {s n u : State} {e : Entry} (noted : ReportNoted p rep level s n)
  (held : s.entryAt p.addr = some e) (live : e.live = some p.serial)

include noted held live in
/-- A record that stays in the table, after the later turns. -/
theorem becomes_after {q q' : Change} (becomes : RecordBecomes p.addr p.serial q' n u) (hq : s.recordOf p.serial = some q)
    (serial : q'.serial = p.serial) :
    (∃ x ∈ (laterTurns p rep u).table.records, { x with spent := q'.spent } = q')
      ∧ (∃ spent, (laterTurns p rep u).table = { s.table with
          records := s.table.records.map fun x => if x.serial = p.serial then { q' with spent := spent } else x })
      ∧ (laterTurns p rep u).pool = s.pool ∧ (laterTurns p rep u).campaigns = s.campaigns
      ∧ ((laterTurns p rep u).entryAt p.addr).map (·.live) = some (some p.serial) := by
  have entry : u.entryAt p.addr = some (e.afterReport p.cell p.beacon rep level) := by
    rw [← noted.entryAt held]
    unfold State.entryAt
    rw [becomes.dir]
  have record : n.recordOf p.serial = some q := (recordOf_congr (congrArg (·.records) noted.table) _).trans hq
  have found := becomes.recordOf record serial
  obtain ⟨boosts, calendar, after⟩ := laterTurns_eq rep entry fun k hk => by
    obtain rfl := Option.some.inj (live.symm.trans hk)
    rw [found]
    rfl
  generalize confirmCost p rep _ _ _ = cost at after
  have table : (laterTurns p rep u).table = { s.table with records := s.table.records.map fun x =>
      if x.serial = p.serial then { q' with spent := spentAfter cost q'.spent } else x } := by
    rw [after]
    change ({ u.table with records := u.table.records.map fun x =>
      if (e.live = some x.serial) then { x with spent := spentAfter cost x.spent } else x } : ChangeTable) = _
    rw [becomes.table, noted.table, live]
    dsimp only
    rw [List.map_map]
    congr 1
    refine List.map_congr_left fun x _ => ?_
    by_cases here : x.serial = p.serial
    · simp [here, serial]
    · simp [here, Ne.symm here]
  refine ⟨⟨{ q' with spent := spentAfter cost q'.spent }, ?_, rfl⟩, ⟨_, table⟩, ?_, ?_, ?_⟩
  · rw [table]
    exact List.mem_map.mpr ⟨q, recordOf_mem hq, if_pos (recordOf_serial hq)⟩
  · rw [after]
    exact becomes.pool.trans noted.pool
  · rw [after]
    exact becomes.campaigns.trans noted.campaigns
  · have final := spendAt_entryAt entry (e.afterReport p.cell p.beacon rep level).live cost
    rw [after]
    change ((spendAt p.addr (e.afterReport p.cell p.beacon rep level).live cost u).entryAt p.addr).map (·.live) = _
    rw [final, ← live]
    rfl

include noted held live in
/-- A record that finishes, after the later turns. -/
theorem gone_after {x : Change} {code : OutcomeCode} (gone : RecordGone p.addr x code n u) (serial : x.serial = p.serial) :
    FinishedAs (laterTurns p rep u) (x.finishedWith code s.air.beacon) ∧ (laterTurns p rep u).pool = s.pool.release p.serial
      ∧ ((laterTurns p rep u).entryAt p.addr).map (·.live) = some none ∧ RecordEnds x code s (laterTurns p rep u) := by
  obtain ⟨-, addr⟩ := entryAt_mem held
  have entry : u.entryAt p.addr = some { e.afterReport p.cell p.beacon rep level with live := none } := by
    rw [entryAt_map (cleared_addr p.addr x.serial) (congrArg (·.entries) gone.dir), noted.entryAt held, Option.map_some]
    exact congrArg some (if_pos ⟨addr, live.trans (congrArg some serial.symm)⟩)
  obtain ⟨boosts, calendar, after⟩ := laterTurns_eq rep entry fun k hk => (nomatch hk)
  have table : (laterTurns p rep u).table = u.table := by
    rw [after]
    exact spendAt_table_none p.addr _ u
  have ends : RecordEnds x code s (laterTurns p rep u) := by
    refine (gone.ends.of_before (s := s) (by rw [noted.table]) (fun _ => by rw [noted.table]) noted.campaigns noted.pool
      noted.base.store noted.base.air noted.notices (noted.flags _ (by decide))).of_after table ?_ ?_ ?_ <;> rw [after] <;> rfl
  have found : (s.recordOf x.serial).isSome = true := by
    rw [← gone.held]
    exact congrArg _ (recordOf_congr (congrArg (·.records) noted.table.symm) _)
  refine ⟨ends.finishedAs found, serial ▸ ends.2.1, ?_, ends⟩
  have final := spendAt_entryAt entry none
    (confirmCost p rep rep.wakeClass e.tagId u.store.working.boostWakeCost)
  rw [after]
  change ((spendAt p.addr none (confirmCost p rep rep.wakeClass e.tagId u.store.working.boostWakeCost) u).entryAt p.addr).map _ = _
  rw [final]
  rfl

include noted held in
/-- Where the slot names no live change, the turns leave every record but for the charge spent of the tag's own. -/
theorem idle_after (liveHeld : ∀ k, e.live = some k → (s.recordOf k).isSome = true) :
    (laterTurns p rep n).table = { s.table with records := (laterTurns p rep n).table.records }
      ∧ (laterTurns p rep n).table.records.map (fun q => { q with spent := 0 }) = s.table.records.map (fun q => { q with spent := 0 })
      ∧ (∀ q ∈ s.table.records, e.live ≠ some q.serial → q ∈ (laterTurns p rep n).table.records)
      ∧ (laterTurns p rep n).pool = s.pool ∧ (laterTurns p rep n).campaigns = s.campaigns := by
  obtain ⟨boosts, calendar, after⟩ := laterTurns_eq rep (noted.entryAt held) fun k hk =>
    (congrArg _ (recordOf_congr (congrArg (·.records) noted.table) k)).trans (liveHeld k hk)
  generalize confirmCost p rep _ _ _ = cost at after
  have table : (laterTurns p rep n).table = { s.table with records := s.table.records.map fun x =>
      if (e.live = some x.serial) then { x with spent := spentAfter cost x.spent } else x } := by
    rw [after, ← noted.table]
    rfl
  refine ⟨by rw [table], ?_, fun q hq other => ?_, ?_, ?_⟩
  · rw [table, List.map_map]
    refine List.map_congr_left fun x _ => ?_
    dsimp only [Function.comp]
    split <;> rfl
  · rw [table]
    exact List.mem_map.mpr ⟨q, hq, if_neg other⟩
  · rw [after]
    exact noted.pool
  · rw [after]
    exact noted.campaigns

end acts

theorem reportVerdict_delivery {isOpen : Bool} {q : Change} {rep : Report} (running : q.state = .queued ∨ q.state = .sending) :
    reportVerdict isOpen q rep = deliveryVerdict isOpen q rep := by
  unfold reportVerdict
  obtain h | h := running <;> rw [h]

theorem badVerdict_first {q : Change} (x : Change) (first : q.failures = 0) : badVerdict q x = (x, none) := if_pos first

theorem badVerdict_again {q : Change} (x : Change) (again : q.failures ≠ 0) : badVerdict q x
    = ({ q with displaced := none, acked := 0, failures := q.failures + 1 }, some .failedCorrupt) := if_neg again

theorem shownStaged_finishedWith (q : Change) (rep : Report) (code : OutcomeCode) (b : Beacon) :
    (q.shownStaged rep).finishedWith code b = q.finishedWith code b := by
  unfold Change.shownStaged
  split <;> rfl

/-- Settles O49: `reportVerdict` says what becomes of the record, by its state; the later turns touch its charge spent alone. -/
theorem reportMovesChange : Obligations.ReportMovesChange := by
  intro c level p windows e r s hp next directory law live held same tag sendable
  obtain ⟨mem, -⟩ := entryAt_mem held
  have taken := exec_slotEnd_reported hp next level held same tag sendable
  have noted : ReportNoted p r level { s with cells.windows := windows } _ := directoryReport_noted p r level _
  obtain ⟨l, turn⟩ := changeReport_turn noted law live held
  have facts := (changeReport_facts p.addr p.serial r (directoryReport p r level { s with cells.windows := windows })).trans
    (laterTurns_facts p r _)
  have judge (q : Change) := changeReport_judged noted law (q := q) held
  have idle := changeReport_idle (k := p.serial) r (noted.entryAt (e := e) held)
  have entry := turn.entry
  rw [noted.entryAt (e := e) held, Option.map_some] at entry
  generalize directoryReport p r level { s with cells.windows := windows } = n at *
  obtain ⟨entries, strangers, last, calendar, boosts⟩ :=
    (noted.othersKept.trans turn.others).trans (laterTurns_othersKept r entry turn.held)
  refine ⟨_, taken, ⟨entries, strangers, last, calendar, boosts⟩, facts.grants.trans (congrArg (·.grants) noted.dir),
    fun unnamed => ?_, fun q nonzero hlive hq => ?_⟩
  · have liveHeld (k : Serial) (hk : e.live = some k) : (s.recordOf k).isSome = true := by
      obtain ⟨q, hq, -⟩ := live.held law mem hk
      exact Option.isSome_iff_exists.mpr ⟨q, hq⟩
    rw [idle unnamed]
    exact idle_after (s := { s with cells.windows := windows }) noted held liveHeld
  · have serial := recordOf_serial hq
    obtain ⟨q', hq', addr⟩ := live.held law mem hlive
    obtain rfl := Option.some.inj (hq.symm.trans hq')
    have judged := judge q nonzero hlive hq (addr.trans (entryAt_mem held).2)
    intro cleared corrupt ends finishes becomes isOpen stagedAs
    change Judged _ _ _ _ (reportVerdict isOpen q r) at judged
    have shown : cleared = q.shownStaged r := by
      change (if r.staged.serial = p.serial then { q with displaced := none } else q) = _
      rw [← serial]
      rfl
    have stays {x : Change} (v : reportVerdict isOpen q r = (x, none)) : becomes x := by
      have keeps := (reportVerdict_keeps isOpen q r).1
      rw [v] at judged keeps
      exact becomes_after (s := { s with cells.windows := windows }) noted held hlive judged hq (keeps.trans serial)
    have goes {x : Change} {code : OutcomeCode} (v : reportVerdict isOpen q r = (x, some code))
        (same : x.finishedWith code s.air.beacon = q.finishedWith code s.air.beacon) : ends x code := by
      have keeps := (reportVerdict_keeps isOpen q r).1
      rw [v] at judged keeps
      have := gone_after (s := { s with cells.windows := windows }) noted held hlive judged (keeps.trans serial)
      exact ⟨same ▸ this.1, this.2.1, this.2.2.1, this.2.2.2⟩
    have finished (code : OutcomeCode) : cleared.finishedWith code s.air.beacon = q.finishedWith code s.air.beacon :=
      shown ▸ shownStaged_finishedWith q r code s.air.beacon
    have named (x : Condition) : stagedAs x ↔ r.staged.serial = q.serial ∧ r.staged.condition = x := by rw [serial]
    have notBoth (h : r.staged.serial = q.serial ∧ r.staged.condition = .bad) :
        ¬ (r.staged.serial = q.serial ∧ r.staged.condition = .complete) :=
      fun both => Condition.noConfusion (h.2.symm.trans both.2)
    refine ⟨fun running => ?_, fun staged => ?_, fun verifying => ?_, fun withdrawing => ?_⟩
    · have v := reportVerdict_delivery (isOpen := isOpen) (rep := r) running
      refine ⟨fun h => goes (v.trans ?_) (finished _), fun h hs => stays (v.trans ?_), fun h hs => stays (v.trans ?_),
        fun h other => stays (v.trans ?_), fun h hs first => stays (v.trans ?_), fun h hs again => goes (v.trans ?_) rfl⟩ <;>
        unfold deliveryVerdict <;> rw [← serial] at h
      · rw [if_pos h, shown]
      · rw [if_neg h, if_pos (hs.1.trans serial.symm), hs.2, shown, shownStaged_staged (hs.1.trans serial.symm)]
      · rw [if_neg h, if_pos (hs.1.trans serial.symm), hs.2, shown, shownStaged_staged (hs.1.trans serial.symm)]
      · rw [← serial] at other
        rw [if_neg h, if_neg other, shown, shownStaged_other other]
      · rw [if_neg h, if_pos (hs.1.trans serial.symm), hs.2]
        exact badVerdict_first _ first
      · rw [if_neg h, if_pos (hs.1.trans serial.symm), hs.2]
        exact badVerdict_again _ again
    · have v : reportVerdict isOpen q r = stagedVerdict q r := by
        unfold reportVerdict
        rw [staged]
      refine ⟨fun h => stays (v.trans ?_), fun h other => stays (v.trans ?_), fun h first => stays (v.trans ?_),
        fun h again => goes (v.trans ?_) rfl⟩ <;> unfold stagedVerdict <;> rw [named] at h
      · rw [if_pos h, shown]
      · rw [named] at other
        rw [if_neg h, if_neg other, shown]
      · rw [if_neg (notBoth h), if_pos h]
        exact badVerdict_first _ first
      · rw [if_neg (notBoth h), if_pos h]
        exact badVerdict_again _ again
    · have v : reportVerdict isOpen q r = verifyingVerdict q r := by
        unfold reportVerdict
        rw [verifying]
      refine ⟨fun h => goes (v.trans ?_) (finished _), fun h hs => stays (v.trans ?_), fun h hs other => stays (v.trans ?_),
        fun h hs first => stays (v.trans ?_), fun h hs again => goes (v.trans ?_) rfl⟩ <;> unfold verifyingVerdict <;>
        rw [← serial] at h
      · rw [if_pos h, shown]
      · rw [named] at hs
        rw [if_neg h, if_pos hs, shown]
      · rw [named] at hs other
        rw [if_neg h, if_neg hs, if_neg other, shown]
      · rw [named] at hs
        rw [if_neg h, if_neg (notBoth hs), if_pos hs]
        exact badVerdict_first _ first
      · rw [named] at hs
        rw [if_neg h, if_neg (notBoth hs), if_pos hs]
        exact badVerdict_again _ again
    · have v : reportVerdict isOpen q r = withdrawingVerdict q r := by
        unfold reportVerdict
        rw [withdrawing]
      refine ⟨fun h => stays (v.trans ?_), fun h => goes (v.trans ?_) (finished _)⟩ <;> unfold withdrawingVerdict <;>
        rw [← serial] at h
      · rw [if_pos h, shown]
      · rw [if_neg h, shown]

end Sys2Proof.Machine
end

section
/-! The rule of the boost at a slot end (R114, R115, R134, Table 7-5). -/

namespace Sys2Proof.Machine

/-! ### The price of a boost -/

/-- The wakes counted by R114 are the beacons of the tag's phase. -/
theorem wakesWithin_count (w : WakeClass) (id : TagId) (b : Beacon) (d : Nat) : wakesWithin w id b d
    = (List.range d).countP fun i => decide ((b + BitVec.ofNat 24 (i + 1)).toNat % 2 ^ w.val = id.toNat % 2 ^ w.val) := by
  obtain ⟨pos, le_interval, phase⟩ := wakeDistance_spec w id b
  simp only [beacon_add_mod, phase]
  unfold wakesWithin interval
  generalize wakeDistance w id b = first at pos le_interval
  induction d with
  | zero => exact if_neg (by omega)
  | succ d ih =>
    rw [List.range_succ, List.countP_append, ← ih]
    simp only [List.countP_singleton, decide_eq_true_eq]
    clear ih phase
    fin_cases w <;> simp only at pos le_interval ⊢ <;> split_ifs <;> omega

theorem boostCost_eq_price (b u : Beacon) (w : WakeClass) (id : TagId) (perWake : Nat) :
    boostCost b u w id perWake = boostPrice b u w id perWake := by
  unfold boostCost boostPrice beaconDiff
  dsimp only
  rw [wakesWithin_count]

/-! ### The tag's boost list entry -/

theorem boostOf_some {s : State} (h : OneFiling s) {c : Cell} {x : BoostEntry} (hx : x ∈ s.planner.boosts.get c) :
    s.boostOf x.addr = some (c, x) := by
  obtain ⟨z, found⟩ := Option.isSome_iff_exists.mp ((boostOf_isSome_iff s x.addr).mpr ⟨c, x, hx, rfl⟩)
  obtain ⟨d, -, hd⟩ := List.exists_of_findSome?_eq_some found
  obtain ⟨y, hy, rfl⟩ := Option.map_eq_some_iff.mp hd
  have key : y.addr = x.addr := by simpa using List.find?_some hy
  obtain ⟨rfl, rfl⟩ := Distinct.eq_of_key h.2 (List.mem_of_find?_eq_some hy) hx key
  exact found

theorem filter_key_alone {α : Type} {f : α → Nat} {l : List α} {x : α} (nodup : (l.map f).Nodup) (hx : x ∈ l) :
    l.filter (fun y => decide (f y = f x)) = [x] := by
  induction l with
  | nil => cases hx
  | cons z zs ih =>
    rw [List.map_cons, List.nodup_cons] at nodup
    obtain ⟨fresh, nodup⟩ := nodup
    obtain rfl | hx := List.mem_cons.mp hx
    · rw [List.filter_cons_of_pos (by simp), List.filter_eq_nil_iff.mpr]
      exact fun y hy same => fresh (List.mem_map.mpr ⟨y, hy, of_decide_eq_true same⟩)
    · rw [List.filter_cons_of_neg, ih nodup hx]
      exact fun same => fresh (List.mem_map.mpr ⟨x, hx, (of_decide_eq_true same).symm⟩)

/-- The entries of a tag on a boost list. -/
def boostsAt (a : Nat) (d : Cell) (boosts : Quad (List BoostEntry)) : List BoostEntry :=
  (boosts.get d).filter fun y => decide (y.addr = a)

theorem boostsAt_alone {s : State} (h : OneFiling s) {d : Cell} {x : BoostEntry} (hx : x ∈ s.planner.boosts.get d) :
    boostsAt x.addr d s.planner.boosts = [x] := by
  have nodup : ((s.planner.boosts.get d).map (·.addr)).Nodup :=
    h.2.sublist ((List.sublist_flatten_of_mem ((Quad.mem_toList ..).mpr ⟨d, rfl⟩)).map _)
  exact filter_key_alone nodup hx

theorem boostsAt_dropped (a : Nat) (d : Cell) (boosts : Quad (List BoostEntry)) :
    boostsAt a d (boosts.map fun l => l.filter fun y => decide (y.addr ≠ a)) = [] := by
  unfold boostsAt
  rw [Quad.get_map, List.filter_filter, List.filter_eq_nil_iff]
  exact fun y _ => by simp

theorem boostsAt_confirmed (a : Nat) (u : Beacon) (d : Cell) (s : State) :
    boostsAt a d (confirmBoost a u s).planner.boosts = (boostsAt a d s.planner.boosts).map fun _ => ⟨a, u, true⟩ := by
  have here : (fun y : BoostEntry => decide (y.addr = a)) ∘ (fun x => if x.addr = a then { x with boostEnd := u, confirmed := true } else x)
      = fun y => decide (y.addr = a) := by
    funext y
    dsimp only [Function.comp]
    split <;> rfl
  unfold boostsAt confirmBoost
  rw [Quad.get_map, List.filter_map, here]
  refine List.map_congr_left fun x hx => ?_
  have at_a : x.addr = a := of_decide_eq_true (List.mem_filter.mp hx).2
  rw [if_pos at_a, ← at_a]

/-- What becomes of the tag's boost list entry (Table 7-5). -/
def resolvedAs (p : Snapshot) (received : Option Report) (x : BoostEntry) : List BoostEntry :=
  match p.boostOrder with
  | some u => if x.confirmed then [x] else if received.any fun r => confirmsBoost p r then [⟨p.addr, u, true⟩] else []
  | none =>
    match received with
    | none => [x]
    | some r => if x.confirmed ∧ ¬ (r.boostEnd.any fun u => atOrAfter u p.beacon) then [] else [x]

/-- The boosts after a slot end of the tag of entry `e`, which becomes `f`: those of the part, without the tag's where its change has
finished, resolved by what was received. -/
def BoostsResolved (p : Snapshot) (received : Option Report) (e f : Entry) (s t : State) : Prop :=
  ∃ v, t.planner.boosts = (resolveBoost p received v).planner.boosts
    ∧ (f.live = e.live ∧ v.planner.boosts = s.planner.boosts
      ∨ f.live ≠ e.live ∧ v.planner.boosts = s.planner.boosts.map fun l => l.filter fun y => decide (y.addr ≠ p.addr))

section resolved

variable {p : Snapshot} {received : Option Report} {e f : Entry} {s t : State} (h : BoostsResolved p received e f s t)

include h in
theorem BoostsResolved.others {d : Cell} {y : BoostEntry} (other : y.addr ≠ p.addr) :
    y ∈ t.planner.boosts.get d ↔ y ∈ s.planner.boosts.get d := by
  obtain ⟨v, boosts, ⟨-, same⟩ | ⟨-, dropped⟩⟩ := h
  · rw [boosts, resolveBoost_others other, same]
  · rw [boosts, resolveBoost_others other, dropped, mem_boosts_filter other]

include h in
theorem BoostsResolved.absent (none : ∀ d, ∀ x ∈ s.planner.boosts.get d, x.addr ≠ p.addr) (d : Cell) :
    ∀ y ∈ t.planner.boosts.get d, y.addr ≠ p.addr := by
  obtain ⟨v, boosts, ⟨-, same⟩ | ⟨-, dropped⟩⟩ := h
  · rw [boosts, resolveBoost_none received (by rw [same]; exact none), same]
    exact none d
  · rw [boosts, resolveBoost_none received (by rw [dropped]; exact fun c x hx => ne_of_mem_dropped c x hx), dropped]
    exact fun x hx => ne_of_mem_dropped d x hx

include h in
theorem BoostsResolved.gone (d : Cell) (ended : f.live ≠ e.live) : boostsAt p.addr d t.planner.boosts = [] := by
  obtain ⟨v, boosts, ⟨same, -⟩ | ⟨-, dropped⟩⟩ := h
  · exact absurd same ended
  · rw [boosts, resolveBoost_none received (by rw [dropped]; exact fun c x hx => ne_of_mem_dropped c x hx), dropped]
    exact boostsAt_dropped p.addr d _

include h in
/-- The tag's boost list entry is resolved by Table 7-5. -/
theorem BoostsResolved.entry (one : OneFiling s) (lives : f.live = e.live) {d : Cell} {x : BoostEntry}
    (hx : x ∈ s.planner.boosts.get d) (here : x.addr = p.addr) :
    boostsAt p.addr d t.planner.boosts = resolvedAs p received x := by
  obtain ⟨v, boosts, ⟨-, same⟩ | ⟨ended, -⟩⟩ := h
  swap
  · exact absurd lives ended
  have found : v.boostOf p.addr = some (d, x) := by
    rw [← here, ← boostOf_some one hx]
    unfold State.boostOf
    rw [same]
  have alone : boostsAt p.addr d v.planner.boosts = [x] := by
    rw [same, ← here]
    exact boostsAt_alone one hx
  rw [boosts]
  unfold resolveBoost resolvedAs
  rw [found]
  cases p.boostOrder with
  | some u =>
    dsimp only
    split_ifs
    · exact alone
    · rw [boostsAt_confirmed, alone]
      rfl
    · exact boostsAt_dropped p.addr d _
  | none =>
    cases received with
    | none => exact alone
    | some r =>
      dsimp only
      split_ifs
      · exact boostsAt_dropped p.addr d _
      · exact alone

end resolved

theorem confirmsBoost_iff (p : Snapshot) (r : Report) :
    confirmsBoost p r = true ↔ p.boostOrder.isSome = true ∧ r.boostEnd = p.boostOrder := by
  simp [confirmsBoost]

theorem confirmCost_none {p : Snapshot} {r : Report} (h : confirmsBoost p r ≠ true) (w : WakeClass) (id : TagId) (perWake : Nat) :
    confirmCost p r w id perWake = none := if_neg h

theorem confirmCost_some {p : Snapshot} {r : Report} (h : confirmsBoost p r = true) (w : WakeClass) (id : TagId) (perWake : Nat) :
    confirmCost p r w id perWake = some ((p.boostOrder.map fun u => boostPrice p.beacon u w id perWake).getD 0) := by
  obtain ⟨ordered, -⟩ := (confirmsBoost_iff p r).mp h
  obtain ⟨u, hu⟩ := Option.isSome_iff_exists.mp ordered
  unfold confirmCost
  rw [if_pos h, hu, Option.map_some, Option.map_some, boostCost_eq_price]
  rfl

theorem slotFiling_entryAt (a b : Nat) (s : State) : (slotFiling a s).entryAt b = s.entryAt b := by
  obtain ⟨cal, h⟩ := slotFiling_calendar a s
  rw [h]
  rfl

theorem slotFiling_table (a : Nat) (s : State) : (slotFiling a s).table = s.table := by
  obtain ⟨cal, h⟩ := slotFiling_calendar a s
  rw [h]

theorem slotFiling_boosts (a : Nat) (s : State) : (slotFiling a s).planner.boosts = s.planner.boosts := by
  obtain ⟨cal, h⟩ := slotFiling_calendar a s
  rw [h]

theorem resolveBoost_entryAt (p : Snapshot) (rep : Option Report) (s : State) (b : Nat) :
    (resolveBoost p rep s).entryAt b = s.entryAt b := by
  obtain ⟨boosts, h⟩ := resolveBoost_boosts p rep s
  rw [h]
  rfl

theorem resolveBoost_table (p : Snapshot) (rep : Option Report) (s : State) : (resolveBoost p rep s).table = s.table := by
  obtain ⟨boosts, h⟩ := resolveBoost_boosts p rep s
  rw [h]

/-- What a slot end of the tag of entry `e` does to its charge, its change's charge and its boost, `cost` being the boost's cost
where the report confirms it. -/
structure ChargedAs (p : Snapshot) (received : Option Report) (cost : Option Nat) (e f : Entry) (s t : State) : Prop where
  held : t.entryAt p.addr = some f
  remaining : f.remaining = e.remaining - cost.getD 0
  spent : ∀ k q, f.live = some k → s.recordOf k = some q →
    ∃ x ∈ t.table.records, x.serial = k ∧ x.spent = spentAfter cost q.spent
  boosts : BoostsResolved p received e f s t

theorem missed_charged {p : Snapshot} {s : State} {e : Entry} (held : s.entryAt p.addr = some e) (limit : Nat) :
    ChargedAs p none none e { e with misses := min (e.misses + 1) limit } s
      (slotFiling p.addr (resolveBoost p none (updEntry p.addr (fun e => { e with misses := min (e.misses + 1) limit }) s))) where
  held := by
    rw [slotFiling_entryAt, resolveBoost_entryAt]
    exact entryAt_updEntry_same (f := fun e => { e with misses := min (e.misses + 1) limit }) (fun _ => rfl) held
  remaining := rfl
  spent k q _ hq := by
    rw [slotFiling_table, resolveBoost_table]
    exact ⟨q, recordOf_mem hq, recordOf_serial hq, rfl⟩
  boosts := ⟨_, slotFiling_boosts _ _, .inl ⟨rfl, rfl⟩⟩

theorem reported_charged {p : Snapshot} {r : Report} {level : Byte} {s n : State} {e : Entry} (noted : ReportNoted p r level s n)
    (law : TableLaw s) (live : LiveLaw s) (held : s.entryAt p.addr = some e) :
    ∃ f, ChargedAs p (some r) (confirmCost p r r.wakeClass e.tagId s.store.working.boostWakeCost) e f s
      (laterTurns p r (changeReport p.addr p.serial r n)) := by
  obtain ⟨l, turn⟩ := changeReport_turn noted law live held
  have base := noted.base.trans (changeReport_base p.addr p.serial r n)
  have entry := turn.entry
  rw [noted.entryAt held, Option.map_some] at entry
  generalize changeReport p.addr p.serial r n = u at *
  have budget := budgetReport_spendAt r entry turn.held
  rw [base.store] at budget
  change budgetReport p r u = spendAt p.addr l (confirmCost p r r.wakeClass e.tagId s.store.working.boostWakeCost) u at budget
  unfold laterTurns
  rw [budget]
  generalize confirmCost p r r.wakeClass e.tagId s.store.working.boostWakeCost = cost
  have final := spendAt_entryAt entry l cost
  refine ⟨_, by rw [slotFiling_entryAt, resolveBoost_entryAt]; exact final, rfl, fun k q hk hq => ?_, _, slotFiling_boosts _ _,
    turn.boosts.imp id (And.imp_right And.right)⟩
  obtain ⟨x, hx, spent⟩ := turn.spent k q hk hq
  rw [slotFiling_table, resolveBoost_table]
  have serial := recordOf_serial hx
  refine ⟨{ x with spent := spentAfter cost x.spent }, List.mem_map.mpr ⟨x, recordOf_mem hx, if_pos ?_⟩, serial, by rw [spent]⟩
  rw [serial]
  exact hk

theorem any_iff_exists {α : Type} (o : Option α) (q : α → Bool) : o.any q = true ↔ ∃ u, o = some u ∧ q u = true := by
  cases o <;> simp

/-- Settles O50: the report is charged, then the boost list entry resolved. -/
theorem boostAtSlotEnd : Obligations.BoostAtSlotEnd := by
  intro c level p windows e received s hp next directory law live one held same ours stays confirms cost
  have outcome : ∃ t f, exec (.slotEnd c (received.map reportFrame) level) s = .next t
      ∧ ChargedAs p received (if received.any (confirmsBoost p) then some cost else none) e f s t := by
    cases received with
    | none =>
      have charged := missed_charged (p := p) (s := { s with cells.windows := windows }) held s.store.working.missLimit
      refine ⟨_, _, ?_, ⟨charged.held, charged.remaining, charged.spent, charged.boosts⟩⟩
      rw [Option.map_none, exec_slotEnd_next hp next, endSlot_missed (s := { s with cells.windows := windows }) level held same rfl,
        countMiss_counts (s := { s with cells.windows := windows }) held (stays rfl)]
    | some r =>
      obtain ⟨tag, sendable⟩ := ours r rfl
      have noted : ReportNoted p r level { s with cells.windows := windows } _ := directoryReport_noted p r level _
      obtain ⟨f, charged⟩ := reported_charged noted law live held
      have price : (if (some r).any (confirmsBoost p) then some cost else none)
          = confirmCost p r r.wakeClass e.tagId s.store.working.boostWakeCost := by
        by_cases h : confirmsBoost p r = true
        · rw [confirmCost_some h]
          refine (if_pos h).trans (congrArg some ?_)
          change (p.boostOrder.bind _).getD 0 = _
          cases p.boostOrder <;> rfl
        · rw [confirmCost_none h]
          exact if_neg h
      rw [price]
      exact ⟨_, f, exec_slotEnd_reported hp next level held same tag sendable, charged.held, charged.remaining, charged.spent,
        charged.boosts⟩
  obtain ⟨t, f, done, found, remaining, spent, boosts⟩ := outcome
  have confirmed : confirms ↔ received.any (confirmsBoost p) = true := by
    change (p.boostOrder.isSome = true ∧ received.bind (·.boostEnd) = p.boostOrder) ↔ _
    cases received with
    | none => simp only [Option.bind_none, Option.any_none]; cases p.boostOrder <;> simp
    | some r => exact (confirmsBoost_iff p r).symm
  refine ⟨t, f, done, found, fun yes => ?_, fun no => ?_, fun k q hk hq => ?_, fun d y other => boosts.others other,
    boosts.absent, fun d x hx here => ?_⟩
  · rw [remaining, if_pos (confirmed.mp yes)]
    rfl
  · rw [remaining, if_neg (mt confirmed.mpr no)]
    rfl
  · obtain ⟨x, hx, serial, at_spent⟩ := spent k q hk hq
    refine ⟨x, hx, serial, fun yes => ?_, fun no => ?_⟩
    · rw [at_spent, if_pos (confirmed.mp yes)]
      rfl
    · rw [at_spent, if_neg (mt confirmed.mpr no)]
      rfl
  · have entry (lives : f.live = e.live) : boostsAt p.addr d t.planner.boosts = resolvedAs p received x :=
      boosts.entry one lives hx here
    unfold resolvedAs at entry
    refine ⟨boosts.gone d, fun lives ordered provisional => ⟨fun u yes hu => (entry lives).trans ?_, fun no => (entry lives).trans ?_⟩,
      fun lives ordered confirmed => (entry lives).trans ?_,
      fun lives unordered sure => ⟨fun h => (entry lives).trans ?_, fun got lapsed => (entry lives).trans ?_⟩⟩
    · rw [hu, provisional]
      exact if_pos (confirmed.mp yes)
    · obtain ⟨u, hu⟩ := Option.isSome_iff_exists.mp ordered
      rw [hu, provisional]
      exact if_neg (mt confirmed.mpr no)
    · obtain ⟨u, hu⟩ := Option.isSome_iff_exists.mp ordered
      rw [hu, confirmed]
      rfl
    · rw [unordered]
      cases received with
      | none => rfl
      | some r =>
        refine if_neg fun gone => gone.2 ?_
        obtain ⟨u, hu, after⟩ := h.resolve_left (Option.some_ne_none r)
        exact (any_iff_exists ..).mpr ⟨u, hu, after⟩
    · obtain ⟨r, rfl⟩ := Option.ne_none_iff_exists'.mp got
      rw [unordered]
      refine if_pos ⟨sure, fun shown => lapsed ?_⟩
      obtain ⟨u, hu, after⟩ := (any_iff_exists ..).mp shown
      exact ⟨u, hu, after⟩

end Sys2Proof.Machine
end

section
/-! The rule of JOIN_SLOT_END (R33 to R40, R152). -/

namespace Sys2Proof.Machine

/-! ### The join frame -/

/-- A join frame's bytes ahead of its check value. -/
def joinPart (j : Join) : List Byte :=
  0xB5 :: le 4 j.tagId.toNat ++ le 2 j.siteCode.toNat ++ le 2 j.shown.toNat ++ le 2 j.staged.serial.toNat
    ++ [j.staged.condition.code]

theorem joinFrame_eq (j : Join) : joinFrame j = joinPart j ++ crcBytes (joinPart j) := rfl

theorem joinPart_length (j : Join) : (joinPart j).length = 12 := by simp [joinPart]

theorem airChecked_joinFrame (j : Join) : airChecked 14 (joinFrame j) = true := by
  have part := joinPart_length j
  have drop : (joinFrame j).drop 12 = crcBytes (joinPart j) := by
    rw [joinFrame_eq, ← part]
    exact List.drop_left
  have take : (joinFrame j).take 12 = joinPart j := by
    rw [joinFrame_eq, ← part]
    exact List.take_left
  unfold airChecked
  rw [drop, take, joinFrame_eq, List.length_append, part, crcBytes_length]
  simp

/-- The fields of a join frame (Table 11-11). -/
structure JoinFields (j : Join) (bs : List Byte) : Prop where
  tagId     : field 1 4 bs = j.tagId.toNat
  siteCode  : field 5 2 bs = j.siteCode.toNat
  shown     : field 7 2 bs = j.shown.toNat
  serial    : field 9 2 bs = j.staged.serial.toNat
  condition : field 11 1 bs = j.staged.condition.code.toNat

theorem joinFrame_fields (j : Join) : JoinFields j (joinFrame j) := by
  rw [joinFrame_eq]
  unfold joinPart
  simp only [List.append_assoc, List.cons_append, List.nil_append]
  constructor
  all_goals
    simp (disch := omega) only [field_le_front, field_le_skip, field_cons_skip, field_head, Nat.sub_self, Nat.reduceSub]
  case tagId => exact toNat_mod_pow (n := 4) j.tagId (by norm_num)
  case siteCode => exact toNat_mod_pow (n := 2) j.siteCode (by norm_num)
  case shown => exact toNat_mod_pow (n := 2) j.shown (by norm_num)
  case serial => exact toNat_mod_pow (n := 2) j.staged.serial (by norm_num)

/-- A join that a tag may send is read back from its frame (R187, R188). -/
theorem decodeJoin_joinFrame {j : Join} (staged : j.staged.serial = 0 ↔ j.staged.condition = .nil) :
    decodeJoin (joinFrame j) = some j := by
  have f := joinFrame_fields j
  unfold decodeJoin
  rw [f.condition, condition_ofCode_code]
  dsimp only
  rw [if_pos ⟨airChecked_joinFrame j, rfl⟩, f.tagId, f.siteCode, f.shown, f.serial, ofNat_toNat_self, ofNat_toNat_self,
    ofNat_toNat_self, ofNat_toNat_self, settle_sendable staged]

/-! ### The screening -/

theorem exec_joinSlotEnd {s : State} (hp : s.powered = true) (c : Cell) (heard : JoinHeard) :
    exec (.joinSlotEnd c heard) s = .next (joinSlotEnd c heard s) := congrArg _ (event_powered hp _)

/-- A part with its windows replaced. -/
def State.withWindows (s : State) (windows : Quad (Option Window)) : State := { s with cells.windows := windows }

theorem remaining_of_ended {w : Window} (ended : ∀ x ∈ w.slots, x.ended = true) : w.remaining = [] := by
  unfold Window.remaining
  rw [List.map_eq_nil_iff, List.filter_eq_nil_iff]
  exact fun x hx => by simp [ended x hx]

/-- The join slot of a window whose slots have ended: the join is screened, and the window closed. -/
theorem exec_joinSlotEnd_open {s : State} (hp : s.powered = true) {c : Cell} {w : Window} (opened : s.cells.windows.get c = some w)
    (ended : ∀ x ∈ w.slots, x.ended = true) (heard : JoinHeard) : exec (.joinSlotEnd c heard) s
      = .next (((heardJoin heard).elim s fun j => screenJoin c w.beacon j s).withWindows (s.cells.windows.set c none)) := by
  rw [exec_joinSlotEnd hp]
  unfold joinSlotEnd
  rw [opened]
  dsimp only
  rw [if_pos (remaining_of_ended ended)]
  cases heardJoin heard with
  | none => rfl
  | some j =>
    dsimp only [Option.elim_some]
    unfold State.withWindows
    rw [(screenJoin_base c w.beacon j s).cells]

theorem isStranger_iff (j : Join) (s : State) : isStranger j s = true
    ↔ s.entryOf j.tagId = none ∨ j.siteCode ≠ 0 ∧ j.siteCode ≠ s.store.working.siteCode := by
  simp [isStranger]

/-! ### An accepted join -/

/-- An entry as R35 to R37 leave it at the cell of the join. -/
def Entry.joinedAt (c : Cell) (e : Entry) : Entry :=
  { e with state := .present, home := some c, link := if e.state ≠ .unseen ∧ e.home = some c then e.link else none }

/-- The boosts after a hand-off to cell c (R37). -/
def movedBoosts (c : Cell) (a : Nat) (s : State) : Quad (List BoostEntry) :=
  match s.boostOf a with
  | none => s.planner.boosts
  | some (h, x) =>
    if h = c then s.planner.boosts
    else if (s.planner.boosts.get c).length < 16 then (placeBoost c x s).planner.boosts
    else (dropBoost a s).planner.boosts

theorem moveBoost_eq (c : Cell) (a : Nat) (s : State) : moveBoost c a s = { s with planner.boosts := movedBoosts c a s } := by
  unfold moveBoost movedBoosts
  cases s.boostOf a with
  | none => rfl
  | some y =>
    dsimp only
    split_ifs <;> rfl

/-- The boosts after an accepted join: a tag of another cell is handed off. -/
def joinBoosts (c : Cell) (e : Entry) (s : State) : Quad (List BoostEntry) :=
  if e.state = .present ∧ e.home ≠ some c then movedBoosts c e.addr s else s.planner.boosts

/-- What the entry's state brings to an accepted join (R35, R36, R37). -/
theorem joinState_eq {c : Cell} {e : Entry} {s : State} (directory : DirectoryLaw s) (he : e ∈ s.dir.entries) :
    ∃ cal, (cal = s.planner.calendar ∨ cal = (dropCalendar e.addr s).planner.calendar)
      ∧ joinState c e s = { s with
        dir.entries := s.dir.entries.map fun x => if x.addr = e.addr then x.joinedAt c else x
        planner := { s.planner with calendar := cal, boosts := joinBoosts c e s } } := by
  have alone {f : Entry → Entry} (h : f e = e.joinedAt c) : (s.dir.entries.map fun x => if x.addr = e.addr then f x else x)
      = s.dir.entries.map fun x => if x.addr = e.addr then x.joinedAt c else x := by
    refine List.map_congr_left fun x hx => ?_
    by_cases here : x.addr = e.addr
    · rw [directory.eq_of_addr hx he here, h]
    · rw [if_neg here, if_neg here]
  have stays (h : ¬ (e.state = .present ∧ e.home ≠ some c)) : joinBoosts c e s = s.planner.boosts := if_neg h
  have moves (h : e.state = .present ∧ e.home ≠ some c) : joinBoosts c e s = movedBoosts c e.addr s := if_pos h
  unfold joinState
  cases hs : e.state with
  | unseen =>
    refine ⟨_, .inl rfl, ?_⟩
    rw [stays (by simp [hs])]
    unfold updEntry
    rw [alone (by simp [Entry.joinedAt, hs])]
  | lost =>
    refine ⟨_, .inl rfl, ?_⟩
    rw [stays (by simp [hs])]
    unfold updEntry
    rw [alone (by simp [Entry.joinedAt, hs])]
  | present =>
    dsimp only
    by_cases home : e.home = some c
    · have joined : id e = e.joinedAt c := by
        obtain ⟨⟩ := e
        simp_all [Entry.joinedAt]
      have entries : (s.dir.entries.map fun x => if x.addr = e.addr then id x else x) = s.dir.entries :=
        map_id_on fun x _ => ite_self x
      refine ⟨_, .inl rfl, ?_⟩
      rw [if_pos home, stays (fun h => h.2 home), ← alone joined, entries]
    · refine ⟨_, .inr rfl, ?_⟩
      rw [if_neg home, moveBoost_eq, moves ⟨hs, home⟩, ← alone (f := fun e => { e with home := some c, link := none })
        (by simp [Entry.joinedAt, hs, home])]
      rfl

/-- The entry after an accepted join (R34 to R37). -/
def Entry.accepted (c : Cell) (j : Join) (e : Entry) : Entry := (e.joinedAt c).afterJoin j

/-- The directory after an accepted join. -/
def joinDirectory (c : Cell) (j : Join) (e : Entry) (s : State) : Directory :=
  { s.dir with
    grants := (s.dir.grants.map fun l => l.filter fun g => decide (g.tagId ≠ e.tagId)).modify c
      fun l => l ++ [⟨e.tagId, e.addr⟩]
    entries := s.dir.entries.map fun x => if x.addr = e.addr then x.accepted c j else x }

theorem dropCalendar_again {a : Nat} {s t : State}
    (h : t.planner.calendar = s.planner.calendar ∨ t.planner.calendar = (dropCalendar a s).planner.calendar) :
    (dropCalendar a t).planner.calendar = (dropCalendar a s).planner.calendar := by
  obtain h | h := h
  · exact congrArg (fun q : Quad (List CalendarEntry) => q.map fun l => l.filter fun x => decide (x.addr ≠ a)) h
  · refine (congrArg (fun q : Quad (List CalendarEntry) => q.map fun l => l.filter fun x => decide (x.addr ≠ a)) h).trans ?_
    refine Quad.ext_get fun d => ?_
    change ((s.planner.calendar.map _).map _).get d = (s.planner.calendar.map _).get d
    rw [Quad.get_map, Quad.get_map, List.filter_filter]
    simp

theorem hasWork_accepted {s u : State} (table : u.table = s.table) (c : Cell) (j : Join) (e : Entry) :
    u.hasWork (e.accepted c j) = true
      ↔ e.flash = true ∨ ∃ r, s.liveRecord e = some r ∧ r.state ≠ .staged ∧ r.state ≠ .finished := by
  have live : u.liveRecord (e.accepted c j) = s.liveRecord e :=
    congrArg _ (funext (recordOf_congr (congrArg (·.records) table)))
  have isWork (x : ChangeState) : x.isWork = true ↔ x ≠ .staged ∧ x ≠ .finished := by cases x <;> decide
  unfold State.hasWork
  rw [live, Bool.or_eq_true, Bool.or_eq_true, or_right_comm]
  change ((_ ∨ e.flash = true) ∨ false = true) ↔ _
  cases s.liveRecord e with
  | none => simp
  | some r => simp [isWork, or_comm]

theorem joinDirectory_eq {c : Cell} {j : Join} {e : Entry} {s : State} (directory : DirectoryLaw s) (he : e ∈ s.dir.entries) :
    joinDirectory c j e s = { s.dir with
      grants := (s.dir.grants.map fun l => l.filter fun g => decide (g.tagId ≠ e.tagId)).modify c fun l => l ++ [⟨e.tagId, e.addr⟩]
      entries := s.dir.entries.map fun x =>
        if x.addr = e.addr then
          { x with
            state := .present, home := some c
            link := if x.state ≠ .unseen ∧ x.home = some c then x.link else none
            shown := some j.shown, staged := some j.staged
            misses := 0, believed := e.commanded.getD e.believed, commanded := none }
        else x } := by
  unfold joinDirectory
  refine congrArg (fun es : List Entry => ({ s.dir with
    grants := (s.dir.grants.map fun l => l.filter fun g => decide (g.tagId ≠ e.tagId)).modify c fun l => l ++ [⟨e.tagId, e.addr⟩]
    entries := es } : Directory)) ?_
  refine List.map_congr_left fun x hx => ?_
  by_cases here : x.addr = e.addr
  · rw [directory.eq_of_addr hx he here]
    rfl
  · rw [if_neg here, if_neg here]

theorem joinBoosts_eq (c : Cell) (e : Entry) (s : State) : joinBoosts c e s = match e.state, s.boostOf e.addr with
    | .present, some (h, x) =>
      if e.home = some c ∨ h = c then s.planner.boosts
      else if (s.planner.boosts.get c).length < 16 then (placeBoost c x s).planner.boosts
      else (dropBoost e.addr s).planner.boosts
    | _, _ => s.planner.boosts := by
  unfold joinBoosts movedBoosts
  cases e.state with
  | unseen => rfl
  | lost => rfl
  | present =>
    by_cases home : e.home = some c
    · rw [if_neg fun h => h.2 home]
      cases s.boostOf e.addr with
      | none => rfl
      | some y => exact (if_pos (.inl home)).symm
    · rw [if_pos ⟨rfl, home⟩]
      cases s.boostOf e.addr with
      | none => rfl
      | some y =>
        by_cases there : y.1 = c
        · exact (if_pos there).trans (if_pos (.inr there)).symm
        · exact (if_neg there).trans (if_neg (not_or.mpr ⟨home, there⟩)).symm

/-- An accepted join (R34 to R37). -/
theorem acceptJoin_eq {c : Cell} (j : Join) {e : Entry} {s : State} (directory : DirectoryLaw s) (he : e ∈ s.dir.entries) :
    ∃ calendar, ((e.flash = true ∨ ∃ r, s.liveRecord e = some r ∧ r.state ≠ .staged ∧ r.state ≠ .finished) →
        calendar = (placeCalendar c ⟨e.addr, nextWake (e.commanded.getD e.believed) e.tagId (s.planner.last.get c)⟩
          s).planner.calendar)
      ∧ (¬ (e.flash = true ∨ ∃ r, s.liveRecord e = some r ∧ r.state ≠ .staged ∧ r.state ≠ .finished) →
        calendar = (dropCalendar e.addr s).planner.calendar)
      ∧ acceptJoin c j e s = { s with
        dir := joinDirectory c j e s
        planner := { s.planner with calendar := calendar, boosts := joinBoosts c e s } } := by
  obtain ⟨cal, was, joined⟩ := joinState_eq (c := c) directory he
  have entries : (s.dir.entries.map fun x => if x.addr = e.addr then x.joinedAt c else x).map
      (fun x => if x.addr = e.addr then x.afterJoin j else x)
      = s.dir.entries.map fun x => if x.addr = e.addr then x.accepted c j else x := by
    rw [List.map_map]
    refine List.map_congr_left fun x _ => ?_
    by_cases here : x.addr = e.addr
    · have here' : (x.joinedAt c).addr = e.addr := here
      simp [here, here', Entry.accepted]
    · simp [here]
  set u : State := { s with
    dir := joinDirectory c j e s
    planner := { s.planner with calendar := cal, boosts := joinBoosts c e s } } with hu
  have queued : queueGrant c e (updEntry e.addr (Entry.afterJoin j) (joinState c e s)) = u := by
    rw [joined]
    unfold queueGrant dropGrants updEntry
    dsimp only
    rw [entries]
    rfl
  have held : u.entryAt e.addr = some (e.accepted c j) := by
    rw [entryAt_map (s := s) (f := fun x => if x.addr = e.addr then x.accepted c j else x) (fun x => by split <;> rfl) rfl,
      directory.entryAt he, Option.map_some, if_pos rfl]
  have again : (dropCalendar e.addr u).planner.calendar = (dropCalendar e.addr s).planner.calendar := dropCalendar_again was
  have work := hasWork_accepted (s := s) (u := u) rfl c j e
  unfold acceptJoin
  rw [queued]
  unfold joinFiling
  rw [held]
  dsimp only
  rw [← work]
  by_cases busy : u.hasWork (e.accepted c j) = true
  · rw [if_pos busy]
    refine ⟨_, fun _ => ?_, fun idle => absurd busy idle, rfl⟩
    exact congrArg (fun q : Quad (List CalendarEntry) => q.modify c (insertBy (fun p q => decide (p.addr < q.addr))
      ⟨e.addr, nextWake (e.commanded.getD e.believed) e.tagId (s.planner.last.get c)⟩)) again
  · rw [if_neg busy]
    exact ⟨_, fun h => absurd h busy, fun _ => again, rfl⟩

theorem recordStranger_known {c : Cell} {b : Beacon} {id : TagId} {s : State} {x : Stranger}
    (known : s.dir.strangers.find? (fun x => decide (x.tagId = id)) = some x) : recordStranger c b id s
      = { s with dir.strangers := (s.dir.strangers.filter fun x => decide (x.tagId ≠ id)) ++ [⟨id, c, b, min (x.joins + 1) 255⟩] } := by
  unfold recordStranger
  rw [known]

theorem recordStranger_new {c : Cell} {b : Beacon} {id : TagId} {s : State}
    (new : (s.dir.strangers.filter fun x => decide (x.tagId ≠ id)) = s.dir.strangers) : recordStranger c b id s
      = placeStrangers { s with dir.strangers :=
        (if s.dir.strangers.length < 16 then s.dir.strangers else s.dir.strangers.drop 1) ++ [⟨id, c, b, 1⟩] } := by
  have unknown : s.dir.strangers.find? (fun x => decide (x.tagId = id)) = none := by
    rw [List.find?_eq_none]
    intro x hx
    have := List.filter_eq_self.mp new x hx
    simpa using this
  unfold recordStranger
  rw [unknown, List.drop_one]

/-- Settles O52: by the tests of the screening. -/
theorem joinSlotEndRule : Obligations.JoinSlotEndRule := by
  intro c w s hp directory opened ended closed
  have taken := exec_joinSlotEnd_open hp opened ended
  refine ⟨taken .nothing, taken .collided, fun bytes bad => ?_, fun j staged => ?_⟩
  · have unheard : heardJoin (.heard bytes) = none := bad
    rw [taken, unheard]
    rfl
  intro outcome valid stranger granted others
  have heard : outcome = .next ((screenJoin c w.beacon j s).withWindows (s.cells.windows.set c none)) := by
    have decoded : heardJoin (.heard (joinFrame j)) = some j := decodeJoin_joinFrame staged
    have := taken (.heard (joinFrame j))
    rwa [decoded] at this
  have answer {t : State} (h : screenJoin c w.beacon j s = t) :
      outcome = .next (t.withWindows (s.cells.windows.set c none)) := by rw [heard, h]
  unfold screenJoin at answer
  have isValid (ok : valid) : ¬ invalidId j.tagId = true := fun h => ((invalidId_iff _).mp h).elim ok.1 ok.2
  have isOurs (mine : ¬ stranger) : ¬ isStranger j s = true := mt (isStranger_iff j s).mp mine
  refine ⟨fun bad => ?_, fun ok strange new => ?_, fun x ok strange known => ?_, fun ok mine full => ?_,
    fun e ok mine fresh room he => ?_⟩
  · refine answer (t := s) (if_pos ((invalidId_iff _).mpr ?_))
    by_contra no
    exact bad (not_or.mp no)
  · rw [if_neg (isValid ok), if_pos ((isStranger_iff j s).mpr strange)] at answer
    exact answer (recordStranger_new new)
  · rw [if_neg (isValid ok), if_pos ((isStranger_iff j s).mpr strange)] at answer
    exact answer (recordStranger_known known)
  · rw [if_neg (isValid ok), if_neg (isOurs mine)] at answer
    refine answer (t := s) ?_
    by_cases waits : (s.dir.grants.get c).any fun g => decide (g.tagId = j.tagId)
    · exact if_pos waits
    · refine (if_neg waits).trans (if_pos (full.resolve_left fun ⟨g, hg, same⟩ => waits ?_))
      exact List.any_eq_true.mpr ⟨g, hg, decide_eq_true same⟩
  · have unqueued : ¬ ((s.dir.grants.get c).any fun g => decide (g.tagId = j.tagId)) = true := fun h => by
      obtain ⟨g, hg, same⟩ := List.any_eq_true.mp h
      exact fresh ⟨g, hg, of_decide_eq_true same⟩
    obtain ⟨calendar, works, idles, accepted⟩ := acceptJoin_eq (c := c) j directory (entryOf_mem he).1
    rw [if_neg (isValid ok), if_neg (isOurs mine), if_neg unqueued, if_neg (by omega), he] at answer
    refine ⟨calendar, works, idles, (answer accepted).trans ?_⟩
    rw [joinBoosts_eq, joinDirectory_eq directory (entryOf_mem he).1]
    rfl

end Sys2Proof.Machine
end

section
/-! POST-CHANGE refused (R66, R189): its seven tests in their order. -/

namespace Sys2Proof.Machine

/-! ### The reply (Table 11-6) -/

theorem PostReply.bytes_eq (p : PostReply) : p.bytes
    = postReply p.serial p.blockCount p.superseded p.unitPrice p.projection p.subReason p.offset p.finalSize p.poolFree := by
  obtain ⟨serial, blockCount, superseded, price, projection, subReason, offset, finalSize, poolFree⟩ := p
  unfold PostReply.bytes postReply
  cases price <;> cases projection <;> simp only [List.append_assoc] <;> rfl

theorem PostReply.bytes_length (p : PostReply) : p.bytes.length = 23 := by
  have opt (n : Nat) (v : Option Nat) : (optField n v).length = n + 1 := by cases v <;> simp [optField]
  simp [PostReply.bytes, opt]

/-! ### The payload (Table 11-5) -/

theorem actPostChange_payload (id : TagId) (n x : Byte) {img : List Byte} (h : img.length ≤ 1089) (s : State) :
    actPostChange (le 4 id.toNat ++ [n, x] ++ le 2 img.length ++ img) s = postChange id n.toNat img s := by
  have size : field 6 2 (le 4 id.toNat ++ [n, x] ++ le 2 img.length ++ img) = img.length := by
    simp only [List.append_assoc, List.cons_append, List.nil_append]
    simp (disch := omega) only [field_le_front, field_le_skip, field_cons_skip, Nat.sub_self, Nat.reduceSub]
    exact Nat.mod_eq_of_lt (by omega)
  have number : field 4 1 (le 4 id.toNat ++ [n, x] ++ le 2 img.length ++ img) = n.toNat := by
    simp only [List.append_assoc, List.cons_append, List.nil_append]
    simp (disch := omega) only [field_le_skip, field_head, Nat.sub_self]
  have tag : field 0 4 (le 4 id.toNat ++ [n, x] ++ le 2 img.length ++ img) = id.toNat := by
    simp only [List.append_assoc]
    simp (disch := omega) only [field_le_front]
    exact toNat_mod_pow (n := 4) id (by norm_num)
  have rest : (le 4 id.toNat ++ [n, x] ++ le 2 img.length ++ img).drop 8 = img := by
    have front : (le 4 id.toNat ++ [n, x] ++ le 2 img.length).length = 8 := by simp
    rw [← front]
    exact List.drop_left
  unfold actPostChange
  rw [size, number, tag, rest, if_pos (by simp; omega), ofNat_toNat_self]

theorem campaignOfNumber_none {n : Nat} (h : 4 < n) : campaignOfNumber n = none := by
  unfold campaignOfNumber
  rw [if_neg (by omega), dif_neg (by omega)]

theorem campaignOfNumber_some {n : Nat} {campaign : Option CampaignIndex} (h : n = (campaign.map (·.val + 1)).getD 0) :
    campaignOfNumber n = some campaign := by
  subst h
  unfold campaignOfNumber
  cases campaign with
  | none => rfl
  | some i =>
    have below := i.isLt
    rw [if_neg (by simp), dif_pos (by simp)]
    simp

/-! ### The tests -/

theorem liveChangeTest_conflict {r : Change} {campaign : Option CampaignIndex} (h : r.campaign ≠ campaign) :
    liveChangeTest (some r) campaign = .error .conflict := if_pos h

theorem liveChangeTest_busy {r : Change} {campaign : Option CampaignIndex} (h : r.campaign = campaign)
    (busy : r.state = .withdrawing ∨ r.state = .verifying) : liveChangeTest (some r) campaign = .error .tagBusy := by
  refine (if_neg (not_not.mpr h)).trans ?_
  obtain h | h := busy <;> rw [h]

theorem liveChangeTest_free {old : Option Change} {campaign : Option CampaignIndex}
    (h : ∀ r, old = some r → r.campaign = campaign ∧ (r.state = .queued ∨ r.state = .sending ∨ r.state = .staged)) :
    liveChangeTest old campaign = .ok old := by
  cases old with
  | none => rfl
  | some r =>
    obtain ⟨same, state⟩ := h r rfl
    refine (if_neg (not_not.mpr same)).trans ?_
    obtain h | h | h := state <;> rw [h]

theorem tableHasRoom_iff (s : State) (old : Option Change) : tableHasRoom s old = true ↔ s.table.records.length < 4096
    ∨ old.isSome = true ∧ s.table.retire = [] ∧ s.table.outcomes.length < 1024 := by
  simp [tableHasRoom, and_assoc]

theorem poolHasRoom_iff (s : State) (old : Option Change) (n : Nat) : poolHasRoom s old n = true
    ↔ n ≤ s.pool.free + (old.map fun r => s.pool.heldBy r.serial).getD 0 := by simp [poolHasRoom]

theorem blocksOfImage_length (img : List Byte) : (blocksOfImage img).length = (img.length + 31) / 32 := by
  rw [blocksOfImage, cutBlocks_length, blockCountOf]

/-! ### The answers -/

/-- Every answer to a POST-CHANGE is a reply of Table 11-6, and one that is not OK leaves the part as it was. -/
structure PostAnswered (s : State) (a : Answer) : Prop where
  reply : ∃ code : ResultCode, ∃ p : PostReply, a.1 = some (code, p.bytes) ∧ (code ≠ .ok → a.2 = s)

theorem postAnswered_refused (s : State) (code : ResultCode) (p : PostReply) : PostAnswered s (postAnswer code p s) :=
  ⟨code, p, rfl, fun _ => rfl⟩

theorem admitFinal_answered (e : Entry) (campaign : Option CampaignIndex) (img : FinalImage) (s : State) :
    PostAnswered s (admitFinal e campaign img s) := by
  unfold admitFinal
  dsimp only
  split
  · exact postAnswered_refused s _ _
  · split
    · exact postAnswered_refused s _ _
    · split
      · exact postAnswered_refused s _ _
      · exact ⟨.ok, _, rfl, fun h => absurd rfl h⟩

theorem postChange_answered (id : TagId) (n : Nat) (img : List Byte) (s : State) : PostAnswered s (postChange id n img s) := by
  unfold postChange
  split
  · exact postAnswered_refused s _ _
  · split
    · exact postAnswered_refused s _ _
    · split
      · exact postAnswered_refused s _ _
      · split
        · exact postAnswered_refused s _ _
        · split
          · exact postAnswered_refused s _ _
          · exact admitFinal_answered _ _ _ s

theorem exec_postChange {s : State} (ready : Ready s) (num : Byte) (payload : List Byte) :
    exec (.postChange num payload) s = .next (answerWith 0x17 num (actPostChange payload s)) :=
  congrArg _ (request_ready ready 0x17 num payload (actPostChange payload))

/-- Settles O41: each test in its order, once those before it have passed. -/
theorem postChangeRefusedWhole : Obligations.PostChangeRefusedWhole := by
  refine ⟨fun num payload s ready ⟨pos, size⟩ => ?_, ?_⟩
  · have act : actPostChange payload s = postChange (BitVec.ofNat 32 (field 0 4 payload)) (field 4 1 payload) (payload.drop 8) s :=
      if_pos ⟨pos, size⟩
    have line := (actPostChange_base payload s).line
    obtain ⟨code, p, reply, refused⟩ := postChange_answered (BitVec.ofNat 32 (field 0 4 payload)) (field 4 1 payload)
      (payload.drop 8) s
    rw [← act] at reply refused
    rw [exec_postChange ready]
    generalize actPostChange payload s = a at *
    obtain ⟨_, t⟩ := a
    obtain rfl := reply
    refine ⟨t, code.byte, p.bytes, ?_, p.bytes_length, fun h => refused fun ok => h (by rw [ok]; rfl)⟩
    rw [← line]
    rfl
  intro num n x id img s ready short outcome refused
  have answer {code : ResultCode} {p : PostReply} (h : postChange id n.toNat img s = postAnswer code p s) :
      outcome = .next { s with line.outbound := s.line.outbound ++ [⟨0x97, num, code.byte,
        postReply p.serial p.blockCount p.superseded p.unitPrice p.projection p.subReason p.offset p.finalSize p.poolFree⟩] } := by
    change exec _ s = _
    rw [exec_postChange ready, actPostChange_payload id n x short, h, ← PostReply.bytes_eq]
    rfl
  unfold postChange at answer
  refine ⟨fun unknown => ?_, fun e he => ?_⟩
  · exact answer (code := .noSuchTag) (p := {}) (by rw [unknown])
  rw [he] at answer
  dsimp only at answer
  refine ⟨fun high => ?_, fun i hi closed => ?_, fun campaign hn opened => ?_⟩
  · exact answer (code := .noSuchCampaign) (p := {}) (by rw [campaignOfNumber_none high])
  · refine answer (code := .campaignState) (p := {}) ?_
    rw [campaignOfNumber_some (campaign := some i) hi]
    exact if_pos (decide_eq_true closed)
  have isOpen : ¬ (campaign.any fun i => decide ((s.campaigns.get i).state ≠ .opened)) = true := by
    cases campaign with
    | none => exact Bool.false_ne_true
    | some i => exact fun h => of_decide_eq_true h (opened i rfl)
  rw [campaignOfNumber_some hn] at answer
  dsimp only at answer
  rw [if_neg isOpen] at answer
  refine ⟨fun fault hf => ?_, fun final hf => ?_⟩
  · exact answer (code := .imageMalformed) (p := { subReason := fault.reason.code, offset := fault.offset }) (by rw [hf])
  rw [hf] at answer
  dsimp only at answer
  refine ⟨fun large => ?_, fun fits => ?_⟩
  · exact answer (code := .pageTooSmall) (p := { unitPrice := final.unitPrice, finalSize := final.bytes.length }) (if_pos large)
  rw [if_neg (by omega)] at answer
  unfold admitFinal at answer
  dsimp only at answer
  refine ⟨fun r hr other => ?_, fun r hr same busy => ?_, fun old hold supersedes => ?_⟩
  · refine answer (code := .conflict) (p := { unitPrice := final.unitPrice }) ?_
    rw [hr, liveChangeTest_conflict other]
  · refine answer (code := .tagBusy) (p := { unitPrice := final.unitPrice }) ?_
    rw [hr, liveChangeTest_busy same busy]
  rw [hold, liveChangeTest_free supersedes] at answer
  dsimp only at answer
  rw [blocksOfImage_length] at answer
  refine ⟨fun full => ?_, fun room short => ?_⟩
  · exact answer (code := .tableFull) (p := { unitPrice := final.unitPrice }) (if_pos (mt (tableHasRoom_iff s old).mp full))
  · refine answer (code := .poolFull) (p := { unitPrice := final.unitPrice, poolFree := s.pool.free }) ?_
    rw [if_neg (not_not.mpr ((tableHasRoom_iff s old).mpr room))]
    exact if_pos (mt (poolHasRoom_iff s old _).mp (by omega))

end Sys2Proof.Machine
end

section
/-! POST-CHANGE admitted (R64 to R72). -/

namespace Sys2Proof.Machine

/-! ### Passing records does not look at the serial and sequence counters. -/

/-- The part with its next serial and next sequence set. -/
def State.withCounters (n : Serial) (q : Sequence) (s : State) : State :=
  { s with table := { s.table with nextSerial := n, nextSequence := q } }

section counters

variable (n : Serial) (q : Sequence) (s : State)

theorem latchTrigger_withCounters : latchTrigger (s.withCounters n q) = (latchTrigger s).withCounters n q := by
  unfold latchTrigger
  by_cases h : s.handler.latch = .armed ∧ s.store.working.outcomeTrigger ≤ s.table.outcomes.length
  · exact (if_pos h).trans (by rw [if_pos h]; rfl)
  · exact (if_neg h).trans (by rw [if_neg h])

theorem tallyOutcome_withCounters (i : Option CampaignIndex) (code : OutcomeCode) :
    tallyOutcome i code (s.withCounters n q) = (tallyOutcome i code s).withCounters n q := by
  cases i with
  | none => rfl
  | some i =>
    unfold tallyOutcome doneCheck
    dsimp only
    rw [apply_ite (State.withCounters n q)]
    rfl

theorem passHead_withCounters : passHead (s.withCounters n q) = (passHead s).withCounters n q := by
  cases h : s.table.retire with
  | nil =>
    have h' : (s.withCounters n q).table.retire = [] := h
    unfold passHead
    rw [h, h']
  | cons k rest =>
    have h' : (s.withCounters n q).table.retire = k :: rest := h
    cases ho : (s.recordOf k).bind Change.outcomeRecord with
    | none =>
      have ho' : ((s.withCounters n q).recordOf k).bind Change.outcomeRecord = none := ho
      rw [passHead_none h ho, passHead_none h' ho']
      rfl
    | some o =>
      obtain ⟨r, hr, hro⟩ := Option.bind_eq_some_iff.mp ho
      have hr' : (s.withCounters n q).recordOf k = some r := hr
      rw [passHead_some h hr hro, passHead_some h' hr' hro, ← latchTrigger_withCounters, ← tallyOutcome_withCounters]
      rfl

theorem passRecords_withCounters (m : Nat) : passRecords m (s.withCounters n q) = (passRecords m s).withCounters n q := by
  induction m generalizing s with
  | zero => rfl
  | succ m ih =>
    unfold passRecords
    by_cases h : s.table.retire = [] ∨ 1024 ≤ s.table.outcomes.length
    · exact (if_pos h).trans (by rw [if_pos h])
    · refine (if_neg h).trans ?_
      rw [if_neg h, passHead_withCounters, ih]

theorem joinRetire_withCounters (k : Serial) : joinRetire k (s.withCounters n q) = (joinRetire k s).withCounters n q := by
  have h := passRecords_withCounters n q { s with table.retire := s.table.retire ++ [k] } (s.table.retire ++ [k]).length
  have passed : passAll { s.withCounters n q with table.retire := (s.withCounters n q).table.retire ++ [k] }
      = (passAll { s with table.retire := s.table.retire ++ [k] }).withCounters n q := h
  rw [joinRetire_eq, joinRetire_eq, passed]
  unfold noteBacklog
  by_cases waits : k ∈ (passAll { s with table.retire := s.table.retire ++ [k] }).table.retire
  · exact (if_pos waits).trans (by rw [if_pos waits]; rfl)
  · exact (if_neg waits).trans (by rw [if_neg waits])

end counters

/-! ### The admission -/

/-- What the superseding leaves before the record is appended. -/
def supersede (old : Option Change) (s : State) : State :=
  match old with
  | none => s
  | some r => finish r.serial .superseded true s

theorem beforeAppend_eq (new : Change) {old : Option Change} {s : State} (held : ∀ r, old = some r → s.recordOf r.serial = some r) :
    beforeAppend new old s = (supersede old s).withCounters (new.serial + 1) (s.table.nextSequence + 1) := by
  cases old with
  | none => rfl
  | some r =>
    have hr := held r rfl
    unfold beforeAppend supersede
    dsimp only
    have hr' : (s.withCounters (new.serial + 1) (s.table.nextSequence + 1)).recordOf r.serial = some r := hr
    have ended : endRecord r.serial .superseded r (s.withCounters (new.serial + 1) (s.table.nextSequence + 1))
        = (endRecord r.serial .superseded r s).withCounters (new.serial + 1) (s.table.nextSequence + 1) := by
      unfold endRecord
      cases r.campaign <;> rfl
    rw [finish_within _ hr, ← joinRetire_withCounters, ← ended]
    exact finish_within _ hr'

/-- What the superseding leaves as it was. -/
structure Superseded (old : Option Change) (s u : State) : Prop where
  base : SameBase s u
  dir : u.dir = s.dir
  planner : u.planner = s.planner
  pool : u.pool = (old.elim s.pool fun r => s.pool.release r.serial)

theorem supersede_superseded {old : Option Change} {s : State} (held : ∀ r, old = some r → s.recordOf r.serial = some r) :
    Superseded old s (supersede old s) := by
  cases old with
  | none => exact ⟨.rfl, rfl, rfl, rfl⟩
  | some r =>
    have hr := held r rfl
    unfold supersede
    dsimp only
    obtain ⟨-, dir, pool, planner⟩ := joinRetire_frame r.serial (endRecord r.serial .superseded r s)
    refine ⟨finish_base _ _ _ _, ?_, ?_, ?_⟩ <;> rw [finish_within _ hr]
    · rw [dir, endRecord_dir]
    · rw [planner, endRecord_planner]
    · rw [pool, endRecord_pool]
      rfl

/-- The part with a record appended, its handler as R60 leaves it. -/
def admitted (e : Entry) (new : Change) (blocks : List (List Byte)) (before : Nat) (v : State) : State :=
  { appendRecord e.addr new blocks v with
    handler := if (v.pool.take new.serial blocks).free < 1024 ∧ 1024 ≤ before then (raiseFlag .poolLow v).handler else v.handler }

theorem takeChange_admitted (e : Entry) (new : Change) (blocks : List (List Byte)) (old : Option Change) (s : State) :
    takeChange e new blocks old s = workNotice e.addr (admitted e new blocks s.pool.free (beforeAppend new old s)) := by
  unfold takeChange
  dsimp only
  change workNotice e.addr (updCampaign new.campaign _ (updEntry e.addr _ (poolLowTest s.pool.free
    { beforeAppend new old s with
      table.records := (beforeAppend new old s).table.records ++ [new]
      pool := (beforeAppend new old s).pool.take new.serial blocks }))) = _
  generalize beforeAppend new old s = u
  unfold poolLowTest admitted appendRecord
  congr 1
  by_cases low : (u.pool.take new.serial blocks).free < 1024 ∧ 1024 ≤ s.pool.free
  · rw [if_pos low, if_pos low]
    cases new.campaign <;> rfl
  · rw [if_neg low, if_neg low]
    cases new.campaign <;> rfl

/-! ### What the admission leaves -/

/-- The part `w` in which a record stands admitted, before the Call Planner is told; `u` is what the superseding left. -/
structure AdmittedAs (e : Entry) (new : Change) (blocks : List (List Byte)) (s u w : State) : Prop where
  table : w.table = { u.table with
    records := u.table.records ++ [new]
    nextSerial := new.serial + 1
    nextSequence := s.table.nextSequence + 1 }
  campaigns : w.campaigns = (match new.campaign with
    | none => u.campaigns
    | some i => u.campaigns.set i { u.campaigns.get i with
        admitted := (u.campaigns.get i).admitted + 1
        live := (u.campaigns.get i).live + 1 })
  pool : w.pool = u.pool.take new.serial blocks
  dir : w.dir = { u.dir with
    entries := u.dir.entries.map fun x => if x.addr = e.addr then { x with live := some new.serial } else x }
  planner : w.planner = u.planner
  base : SameBase u w
  handler : w.handler = if (u.pool.take new.serial blocks).free < 1024 ∧ 1024 ≤ s.pool.free then (raiseFlag .poolLow u).handler
    else u.handler

theorem admitted_as {e : Entry} {new : Change} {blocks : List (List Byte)} {s u : State} : AdmittedAs e new blocks s u
    (admitted e new blocks s.pool.free (u.withCounters (new.serial + 1) (s.table.nextSequence + 1))) := by
  have task : (raiseFlag .poolLow u).handler.task = u.handler.task := (raiseFlag_base .poolLow u).task
  unfold admitted appendRecord
  cases hc : new.campaign with
  | none =>
    refine ⟨rfl, by rw [hc]; rfl, rfl, rfl, rfl, ⟨rfl, rfl, rfl, rfl, rfl, ?_, rfl, rfl⟩, rfl⟩
    dsimp only
    split
    · exact task
    · rfl
  | some i =>
    refine ⟨rfl, by rw [hc]; rfl, rfl, rfl, rfl, ⟨rfl, rfl, rfl, rfl, rfl, ?_, rfl, rfl⟩, rfl⟩
    dsimp only
    split
    · exact task
    · rfl

/-- POOL_LOW is set where the free count falls through 1,024, and nothing else of the handler moves (R60). -/
theorem AdmittedAs.poolLow {e : Entry} {new : Change} {blocks : List (List Byte)} {s u w : State}
    (h : AdmittedAs e new blocks s u w) :
    (1024 ≤ s.pool.free ∧ w.pool.free < 1024 → Flag.poolLow.isIn w.handler.flags = true)
    ∧ (s.pool.free < 1024 ∨ 1024 ≤ w.pool.free → w.handler = u.handler) := by
  rw [h.handler, ← h.pool]
  refine ⟨fun low => ?_, fun high => if_neg (by omega)⟩
  rw [if_pos ⟨low.2, low.1⟩, isIn_raiseFlag]
  simp

theorem AdmittedAs.entryAt {e : Entry} {new : Change} {blocks : List (List Byte)} {s u w : State}
    (h : AdmittedAs e new blocks s u w) (held : u.entryAt e.addr = some e) :
    w.entryAt e.addr = some { e with live := some new.serial } := by
  rw [entryAt_map (s := u) (f := fun x => if x.addr = e.addr then { x with live := some new.serial } else x)
    (fun x => by split <;> rfl) (congrArg (·.entries) h.dir), held, Option.map_some, if_pos rfl]

theorem AdmittedAs.tags {e : Entry} {new : Change} {blocks : List (List Byte)} {s u w : State}
    (h : AdmittedAs e new blocks s u w) : SameTags u w := by
  refine ⟨by rw [h.dir], by rw [h.dir], ?_⟩
  rw [h.dir, List.map_map]
  refine List.map_congr_left fun x _ => ?_
  dsimp only [Function.comp]
  split <;> rfl

theorem placeCalendar_planner {s t : State} (h : t.planner = s.planner) (c : Cell) (x : CalendarEntry) :
    (placeCalendar c x t).planner = (placeCalendar c x s).planner := by
  unfold placeCalendar dropCalendar
  dsimp only
  rw [h]

/-- The tag of a record newly QUEUED is filed where it is PRESENT and has no calendar entry (Table 7-2). -/
theorem workNotice_newRecord {e : Entry} {new : Change} {s w : State} (planner : w.planner = s.planner)
    (held : w.entryAt e.addr = some { e with live := some new.serial }) (record : w.recordOf new.serial = some new)
    (queued : new.state = .queued) : (workNotice e.addr w).planner = match e.state, e.home, s.calendarOf e.addr with
      | .present, some h, none => (placeCalendar h ⟨e.addr, s.fileDue e h⟩ s).planner
      | _, _, _ => s.planner := by
  have work : w.hasWork { e with live := some new.serial } = true := by
    have live : w.liveRecord { e with live := some new.serial } = some new := record
    unfold State.hasWork
    rw [live]
    dsimp only
    rw [queued]
    rfl
  have calendar : w.calendarOf e.addr = s.calendarOf e.addr := by
    unfold State.calendarOf
    rw [planner]
  have due (h : Cell) : w.fileDue { e with live := some new.serial } h = s.fileDue e h := by
    unfold State.fileDue State.classDue
    rw [planner]
  cases hs : e.state with
  | unseen => rw [workNotice_absent held (by rw [hs]; decide), planner]
  | lost => rw [workNotice_absent held (by rw [hs]; decide), planner]
  | present =>
    cases hc : s.calendarOf e.addr with
    | some y =>
      rw [workNotice_filed held hs work (by rw [calendar, hc]; rfl), planner]
      cases e.home <;> rfl
    | none =>
      have unfiled : ¬ (w.calendarOf e.addr).isSome = true := by
        rw [calendar, hc]
        exact Bool.false_ne_true
      cases hh : e.home with
      | none => rw [workNotice_homeless held hs work unfiled hh, planner]
      | some h => rw [workNotice_files held hs work unfiled hh, due, placeCalendar_planner planner]

/-! ### The projection (R72) -/

theorem tierBlocks_eq (l : Option Byte) : tierBlocks l = blocksPerSlot l := by
  unfold tierBlocks blocksPerSlot linkTier
  cases l with
  | none => rfl
  | some l => dsimp only; split_ifs <;> rfl

theorem tierBlocks_pos (l : Option Byte) : 1 ≤ tierBlocks l := by
  rw [tierBlocks_eq]
  unfold blocksPerSlot
  cases l with
  | none => decide
  | some l => dsimp only; split_ifs <;> decide

theorem projectedCompletion_eq (b : Beacon) {n per : Nat} (blocks : 1 ≤ n) (pos : 1 ≤ per) (w : WakeClass) :
    projectedCompletion b n per w = b + BitVec.ofNat 24 (((n + per - 1) / per - 1) * 2 ^ w.val) := by
  have slots : 1 ≤ (n + per - 1) / per := (Nat.one_le_div_iff (by omega)).mpr (by omega)
  unfold projectedCompletion interval
  rw [← Int.ofNat_one, ← Int.ofNat_sub slots]
  norm_cast

/-- The projection of the reply is that of R72. -/
theorem projection_eq (s : State) (e : Entry) {n : Nat} (blocks : 1 ≤ n) (campaign : Option CampaignIndex) :
    projection s e n campaign = match e.state, e.home with
      | .present, some h =>
        let done := nextWake e.believed e.tagId (s.planner.last.get h)
          + BitVec.ofNat 24 (((n + blocksPerSlot e.link - 1) / blocksPerSlot e.link - 1) * 2 ^ e.believed.val)
        some (done, campaign.any fun i => (s.campaigns.get i).activation.any fun a =>
          decide ((a.beacon - BitVec.ofNat 24 s.store.working.guardBeacons - done).toInt < 0))
      | _, _ => none := by
  have risk (done : Beacon) : (match campaign.bind s.activationBeacon with
      | some act => decide (beaconDiff (act - BitVec.ofNat 24 s.store.working.guardBeacons) done < 0)
      | none => false) = campaign.any fun i => (s.campaigns.get i).activation.any fun a =>
        decide ((a.beacon - BitVec.ofNat 24 s.store.working.guardBeacons - done).toInt < 0) := by
    cases campaign with
    | none => rfl
    | some i =>
      rw [Option.bind_some, Option.any_some]
      unfold State.activationBeacon
      cases (s.campaigns.get i).activation <;> rfl
  unfold projection
  cases e.state with
  | unseen => rfl
  | lost => rfl
  | present =>
    cases e.home with
    | none => rfl
    | some h =>
      dsimp only
      rw [projectedCompletion_eq _ blocks (tierBlocks_pos e.link), tierBlocks_eq]
      exact congrArg (fun r => some (_, r)) (risk _)

/-! ### The posted image -/

/-- A posted image that is not refused has 10..1,024 bytes (R44). -/
theorem imageResult_size {img : List Byte} {final : FinalImage} (h : imageResult img = .ok final) :
    10 ≤ img.length ∧ img.length ≤ 1024 := by
  unfold imageResult checkImage at h
  by_cases faulty : headerFaulty img = true
  · rw [if_pos faulty] at h
    cases h
  · simp only [headerFaulty, Bool.or_eq_true, decide_eq_true_eq, not_or] at faulty
    omega

theorem imageResult_filled {img : List Byte} {final : FinalImage} (h : imageResult img = .ok final) :
    1 ≤ final.bytes.length := by
  have size := imageResult_size h
  unfold imageResult at h
  split at h
  · cases h
  · cases h
    unfold finalOf
    split
    · simp [unitPriceField]
    · exact (by omega : 1 ≤ img.length)

/-- A record that has finished stays so while a record is appended. -/
theorem FinishedAs.append {s t : State} {o : OutcomeRecord} {records : List Change} (h : FinishedAs s o)
    (outcomes : t.table.outcomes = s.table.outcomes) (retire : t.table.retire = s.table.retire)
    (appended : t.table.records = s.table.records ++ records) : FinishedAs t o := by
  unfold FinishedAs at *
  rw [outcomes, retire, appended]
  exact h.imp_right fun ⟨waits, q, hq, rest⟩ => ⟨waits, q, List.mem_append_left _ hq, rest⟩

theorem serialTaken_iff (s : State) (e : Entry) (k : Serial) : serialTaken s e k = true ↔ k = 0
    ∨ (∃ r ∈ s.table.records, r.serial = k) ∨ e.shown = some k ∨ e.staged.map (·.serial) = some k := by
  simp [serialTaken, or_assoc]

theorem postPayload_eq (id : TagId) (campaign : Option CampaignIndex) (x : Byte) (img : List Byte) :
    le 4 id.toNat ++ le 1 (campaignNumber campaign) ++ [x] ++ le 2 img.length ++ img
      = le 4 id.toNat ++ [BitVec.ofNat 8 (campaignNumber campaign), x] ++ le 2 img.length ++ img := by
  simp only [List.append_assoc]
  rfl

/-- The seven tests pass (R66). -/
theorem postChange_admits {id : TagId} {number : Nat} {campaign : Option CampaignIndex} {img : List Byte} {final : FinalImage}
    {e : Entry} {old : Option Change} {s : State} (he : s.entryOf id = some e) (hold : s.liveRecord e = old)
    (supersedes : ∀ r, old = some r → r.campaign = campaign ∧ (r.state = .queued ∨ r.state = .sending ∨ r.state = .staged))
    (opened : ∀ i, campaign = some i → (s.campaigns.get i).state = .opened) (hf : imageResult img = .ok final)
    (fits : final.bytes.length ≤ pageCapacity e.pageClass) (room : tableHasRoom s old = true)
    (space : poolHasRoom s old (blocksOfImage final.bytes).length = true) (hn : campaignOfNumber number = some campaign) :
    postChange id number img s = postAnswer .ok {
      unitPrice := final.unitPrice
      serial := (newChange s e campaign (blocksOfImage final.bytes) old).serial
      blockCount := (blocksOfImage final.bytes).length
      superseded := (old.map (·.serial)).getD 0
      projection := projection s e (blocksOfImage final.bytes).length campaign }
      (takeChange e (newChange s e campaign (blocksOfImage final.bytes) old) (blocksOfImage final.bytes) old s) := by
  have isOpen : ¬ (campaign.any fun i => decide ((s.campaigns.get i).state ≠ .opened)) = true := by
    cases campaign with
    | none => exact Bool.false_ne_true
    | some i => exact fun h => of_decide_eq_true h (opened i rfl)
  unfold postChange
  rw [he]
  dsimp only
  rw [hn]
  dsimp only
  rw [if_neg isOpen, hf]
  dsimp only
  rw [if_neg (by omega)]
  unfold admitFinal
  dsimp only
  rw [hold, liveChangeTest_free supersedes]
  dsimp only
  rw [if_neg (not_not.mpr room), if_neg (not_not.mpr space)]

/-- Settles O40: the tests pass, and the record is admitted after what it supersedes has finished. -/
theorem postChangeAdmits : Obligations.PostChangeAdmits := by
  intro num x id campaign img final e old s ready law he held hold supersedes opened hf fits room space n passed
  obtain ⟨mem, tag⟩ := entryOf_mem he
  have size := imageResult_size hf
  have filled := imageResult_filled hf
  set blocks := blocksOfImage final.bytes with hblocks
  have count : blocks.length = n := blocksOfImage_length final.bytes
  set new := newChange s e campaign blocks old with hnew
  have records (r : Change) (hr : old = some r) : s.recordOf r.serial = some r := (liveRecord_eq_some (hold.trans hr)).2
  have hroom : tableHasRoom s old = true := (tableHasRoom_iff s old).mpr room
  have hspace : poolHasRoom s old blocks.length = true := (poolHasRoom_iff s old _).mpr (by rw [count]; exact space)
  have superseded := supersede_superseded records
  have admitted : AdmittedAs e new blocks s (supersede old s) _ := admitted_as
  have taken := takeChange_admitted e new blocks old s
  rw [beforeAppend_eq new records] at taken
  have law' : TableLaw (takeChange e new blocks old s) :=
    (admit_run ⟨mem, hold, supersedes, opened, few_blocks fits, hroom, hspace⟩).keeps (fun _ _ act => act.tableLaw law) law
  generalize Sys2Proof.Machine.admitted e new blocks s.pool.free
    ((supersede old s).withCounters (new.serial + 1) (s.table.nextSequence + 1)) = w at admitted taken
  obtain ⟨cal, told⟩ := workNotice_planner e.addr w
  obtain ⟨d, hd, first, free⟩ := findSerial_free e law.1 s.table.nextSerial
  have number : (BitVec.ofNat 8 (campaignNumber campaign)).toNat = (campaign.map (·.val + 1)).getD 0 := by
    have below : campaignNumber campaign < 256 := by
      unfold campaignNumber
      cases campaign with
      | none => decide
      | some i => have := i.isLt; simp; omega
    rw [BitVec.toNat_ofNat, Nat.mod_eq_of_lt below]
    rfl
  have answer := postChange_admits he hold supersedes opened hf fits hroom hspace (campaignOfNumber_some number)
  have base := takeChange_base e new blocks old s
  have table : (takeChange e new blocks old s).table = w.table := by rw [taken, told]
  have pool : (takeChange e new blocks old s).pool = w.pool := by rw [taken, told]
  have handler : (takeChange e new blocks old s).handler = w.handler := by rw [taken, told]
  have record : w.recordOf new.serial = some new := by
    rw [← recordOf_congr (congrArg (·.records) table)]
    exact law'.recordOf (by rw [table, admitted.table]; exact List.mem_append_right _ List.mem_cons_self)
  have entry := admitted.entryAt (by unfold State.entryAt; rw [superseded.dir]; exact held)
  have tags : SameTags (supersede old s) (takeChange e new blocks old s) := by
    rw [taken]
    exact admitted.tags.trans (workNotice_tags _ _)
  refine ⟨takeChange e new blocks old s, new.serial,
    postReply new.serial n ((old.map (·.serial)).getD 0) final.unitPrice (projection s e n campaign) 0 0 0 0,
    ?exec, base, ⟨?grants, ?strangers, ?entries⟩, ?data, ?fresh, ⟨d, hd, ?first⟩,
    fun r hr => ?finished, ⟨supersede old s, by cases old <;> rfl, ?table, ?campaigns, ?pool, ?low, ?high⟩, ?live, ?planner⟩
  case exec =>
    rw [postPayload_eq, exec_postChange ready, actPostChange_payload _ _ _ (by omega), answer, ← base.line, ← count]
    exact congrArg (fun data => (.next { takeChange e new blocks old s with
      line.outbound := (takeChange e new blocks old s).line.outbound ++ [⟨0x97, num, 0x00, data⟩] } : Out)) (PostReply.bytes_eq _)
  case data =>
    have projected := projection_eq s e (n := n) (by omega) campaign
    generalize projection s e n campaign = p at projected ⊢
    subst projected
    congr 1
  case grants => rw [tags.grants, superseded.dir]
  case strangers => rw [tags.strangers, superseded.dir]
  case entries => rw [tags.entries, superseded.dir]
  case fresh => exact fun taken => Bool.false_ne_true (free.symm.trans ((serialTaken_iff s e _).mpr taken))
  case first => exact fun j hj => (serialTaken_iff s e _).mp (first j hj)
  case finished =>
    have ends := finish_recordEnds law (records r hr) .superseded true
    have finished := ends.finishedAs (by rw [records r hr]; rfl)
    rw [hr] at admitted
    exact finished.append (by rw [table, admitted.table]; rfl) (by rw [table, admitted.table]; rfl)
      (by rw [table, admitted.table]; rfl)
  case table =>
    rw [table, admitted.table]
    refine congrArg (fun r : Change => ({ (supersede old s).table with
      records := (supersede old s).table.records ++ [r]
      nextSerial := new.serial + 1
      nextSequence := s.table.nextSequence + 1 } : ChangeTable)) ?_
    rw [← count]
    cases old <;> rfl
  case campaigns => rw [taken, told]; exact admitted.campaigns
  case pool =>
    rw [pool, admitted.pool, superseded.pool, ← count]
    cases old with
    | none =>
      have all : (s.pool.held.filter fun _ => true) = s.pool.held := List.filter_true _
      exact congrArg (fun held : List PoolEntry => (⟨s.pool.free - blocks.length, held ++ [⟨new.serial, blocks⟩]⟩ : Pool)) all.symm
    | some r =>
      refine congrArg (fun held : List PoolEntry =>
        (⟨s.pool.free + s.pool.heldBy r.serial - blocks.length, held ++ [⟨new.serial, blocks⟩]⟩ : Pool)) ?_
      refine List.filter_congr fun h _ => ?_
      simp [eq_comm]
  case low =>
    rw [handler, pool]
    exact admitted.poolLow.1
  case high =>
    rw [handler, pool]
    exact admitted.poolLow.2
  case live =>
    have told : (takeChange e new blocks old s).entryAt e.addr = w.entryAt e.addr := by
      rw [taken, told]
      rfl
    rw [told, entry]
    rfl
  case planner => 
    rw [taken]
    exact workNotice_newRecord (admitted.planner.trans superseded.planner) entry record rfl

end Sys2Proof.Machine
end

section
/-! The Image Checker (R44 to R52). -/

namespace Sys2Proof.Machine

/-! ### The tests of one field (R47) -/

/-- A field offset as the walk notes it. -/
def visit (img : List Byte) (f : Nat) : VisitedField := ⟨f, fieldType img f⟩

/-- The first of some tests that fails. -/
def firstOf (tests : List (SubReason × Bool)) : Option SubReason := (tests.find? (·.2)).map (·.1)

theorem firstOf_cons (r : SubReason) (b : Bool) (tests : List (SubReason × Bool)) :
    firstOf ((r, b) :: tests) = if b = true then some r else firstOf tests := by
  cases b <;> rfl

/-- The data lengths of Table 3-1. -/
theorem lengthFits_iff {type : Nat} (known : ¬ (type = 0 ∨ 8 < type)) (posted : type ≠ 4) (len : Nat) :
    lengthFits type len = true ↔ (if type = 1 ∨ type = 2 then len = 6 else if type = 3 then len = 7
      else if type = 5 then 1 ≤ len ∧ len ≤ 64 else if type = 6 then 1 ≤ len ∧ len ≤ 20 else len = 1) := by
  have low : type ≤ 8 := by omega
  interval_cases type <;> simp_all [lengthFits]

/-- The data ranges of test 8. -/
theorem dataInRange_iff {type : Nat} (known : ¬ (type = 0 ∨ 8 < type)) (img : List Byte) (f : Nat) :
    dataInRange img type f = true ↔ (if type = 1 ∨ type = 2 then field (f + 6) 4 img ≤ 9999999 ∧ field (f + 10) 1 img ≤ 3
      else if type = 3 then 1 ≤ field (f + 6) 4 img ∧ field (f + 6) 4 img ≤ 999999 ∧ 1 ≤ field (f + 10) 1 img
        ∧ field (f + 10) 1 img ≤ 4 ∧ 1 ≤ field (f + 11) 2 img ∧ field (f + 11) 2 img ≤ 1000
      else if type = 7 then field (f + 6) 1 img ≤ 15 else if type = 8 then field (f + 6) 1 img ≤ 7 else True) := by
  have low : type ≤ 8 := by omega
  interval_cases type <;> simp_all [dataInRange, and_assoc]

theorem countP_visit (img : List Byte) (before : List Nat) (type : Nat) :
    (before.map (visit img)).countP (fun v => decide (v.type = type))
      = before.countP fun g => decide (fieldType img g = type) := by
  rw [List.countP_map]
  rfl

/-- The tests of a field, in their order. -/
theorem fieldFault_eq (img : List Byte) (before : List Nat) (f : Nat) :
    fieldFault img (before.map (visit img)) f = firstFailing img before f := by
  have tests : firstFailing img before f = firstOf (fieldTests img before f) := rfl
  rw [tests]
  unfold fieldTests fieldFault fieldType nextField
  simp only [firstOf_cons, countP_visit, List.length_map, decide_eq_true_eq, typeLimit]
  by_cases h1 : img.length < f + 6
  · rw [if_pos h1, if_pos h1]
  rw [if_neg h1, if_neg h1]
  by_cases h2 : 16 ≤ before.length
  · rw [if_pos h2, if_pos h2]
  rw [if_neg h2, if_neg h2]
  by_cases h3 : field f 1 img = 4
  · rw [if_pos h3, if_pos h3]
  rw [if_neg h3, if_neg h3]
  by_cases h4 : field f 1 img = 0 ∨ 8 < field f 1 img
  · rw [if_pos h4, if_pos h4]
  rw [if_neg h4, if_neg h4]
  simp only [lengthFits_iff h4 h3, dataInRange_iff h4]
  rfl

/-! ### The walk (R45) -/

theorem firstFailing_many {img : List Byte} {before : List Nat} (many : 16 ≤ before.length) (f : Nat) :
    (firstFailing img before f).isSome = true := by
  rw [← fieldFault_eq]
  unfold fieldFault
  by_cases short : img.length < f + 6
  · rw [if_pos short]
    rfl
  · rw [if_neg short, List.length_map, if_pos many]
    rfl

theorem Walk.length_le {img : List Byte} {before : List Nat} {f : Nat} (walk : Walk img before f) : before.length ≤ 16 := by
  cases walk with
  | start => exact Nat.zero_le _
  | @next before f _ passes _ =>
    rw [List.length_append, List.length_singleton]
    by_contra long
    have many := firstFailing_many (img := img) (before := before) (by omega) f
    rw [passes] at many
    cases many

/-- The walk comes to a field that fails a test, or ends. -/
theorem walk_ends (img : List Byte) : ∃ before f, Walk img before f
    ∧ ((firstFailing img before f).isSome = true ∨ nextField img f = 0) := by
  by_contra endless
  push Not at endless
  have longer (n : Nat) : ∃ before f, Walk img before f ∧ before.length = n := by
    induction n with
    | zero => exact ⟨[], 4, .start, rfl⟩
    | succ n ih =>
      obtain ⟨before, f, walk, rfl⟩ := ih
      obtain ⟨passes, goes⟩ := endless before f walk
      exact ⟨_, _, walk.next (Option.not_isSome_iff_eq_none.mp passes) goes, by simp⟩
  obtain ⟨before, f, walk, long⟩ := longer 17
  have := walk.length_le
  omega

/-- The walk of the model has visited the fields passed, and is at the field that the walk has come to. -/
theorem walkFields_eq {img : List Byte} {before : List Nat} {f : Nat} (walk : Walk img before f) :
    walkFields img 17 [] 4 = walkFields img (17 - before.length) (before.map (visit img)) f := by
  induction walk with
  | start => rfl
  | @next before f walk passes goes ih =>
    have room : before.length ≤ 15 := by
      have := (walk.next passes goes).length_le
      rw [List.length_append, List.length_singleton] at this
      omega
    have left : 17 - before.length = (16 - before.length) + 1 := by omega
    rw [ih, left, walkFields, fieldFault_eq, passes]
    dsimp only
    refine (if_neg goes).trans ?_
    rw [List.length_append, List.length_singleton, List.map_append, show 17 - (before.length + 1) = 16 - before.length by omega]
    rfl

theorem walkFields_fails {img : List Byte} {before : List Nat} {f : Nat} (walk : Walk img before f) {reason : SubReason}
    (fails : firstFailing img before f = some reason) : walkFields img 17 [] 4 = .error ⟨reason, f⟩ := by
  have := walk.length_le
  rw [walkFields_eq walk, show 17 - before.length = (16 - before.length) + 1 by omega, walkFields, fieldFault_eq, fails]

theorem walkFields_ends {img : List Byte} {before : List Nat} {f : Nat} (walk : Walk img before f)
    (passes : firstFailing img before f = none) (last : nextField img f = 0) :
    walkFields img 17 [] 4 = .ok ((before ++ [f]).map (visit img)) := by
  have := walk.length_le
  rw [walkFields_eq walk, show 17 - before.length = (16 - before.length) + 1 by omega, walkFields, fieldFault_eq, passes]
  refine (if_pos last).trans ?_
  rw [List.map_append]
  rfl

/-- No type but 5 is passed twice (R47, test 6). -/
theorem passes_new {img : List Byte} {before : List Nat} {f : Nat} (passes : firstFailing img before f = none)
    (single : fieldType img f ≠ 5) : (before.countP fun g => decide (fieldType img g = fieldType img f)) = 0 := by
  have all := List.find?_eq_none.mp (Option.map_eq_none_iff.mp passes)
  have duplicate := all (.duplicate, decide ((if fieldType img f = 5 then 4 else 1)
    ≤ before.countP fun g => decide (fieldType img g = fieldType img f))) (by simp [fieldTests])
  rw [if_neg single, decide_eq_true_iff] at duplicate
  omega

theorem Walk.once {img : List Byte} {before : List Nat} {f : Nat} (walk : Walk img before f) {type : Nat} (single : type ≠ 5) :
    (before.countP fun g => decide (fieldType img g = type)) ≤ 1 := by
  induction walk with
  | start => exact Nat.zero_le _
  | @next before f _ passes _ ih =>
    rw [List.countP_append, List.countP_singleton]
    by_cases here : fieldType img f = type
    · subst here
      rw [passes_new passes single]
      simp
    · simpa [here] using ih

/-- The visited fields of an ended walk hold each type but 5 at most once. -/
theorem visited_once {img : List Byte} {before : List Nat} {f : Nat} (walk : Walk img before f)
    (passes : firstFailing img before f = none) {type : Nat} (single : type ≠ 5) :
    ((before ++ [f]).countP fun g => decide (fieldType img g = type)) ≤ 1 := by
  rw [List.countP_append, List.countP_singleton]
  by_cases here : fieldType img f = type
  · subst here
    rw [passes_new passes single]
    simp
  · simpa [here] using walk.once single

/-! ### The whole image (R48) -/

theorem findField_visit (img : List Byte) (type : Nat) (visited : List Nat) :
    findField type (visited.map (visit img)) = visited.find? fun g => decide (fieldType img g = type) := by
  unfold findField
  rw [List.find?_map, Option.map_map]
  exact Option.map_id' ..

theorem findField_none {img : List Byte} {type : Nat} {visited : List Nat} (h : ∀ p ∈ visited, fieldType img p ≠ type) :
    findField type (visited.map (visit img)) = none := by
  rw [findField_visit, List.find?_eq_none]
  exact fun p hp same => h p hp (of_decide_eq_true same)

theorem findField_some {img : List Byte} {type : Nat} {visited : List Nat}
    (once : (visited.countP fun g => decide (fieldType img g = type)) ≤ 1) {p : Nat} (hp : p ∈ visited)
    (same : fieldType img p = type) : findField type (visited.map (visit img)) = some p := by
  rw [findField_visit, ← List.head?_filter]
  rw [List.countP_eq_length_filter] at once
  have mem : p ∈ visited.filter fun g => decide (fieldType img g = type) := List.mem_filter.mpr ⟨hp, decide_eq_true same⟩
  generalize visited.filter (fun g => decide (fieldType img g = type)) = l at once mem
  match l, once, mem with
  | [x], _, mem => rw [List.mem_singleton.mp mem]; rfl

theorem oldHigher_iff (img : List Byte) (o p : Nat) : oldHigher img o p = true ↔ priceRaised img o p := by
  simp [oldHigher, priceRaised, and_assoc]

theorem headerFaulty_iff (img : List Byte) : headerFaulty img = true ↔ badHeader img := by
  simp [headerFaulty, badHeader, or_assoc]

/-! ### The result (R49 to R51) -/

theorem imageResult_header {img : List Byte} (h : badHeader img) : imageResult img = .error ⟨.badHeader, 0⟩ := by
  unfold imageResult checkImage
  rw [if_pos ((headerFaulty_iff img).mpr h)]

theorem imageResult_field {img : List Byte} (ok : ¬ badHeader img) {before : List Nat} {f : Nat} (walk : Walk img before f)
    {reason : SubReason} (fails : firstFailing img before f = some reason) : imageResult img = .error ⟨reason, f⟩ := by
  unfold imageResult checkImage
  rw [if_neg (mt (headerFaulty_iff img).mp ok), walkFields_fails walk fails]

theorem imageResult_whole {img : List Byte} (ok : ¬ badHeader img) {before : List Nat} {f : Nat} (walk : Walk img before f)
    (passes : firstFailing img before f = none) (last : nextField img f = 0) :
    imageResult img = match wholeFault img ((before ++ [f]).map (visit img)) with
      | some e => .error e
      | none => .ok (finalOf img ((before ++ [f]).map (visit img))) := by
  unfold imageResult checkImage
  rw [if_neg (mt (headerFaulty_iff img).mp ok), walkFields_ends walk passes last]
  dsimp only
  cases wholeFault img ((before ++ [f]).map (visit img)) <;> rfl

/-- The final image of an image with a UNIT_BASIS (R51). -/
theorem finalOf_unit {img : List Byte} {before : List Nat} {f p u : Nat}
    (price : findField 1 ((before ++ [f]).map (visit img)) = some p) (unit : findField 3 ((before ++ [f]).map (visit img)) = some u) :
    finalOf img ((before ++ [f]).map (visit img))
      = ⟨overwrite (f + 4) (le 2 img.length) img ++ unitPriceField (unitPriceOf img p u), some (unitPriceOf img p u)⟩ := by
  have last : ((before ++ [f]).map (visit img)).getLast? = some (visit img f) := by
    rw [List.map_append]
    exact List.getLast?_concat
  unfold finalOf
  rw [price, unit, last]
  rfl

theorem overwrite_eq (f n : Nat) (img : List Byte) :
    overwrite (f + 4) (le 2 n) img = img.take (f + 4) ++ le 2 n ++ img.drop (f + 6) := by
  unfold overwrite
  rw [le_length]

theorem unitPriceField_eq (img : List Byte) (p u : Nat) :
    unitPriceField (unitPriceOf img p u) = 0x04 :: 0 :: le 2 8 ++ le 2 0 ++ le 4 (unitPriceOf img p u).amount
      ++ le 1 (unitPriceOf img p u).unit ++ le 2 (unitPriceOf img p u).basis
      ++ [if 9999999 < unitPriceExact (field (p + 6) 4 img) (field (u + 6) 4 img) (field (u + 11) 2 img) then 1 else 0] := by
  have clamped (n : Nat) : boolByte (decide (9999999 < n)) = if 9999999 < n then 1 else 0 := by
    unfold boolByte
    simp only [decide_eq_true_eq]
  rw [← clamped]
  rfl

/-- Settles O38: a field that fails, or the ended walk with the tests on the whole image. -/
theorem imageCheckerRule : Obligations.ImageCheckerRule := by
  refine ⟨rfl, rfl, fun img => ⟨imageResult_header, walk_ends img, fun ok before f walk =>
    ⟨fun reason fails => imageResult_field ok walk fails, fun passes last => ?_⟩⟩⟩
  intro visited
  have once {type : Nat} (single : type ≠ 5) := visited_once walk passes single
  have whole := imageResult_whole ok walk passes last
  unfold wholeFault at whole
  refine ⟨fun none => ?_, fun p hp price => ?_⟩
  · rw [findField_none none] at whole
    exact whole
  rw [findField_some (once (by decide)) hp price] at whole
  dsimp only at whole
  refine ⟨fun o ho old lower => ?_, fun raised => ?_⟩
  · rw [findField_some (once (by decide)) ho old, Option.filter_some, if_pos (by rw [← oldHigher_iff] at lower; simpa using lower)] at whole
    exact whole
  have old : (findField 2 (visited.map (visit img))).filter (fun o => !oldHigher img o p) = none := by
    rw [Option.filter_eq_none_iff]
    intro o ho
    rw [findField_visit] at ho
    have higher := raised o (List.mem_of_find?_eq_some ho) (by simpa using List.find?_some ho)
    simpa [oldHigher_iff] using higher
  rw [old] at whole
  dsimp only at whole
  refine ⟨fun none => ?_, fun u hu unit => ?_⟩
  · have missing := findField_none (img := img) none
    rw [missing] at whole
    dsimp only at whole
    rw [whole]
    unfold finalOf
    rw [missing, findField_some (once (by decide)) hp price]
  have found := findField_some (once (by decide)) hu unit
  rw [found] at whole
  dsimp only at whole
  rw [List.length_map] at whole
  refine ⟨fun many => ?_, fun few => ?_⟩
  · rw [if_pos many] at whole
    exact whole
  · rw [if_neg (Nat.not_le.mpr few)] at whole
    dsimp only at whole
    rw [finalOf_unit (findField_some (once (by decide)) hp price) found, overwrite_eq, unitPriceField_eq] at whole
    exact whole

end Sys2Proof.Machine
end

section
/-! CONFIG-SET (R16, R176, R177): whole or not at all. -/

namespace Sys2Proof.Machine

/-! ### The items of a request -/

/-- The items of a request as the model parses them. -/
def spelled (items : List (Byte × BitVec 32)) : List (Nat × List Byte) := items.map fun i => (i.1.toNat, le 4 i.2.toNat)

theorem parseItems_spelled (items : List (Byte × BitVec 32)) :
    parseItems items.length (items.flatMap fun i => i.1 :: le 4 i.2.toNat) = spelled items := by
  induction items with
  | nil => rfl
  | cons i items ih =>
    have value : ((i.1 :: (le 4 i.2.toNat ++ items.flatMap fun i => i.1 :: le 4 i.2.toNat)).drop 1).take 4 = le 4 i.2.toNat := by
      rw [List.drop_one, List.tail_cons, List.take_append_of_le_length (by simp)]
      exact List.take_of_length_le (by simp)
    have rest : (i.1 :: (le 4 i.2.toNat ++ items.flatMap fun i => i.1 :: le 4 i.2.toNat)).drop 5
        = items.flatMap fun i => i.1 :: le 4 i.2.toNat := by
      rw [List.drop_succ_cons, List.drop_append_of_le_length (by simp), List.drop_of_length_le (by simp)]
      rfl
    rw [List.flatMap_cons, List.length_cons, parseItems, List.cons_append, value, rest, ih, field_head]
    rfl

/-- The value that a request gives for an item. -/
def givenFor (items : List (Byte × BitVec 32)) (n : Nat) : Option Nat :=
  (items.find? fun i => decide (i.1.toNat = n)).map (·.2.toNat)

theorem givenFor_cons (i : Byte × BitVec 32) (items : List (Byte × BitVec 32)) :
    givenFor (i :: items) = Function.update (givenFor items) i.1.toNat (some i.2.toNat) := by
  funext n
  unfold givenFor
  by_cases here : i.1.toNat = n
  · subst here
    rw [Function.update_self, List.find?_cons_of_pos (by simp)]
    rfl
  · rw [Function.update_of_ne (Ne.symm here), List.find?_cons_of_neg (by simpa using here)]

theorem givenFor_none {items : List (Byte × BitVec 32)} {n : Nat} (h : ∀ i ∈ items, i.1.toNat ≠ n) : givenFor items n = none := by
  unfold givenFor
  rw [Option.map_eq_none_iff, List.find?_eq_none]
  exact fun i hi same => h i hi (of_decide_eq_true same)

theorem givenFor_some {items : List (Byte × BitVec 32)} (distinct : (items.map (·.1)).Nodup) {i : Byte × BitVec 32}
    (hi : i ∈ items) : givenFor items i.1.toNat = some i.2.toNat := by
  obtain ⟨x, found⟩ := Option.isSome_iff_exists.mp
    (List.find?_isSome (p := fun j : Byte × BitVec 32 => decide (j.1.toNat = i.1.toNat)) |>.mpr ⟨i, hi, decide_eq_true rfl⟩)
  have key := List.find?_some found
  have same : x = i := List.inj_on_of_nodup_map distinct (List.mem_of_find?_eq_some found) hi
    (BitVec.eq_of_toNat_eq (of_decide_eq_true key))
  unfold givenFor
  rw [found, same]
  rfl

/-! ### The settings as they would stand -/

/-- A cell setting as a given value spells it. -/
def cellGiven (o : Option Nat) (held : CellSetting) : CellSetting :=
  match o with
  | none => held
  | some v => ⟨decide (v % 256 = 1), v / 256 % 256, v / 65536⟩

/-- A given value clamped. -/
def clampGiven (o : Option Nat) (lo hi held : Nat) : Nat :=
  match o with
  | none => held
  | some v => max lo (min v hi)

/-- The settings with every item given, before C_D is held to C_N. -/
def withGiven (w : Settings) (g : Nat → Option Nat) : Settings :=
  { w with
    siteCode := BitVec.ofNat 16 ((g 1).getD w.siteCode.toNat)
    period := (g 2).getD w.period
    cells := ⟨cellGiven (g 3) w.cells.c0, cellGiven (g 4) w.cells.c1, cellGiven (g 5) w.cells.c2, cellGiven (g 6) w.cells.c3⟩
    capacityNight := clampGiven (g 7) 1 12 w.capacityNight
    capacityDay := (g 8).getD w.capacityDay
    callCost := clampGiven (g 9) 0 255 w.callCost
    blockCost := clampGiven (g 10) 0 255 w.blockCost
    reportCost := clampGiven (g 11) 0 255 w.reportCost
    boostWakeCost := clampGiven (g 12) 0 255 w.boostWakeCost
    defaultAllowance := (g 13).getD w.defaultAllowance
    missLimit := clampGiven (g 14) 1 15 w.missLimit
    guardBeacons := clampGiven (g 15) 0 64 w.guardBeacons
    span := clampGiven (g 16) 8 128 w.span
    refreshTime := (g 17).getD w.refreshTime }

theorem leNat_le_four (v : BitVec 32) : leNat (le 4 v.toNat) = v.toNat := leNat_le_toNat 4 v (by norm_num)

/-- The fields of a cell item's value. -/
theorem cellFields (v : BitVec 32) : field 0 1 (le 4 v.toNat) = v.toNat % 256
    ∧ field 1 1 (le 4 v.toNat) = v.toNat / 256 % 256 ∧ field 2 2 (le 4 v.toNat) = v.toNat / 65536 := by
  have range := v.isLt
  refine ⟨?_, ?_, ?_⟩ <;> (simp [field, le, leNat]; try omega)

theorem cellOfValue_le (v : BitVec 32) :
    cellOfValue (le 4 v.toNat) = ⟨decide (v.toNat % 256 = 1), v.toNat / 256 % 256, v.toNat / 65536⟩ := by
  obtain ⟨enable, group, offset⟩ := cellFields v
  rw [cellOfValue, enable, group, offset]

/-- One item more, of a number not given otherwise. -/
theorem withGiven_withItem (w : Settings) {g : Nat → Option Nat} {n : Nat} (range : 1 ≤ n ∧ n ≤ 17) (new : g n = none)
    (v : BitVec 32) : withGiven (w.withItem n (le 4 v.toNat)) g = withGiven w (Function.update g n (some v.toNat)) := by
  obtain ⟨pos, low⟩ := range
  have site : BitVec.ofNat 16 (v.toNat % 65536) = v.setWidth 16 := BitVec.eq_of_toNat_eq (by simp)
  interval_cases n <;>
    simp [withGiven, site, Settings.withItem, Function.update, new, leNat_le_four, cellOfValue_le, clamp, cellGiven, clampGiven]

theorem withGiven_nothing (w : Settings) : withGiven w (givenFor []) = w := by
  have site : BitVec.ofNat 16 w.siteCode.toNat = w.siteCode := ofNat_toNat_self w.siteCode
  have day : (givenFor [] 1).getD w.siteCode.toNat = w.siteCode.toNat := rfl
  unfold withGiven
  rw [day, site]
  rfl

/-- The items taken one by one are the items taken by their numbers. -/
theorem foldl_withItem {items : List (Byte × BitVec 32)} (range : ∀ i ∈ items, 1 ≤ i.1.toNat ∧ i.1.toNat ≤ 17)
    (distinct : (items.map (·.1)).Nodup) (w : Settings) :
    (spelled items).foldl (fun w i => w.withItem i.1 i.2) w = withGiven w (givenFor items) := by
  induction items generalizing w with
  | nil => exact (withGiven_nothing w).symm
  | cons i items ih =>
    obtain ⟨first, others⟩ := List.nodup_cons.mp distinct
    have new : givenFor items i.1.toNat = none := givenFor_none fun j hj same =>
      first (List.mem_map.mpr ⟨j, hj, BitVec.eq_of_toNat_eq same⟩)
    rw [givenFor_cons, ← withGiven_withItem w (range i List.mem_cons_self) new,
      ← ih (fun j hj => range j (List.mem_cons_of_mem i hj)) others]
    rfl

/-- The settings as they would stand after the request. -/
def settingsGiven (w : Settings) (g : Nat → Option Nat) : Settings :=
  { withGiven w g with capacityDay := min (withGiven w g).capacityDay (withGiven w g).capacityNight }

theorem withItems_spelled {items : List (Byte × BitVec 32)} (range : ∀ i ∈ items, 1 ≤ i.1.toNat ∧ i.1.toNat ≤ 17)
    (distinct : (items.map (·.1)).Nodup) (w : Settings) :
    w.withItems (spelled items) = settingsGiven w (givenFor items) := by
  unfold Settings.withItems
  rw [foldl_withItem range distinct]
  rfl

/-! ### The tests -/

/-- Table 10-1's refused ranges, a cell's offset judged against `period`. -/
def InRange (period : Nat) (i : Byte × BitVec 32) : Prop :=
  let v := i.2.toNat
  match i.1.toNat with
  | 1 | 13 => v ≤ 65535
  | 2 => 512 ≤ v ∧ v ≤ 8192
  | 3 | 4 | 5 | 6 => v % 256 ≤ 1 ∧ v / 256 % 256 ≤ 3 ∧ v / 65536 < period
  | 17 => v ≤ 86399
  | _ => True

theorem itemInRange_iff (period : Nat) {i : Byte × BitVec 32} (range : 1 ≤ i.1.toNat ∧ i.1.toNat ≤ 17) :
    itemInRange period i.1.toNat (le 4 i.2.toNat) = true ↔ InRange period i := by
  obtain ⟨enable, group, offset⟩ := cellFields i.2
  obtain ⟨pos, low⟩ := range
  unfold InRange
  generalize i.1.toNat = n at pos low
  interval_cases n <;>
    simp [itemInRange, cellInRange, enable, group, offset, leNat_le_four, Nat.succ_le_iff, and_assoc]

theorem spelled_inRange (period : Nat) {items : List (Byte × BitVec 32)}
    (range : ∀ i ∈ items, 1 ≤ i.1.toNat ∧ i.1.toNat ≤ 17) :
    ((spelled items).all fun i => itemInRange period i.1 i.2) = true ↔ ∀ i ∈ items, InRange period i := by
  simp only [spelled, List.all_map, List.all_eq_true, Function.comp_apply]
  exact forall₂_congr fun i hi => itemInRange_iff period (range i hi)

theorem spelled_named (items : List (Byte × BitVec 32)) :
    (spelled items = [] ∨ ¬ ((spelled items).all fun i => decide (1 ≤ i.1) && decide (i.1 ≤ 17)) = true
        ∨ ¬ ((spelled items).map (·.1)).Nodup)
      ↔ ¬ (items ≠ [] ∧ (∀ i ∈ items, 1 ≤ i.1.toNat ∧ i.1.toNat ≤ 17) ∧ (items.map (·.1)).Nodup) := by
  have numbers : (spelled items).map (·.1) = (items.map (·.1)).map BitVec.toNat := by simp [spelled]
  have distinct : ((spelled items).map (·.1)).Nodup ↔ (items.map (·.1)).Nodup := by
    rw [numbers]
    exact List.nodup_map_iff fun a b same => BitVec.eq_of_toNat_eq same
  have named : ((spelled items).all fun i => decide (1 ≤ i.1) && decide (i.1 ≤ 17)) = true
      ↔ ∀ i ∈ items, 1 ≤ i.1.toNat ∧ i.1.toNat ≤ 17 := by simp [spelled]
  have empty : spelled items = [] ↔ items = [] := List.map_eq_nil_iff
  rw [distinct, named, empty]
  tauto

/-- R16's three conditions, for every cell and every two cells. -/
def Fit (w : Settings) : Prop :=
  (∀ c, (w.cells.get c).enabled = true → (w.cells.get c).offset + (26 + 30 * w.capacityNight) ≤ w.period)
  ∧ (∀ c d, c ≠ d → (w.cells.get c).enabled = true → (w.cells.get d).enabled = true →
      (w.cells.get c).group = (w.cells.get d).group →
      (w.cells.get c).offset + (26 + 30 * w.capacityNight) ≤ (w.cells.get d).offset
        ∨ (w.cells.get d).offset + (26 + 30 * w.capacityNight) ≤ (w.cells.get c).offset)
  ∧ ∀ c, (w.cells.get c).offset < w.period

/-- A claim about every cell, cell by cell. -/
theorem forall_cell {p : Fin 4 → Prop} : (∀ c, p c) ↔ p 0 ∧ p 1 ∧ p 2 ∧ p 3 := by
  simp [Fin.forall_fin_succ]

theorem cellsDisjoint_iff (k : Nat) (a b : CellSetting) : cellsDisjoint k a b = true
    ↔ (a.enabled = true → b.enabled = true → a.group = b.group → a.offset + k ≤ b.offset ∨ b.offset + k ≤ a.offset) := by
  unfold cellsDisjoint
  cases a.enabled <;> cases b.enabled <;> simp
  tauto

theorem cellsDisjoint_comm (k : Nat) (a b : CellSetting) : cellsDisjoint k a b = true ↔ cellsDisjoint k b a = true := by
  rw [cellsDisjoint_iff, cellsDisjoint_iff]
  exact ⟨fun h eb ea same => (h ea eb same.symm).symm, fun h ea eb same => (h eb ea same.symm).symm⟩

/-- Every two of the four cells, each pair once. -/
theorem forall_pair {q : Quad CellSetting} {k : Nat} :
    (∀ c d, c ≠ d → cellsDisjoint k (q.get c) (q.get d) = true)
      ↔ cellsDisjoint k q.c0 q.c1 = true ∧ cellsDisjoint k q.c0 q.c2 = true ∧ cellsDisjoint k q.c0 q.c3 = true
        ∧ cellsDisjoint k q.c1 q.c2 = true ∧ cellsDisjoint k q.c1 q.c3 = true ∧ cellsDisjoint k q.c2 q.c3 = true := by
  constructor
  · exact fun h => ⟨h 0 1 (by decide), h 0 2 (by decide), h 0 3 (by decide), h 1 2 (by decide), h 1 3 (by decide),
      h 2 3 (by decide)⟩
  · rintro ⟨a, b, c, d, e, f⟩
    have up : ∀ c d : Fin 4, c < d → cellsDisjoint k (q.get c) (q.get d) = true := by
      simp only [forall_cell]
      simp [Quad.get, a, b, c, d, e, f]
    intro c d other
    obtain less | more := lt_or_gt_of_ne other
    · exact up c d less
    · exact (cellsDisjoint_comm k _ _).mp (up d c more)

theorem toList_all (q : Quad CellSetting) (p : CellSetting → Bool) : q.toList.all p = true ↔ ∀ c, p (q.get c) = true := by
  simp only [List.all_eq_true, Quad.mem_toList, forall_exists_index, forall_apply_eq_imp_iff]

theorem fits_iff (w : Settings) : w.fits = true ↔ Fit w := by
  have pairs := forall_pair (q := w.cells) (k := windowLength w.capacityNight)
  simp only [cellsDisjoint_iff] at pairs
  unfold Fit
  rw [show (26 + 30 * w.capacityNight) = windowLength w.capacityNight from rfl, pairs]
  have enabled : ∀ c : CellSetting, (!c.enabled || decide (c.offset + windowLength w.capacityNight ≤ w.period)) = true
      ↔ (c.enabled = true → c.offset + windowLength w.capacityNight ≤ w.period) := fun c => by cases c.enabled <;> simp
  unfold Settings.fits windowsFit
  simp only [Bool.and_eq_true, toList_all, enabled, cellsDisjoint_iff, decide_eq_true_eq, and_assoc, Nat.succ_le_iff]

theorem campaignRunning_iff (s : State) : s.campaignRunning = true
    ↔ ¬ ∀ i, (s.campaigns.get i).state ≠ .opened ∧ (s.campaigns.get i).state ≠ .cut := by
  unfold State.campaignRunning
  rw [List.any_eq_true]
  simp only [Quad.mem_toList, Bool.or_eq_true, decide_eq_true_eq]
  constructor
  · rintro ⟨x, ⟨i, rfl⟩, running⟩ calm
    exact running.elim (calm i).1 (calm i).2
  · intro h
    obtain ⟨i, running⟩ := not_forall.mp h
    exact ⟨_, ⟨i, rfl⟩, by tauto⟩

theorem geometryDiffers_iff (w w' : Settings) : w.geometryDiffers w' = true
    ↔ ¬ (w'.period = w.period ∧ w'.capacityNight = w.capacityNight ∧ w'.cells = w.cells) := by
  unfold Settings.geometryDiffers
  simp only [Bool.or_eq_true, decide_eq_true_eq, ne_eq, eq_comm (a := w.period), eq_comm (a := w.capacityNight),
    eq_comm (a := w.cells)]
  tauto

/-! ### The answer -/

/-- The value of an item as taken: a clamped item's from the settings, any other as given. -/
def takenValue (w : Settings) (i : Byte × BitVec 32) : Nat :=
  match i.1.toNat with
  | 7 => w.capacityNight | 8 => w.capacityDay | 9 => w.callCost | 10 => w.blockCost | 11 => w.reportCost
  | 12 => w.boostWakeCost | 14 => w.missLimit | 15 => w.guardBeacons | 16 => w.span
  | _ => i.2.toNat

/-- A cell item in its ranges is read back as it was given. -/
theorem cellGiven_value (v : BitVec 32) (range : v.toNat % 256 ≤ 1) (held : CellSetting) :
    (cellGiven (some v.toNat) held).value = le 4 v.toNat := by
  have enable : boolByte (decide (v.toNat % 256 = 1)) = BitVec.ofNat 8 v.toNat := by
    apply BitVec.eq_of_toNat_eq
    rw [BitVec.toNat_ofNat]
    obtain zero | one := Nat.le_one_iff_eq_zero_or_eq_one.mp range
    · rw [zero]; rfl
    · rw [one]; rfl
  have group : BitVec.ofNat 8 (v.toNat / 256 % 256) = BitVec.ofNat 8 (v.toNat / 256) := BitVec.eq_of_toNat_eq (by simp)
  simp [cellGiven, CellSetting.value, enable, group, le, Nat.div_div_eq_div_mul]

theorem itemValue_given {w : Settings} {g : Nat → Option Nat} {i : Byte × BitVec 32} (named : 1 ≤ i.1.toNat ∧ i.1.toNat ≤ 17)
    {period : Nat} (inRange : InRange period i) (given : g i.1.toNat = some i.2.toNat) :
    (settingsGiven w g).itemValue i.1.toNat = le 4 (takenValue (settingsGiven w g) i) := by
  obtain ⟨pos, low⟩ := named
  unfold InRange at inRange
  unfold takenValue
  generalize i.1.toNat = n at pos low inRange given
  interval_cases n
  · have small : i.2.toNat % 65536 = i.2.toNat := Nat.mod_eq_of_lt (Nat.lt_succ_of_le inRange)
    simp [settingsGiven, withGiven, Settings.itemValue, given, small]
  · simp [settingsGiven, withGiven, Settings.itemValue, given]
  -- the cell items 3 to 6
  iterate 4 simp only [settingsGiven, withGiven, Settings.itemValue, given, cellGiven_value i.2 inRange.1]
  all_goals simp [settingsGiven, withGiven, Settings.itemValue, given, clampGiven]

/-- The reply's item list. -/
theorem items_taken {w : Settings} {items : List (Byte × BitVec 32)} {period : Nat}
    (named : ∀ i ∈ items, 1 ≤ i.1.toNat ∧ i.1.toNat ≤ 17) (distinct : (items.map (·.1)).Nodup)
    (inRange : ∀ i ∈ items, InRange period i) :
    ((spelled items).flatMap fun i => le 1 i.1 ++ (settingsGiven w (givenFor items)).itemValue i.1)
      = items.flatMap fun i => i.1 :: le 4 (takenValue (settingsGiven w (givenFor items)) i) := by
  rw [spelled, List.flatMap_map]
  refine List.flatMap_congr fun i hi => ?_
  rw [itemValue_given (named i hi) (inRange i hi) (givenFor_some distinct hi)]
  simp [le]

/-- The site code 0 given, as the request spells it (R182). -/
theorem siteCleared_iff {w : Settings} {items : List (Byte × BitVec 32)} {period : Nat}
    (distinct : (items.map (·.1)).Nodup) (inRange : ∀ i ∈ items, InRange period i) :
    (decide ((settingsGiven w (givenFor items)).siteCode = 0) && (spelled items).any fun i => decide (i.1 = 1)) = true
      ↔ givenFor items 1 = some 0 := by
  have site : (settingsGiven w (givenFor items)).siteCode = BitVec.ofNat 16 ((givenFor items 1).getD w.siteCode.toNat) := rfl
  rw [Bool.and_eq_true, decide_eq_true_eq, spelled, List.any_map, List.any_eq_true, site]
  constructor
  · rintro ⟨cleared, i, hi, is⟩
    have first : i.1.toNat = 1 := of_decide_eq_true is
    have given := givenFor_some distinct hi
    have small := inRange i hi
    unfold InRange at small
    rw [first] at given small
    rw [given] at cleared ⊢
    have zero := congrArg BitVec.toNat cleared
    rw [Option.getD_some, BitVec.toNat_ofNat, Nat.mod_eq_of_lt (Nat.lt_succ_of_le small)] at zero
    exact congrArg some zero
  · intro given
    refine ⟨by rw [given]; rfl, ?_⟩
    by_contra absent
    have nothing : givenFor items 1 = none := givenFor_none fun i hi is => absent ⟨i, hi, decide_eq_true is⟩
    exact nomatch given.symm.trans nothing

/-- A request of well-formed length comes to its items (R177, R186). -/
theorem exec_configSet {s : State} (ready : Ready s) (num : Byte) {items : List (Byte × BitVec 32)} (few : items.length ≤ 219) :
    exec (.configSet num (le 1 items.length ++ items.flatMap fun i => i.1 :: le 4 i.2.toNat)) s
      = .next (answerWith 0x05 num (configSetItems (spelled items) s)) := by
  have count : (BitVec.ofNat 8 items.length).toNat = items.length := by
    rw [BitVec.toNat_ofNat, Nat.mod_eq_of_lt (by omega)]
  have length : (items.flatMap fun i => i.1 :: le 4 i.2.toNat).length = 5 * (BitVec.ofNat 8 items.length).toNat := by
    simp [count, Nat.mul_comm]
  have act : actConfigSet (le 1 items.length ++ items.flatMap fun i => i.1 :: le 4 i.2.toNat) s
      = configSetItems (spelled items) s := by
    rw [← parseItems_spelled]
    refine (if_pos length).trans ?_
    rw [count]
    rfl
  rw [← act]
  exact congrArg _ (request_ready ready 0x05 num _ _)

/-- The answer to a request that a test refuses. -/
theorem configSetItems_refused {items : List (Nat × List Byte)} {s : State} {code : ResultCode}
    (h : configRefusal items (s.store.working.withItems items) s = some code) :
    configSetItems items s = refuse code s := by
  rw [configSetItems_eq, h]

/-- What CONFIG-SET leaves, the mode by the site code given (R177, R182). -/
theorem configTaken_eq {items : List (Nat × List Byte)} {s : State} {w' : Settings} {cleared : Prop} [Decidable cleared]
    (settled : s.store.working.withItems items = w')
    (quiet : (decide (w'.siteCode = 0) && items.any fun i => decide (i.1 = 1)) = true ↔ cleared) :
    configTaken items s = { putSettings w' s with store.mode := if cleared then .quiet else s.store.mode } := by
  unfold configTaken
  rw [settled]
  by_cases h : cleared
  · rw [if_pos h]
    exact if_pos (quiet.mpr h)
  · rw [if_neg h]
    exact if_neg (mt quiet.mp h)

/-- Settles O16: the five tests in their order, each in the statement's own words, and the items taken by their numbers. -/
theorem configSetWholeOrNothing : Obligations.ConfigSetWholeOrNothing := by
  intro num items s ready few payload refused w given cellItem clamped capacityNight w' taken inRange window fit test1 test2 test3
    test4 test5
  have settled : test1 → w.withItems (spelled items) = w' := fun ⟨_, named, distinct⟩ => withItems_spelled named distinct w
  have answered : ∀ {a : Answer}, configSetItems (spelled items) s = a
      → exec (.configSet num payload) s = .next (answerWith 0x05 num a) := fun h => h ▸ exec_configSet ready num few
  have refuses : ∀ code : ResultCode, configRefusal (spelled items) (w.withItems (spelled items)) s = some code →
      exec (.configSet num payload) s = refused code.byte := fun _ h => answered (configSetItems_refused h)
  have pass1 (t1 : test1) := (not_congr (spelled_named items)).mpr (not_not.mpr t1)
  have pass2 (t1 : test1) : ((spelled items).all fun i => itemInRange w'.period i.1 i.2) = true ↔ test2 :=
    spelled_inRange w'.period t1.2.1
  have pass3 : ¬ (w'.siteCode ≠ w.siteCode ∧ s.dir.entries ≠ []) ↔ test3 := by rw [not_and_or, not_not, not_not]
  have pass4 : ¬ (w'.period ≠ w.period ∧ s.campaignRunning = true) ↔ test4 := by
    rw [not_and_or, not_not, campaignRunning_iff, not_not]
  have pass5 : ¬ (w.geometryDiffers w' = true ∧ ¬ w'.fits = true) ↔ test5 := by
    rw [not_and_or, geometryDiffers_iff, not_not, not_not, fits_iff]
    exact Iff.rfl
  refine ⟨fun f1 => refuses .badValue ?_, fun t1 f2 => refuses .badValue ?_, fun t1 t2 f3 => refuses .directoryNotEmpty ?_,
    fun t1 t2 t3 f4 => refuses .airLocked ?_, fun t1 t2 t3 t4 f5 => refuses .windowConflict ?_, fun t1 t2 t3 t4 t5 => ?_⟩
  · exact if_pos ((spelled_named items).mpr f1)
  · rw [settled t1]
    exact (if_neg (pass1 t1)).trans (if_pos ((not_congr (pass2 t1)).mpr f2))
  · rw [settled t1]
    exact (if_neg (pass1 t1)).trans ((if_neg (not_not.mpr ((pass2 t1).mpr t2))).trans (if_pos (of_not_not (mt pass3.mp f3))))
  · rw [settled t1]
    exact (if_neg (pass1 t1)).trans ((if_neg (not_not.mpr ((pass2 t1).mpr t2))).trans ((if_neg (pass3.mpr t3)).trans
      (if_pos (of_not_not (mt pass4.mp f4)))))
  · rw [settled t1]
    exact (if_neg (pass1 t1)).trans ((if_neg (not_not.mpr ((pass2 t1).mpr t2))).trans ((if_neg (pass3.mpr t3)).trans
      ((if_neg (pass4.mpr t4)).trans (if_pos (of_not_not (mt pass5.mp f5))))))
  · have passed : configRefusal (spelled items) (w.withItems (spelled items)) s = none := by
      rw [settled t1]
      exact (if_neg (pass1 t1)).trans ((if_neg (not_not.mpr ((pass2 t1).mpr t2))).trans ((if_neg (pass3.mpr t3)).trans
        ((if_neg (pass4.mpr t4)).trans (if_neg (pass5.mpr t5)))))
    have leaves := configTaken_eq (settled t1) (siteCleared_iff (w := w) t1.2.2 t2)
    have reply := items_taken (w := w) t1.2.1 t1.2.2 t2
    have taking : configSetItems (spelled items) s = okWith (le 1 items.length ++ items.flatMap fun i => i.1 :: le 4 (taken i))
        { putSettings w' s with store.mode := if given 1 = some 0 then .quiet else s.store.mode } := by
      have lengths : (spelled items).length = items.length := List.length_map _
      rw [configSetItems_eq, passed, settled t1, leaves, lengths]
      exact congrArg (fun bytes => okWith (le 1 items.length ++ bytes) _) reply
    exact answered taking

end Sys2Proof.Machine
end

section
/-! What the calls of an instant do to entries, records and boosts (R73, R112, R131), call after call. -/

namespace Sys2Proof.Machine

/-! ### One call -/

/-- A call's debit at its tag's entry (R112). -/
def chargeCall (e : Entry) (p : Snapshot) : Entry :=
  if e.addr = p.addr then { e with remaining := e.remaining - p.debit } else e

/-- A call at the record it names (R73, R112); a snapshot without a live change names none. -/
def workCall (q : Change) (p : Snapshot) : Change :=
  if q.serial = p.serial then { q with
    calls := min (q.calls + 1) 255
    state := if q.state = .queued then .sending else q.state
    spent := if q.serial = 0 then q.spent else min (q.spent + p.debit) 65535 }
  else q

/-- The boost lists with a call's boost order, if it carries one (R133). -/
def orderBoost (boosts : Quad (List BoostEntry)) (p : Snapshot) : Quad (List BoostEntry) :=
  match p.boostOrder with
  | none => boosts
  | some u => (boosts.map fun l => l.filter fun x => decide (x.addr ≠ p.addr)).modify p.cell
      (insertBy (fun p q => decide (p.addr < q.addr)) ⟨p.addr, u, false⟩)

/-- The part after some calls. -/
def State.afterCalls (s : State) (called : List Snapshot) : State :=
  { s with
    dir.entries := s.dir.entries.map fun e => called.foldl chargeCall e
    table.records := s.table.records.map fun q => called.foldl workCall q
    planner.boosts := called.foldl orderBoost s.planner.boosts }

theorem afterCalls_nil (s : State) : s.afterCalls [] = s := by
  unfold State.afterCalls
  simp only [List.foldl_nil, List.map_id']

@[simp] theorem chargeCall_addr (e : Entry) (p : Snapshot) : (chargeCall e p).addr = e.addr := by
  unfold chargeCall
  split <;> rfl

@[simp] theorem workCall_serial (q : Change) (p : Snapshot) : (workCall q p).serial = q.serial := by
  unfold workCall
  split <;> rfl

@[simp] theorem foldl_chargeCall_addr (called : List Snapshot) (e : Entry) : (called.foldl chargeCall e).addr = e.addr := by
  induction called generalizing e with
  | nil => rfl
  | cons p called ih => rw [List.foldl_cons, ih, chargeCall_addr]

@[simp] theorem foldl_workCall_serial (called : List Snapshot) (q : Change) : (called.foldl workCall q).serial = q.serial := by
  induction called generalizing q with
  | nil => rfl
  | cons p called ih => rw [List.foldl_cons, ih, workCall_serial]

/-- What a call commits, of a tag that is held (R73, R112, R131). -/
theorem commitCall_eq {s : State} {e : Entry} {p : Snapshot} (held : s.entryAt p.addr = some e)
    (names : p.serial = ((s.liveRecord e).map (·.serial)).getD 0) :
    commitCall p s = { s with
      dir.entries := s.dir.entries.map fun e => chargeCall e p
      table.records := s.table.records.map fun q => workCall q p
      planner.boosts := orderBoost s.planner.boosts p } := by
  have records : (updRecord p.serial (fun r => { r with
      calls := min (r.calls + 1) 255
      state := if r.state = .queued then .sending else r.state }) (debit p.addr p.debit s))
      = { s with
          dir.entries := s.dir.entries.map fun e => chargeCall e p
          table.records := s.table.records.map fun q => workCall q p } := by
    unfold debit
    rw [held, Option.bind_some]
    cases live : s.liveRecord e with
    | none =>
      rw [live] at names
      have zero : p.serial = 0 := names
      unfold updRecord updEntry workCall chargeCall
      refine congrArg (fun rs : List Change => ({ s with
        dir.entries := s.dir.entries.map fun e => if e.addr = p.addr then { e with remaining := e.remaining - p.debit } else e
        table.records := rs } : State)) (List.map_congr_left fun q _ => ?_)
      rw [zero]
      by_cases none : q.serial = 0
      · rw [if_pos none, if_pos none, if_pos none]
      · rw [if_neg none, if_neg none]
    | some r =>
      rw [live] at names
      have serial : p.serial = r.serial := names
      have some : r.serial ≠ 0 := recordOf_ne_zero (liveRecord_eq_some live).2
      unfold updRecord updEntry workCall chargeCall
      dsimp only
      rw [List.map_map, serial]
      refine congrArg (fun rs : List Change => ({ s with
        dir.entries := s.dir.entries.map fun e => if e.addr = p.addr then { e with remaining := e.remaining - p.debit } else e
        table.records := rs } : State)) (List.map_congr_left fun q _ => ?_)
      dsimp only [Function.comp_apply]
      by_cases same : q.serial = r.serial
      · have some' : q.serial ≠ 0 := same ▸ some
        rw [if_pos same, if_pos same, if_neg some', if_pos same]
      · rw [if_neg same, if_neg same, if_neg same]
  unfold commitCall
  dsimp only
  rw [records]
  cases boost : p.boostOrder with
  | none => simp only [orderBoost, boost]
  | some u =>
    simp only [orderBoost, boost]
    rfl

/-- The part after some calls and whatever filings and flags came with them. -/
def State.afterWalk (s : State) (called : List Snapshot) (calendar : Quad (List CalendarEntry)) (handler : RecordHandler) : State :=
  { s.afterCalls called with planner.calendar := calendar, handler := handler }

/-- One call more. -/
theorem commitCall_afterWalk {s : State} {called : List Snapshot} {calendar : Quad (List CalendarEntry)} {handler : RecordHandler}
    {e : Entry} {p : Snapshot} (held : (s.afterCalls called).entryAt p.addr = some e)
    (names : p.serial = (((s.afterCalls called).liveRecord e).map (·.serial)).getD 0) :
    commitCall p (s.afterWalk called calendar handler) = s.afterWalk (called ++ [p]) calendar handler := by
  rw [commitCall_eq (s := s.afterWalk called calendar handler) held names]
  unfold State.afterWalk State.afterCalls
  dsimp only
  simp only [List.map_map, List.foldl_append, List.foldl_cons, List.foldl_nil, Function.comp_def]

/-! ### What some calls leave of a tag that is not called -/

theorem foldl_chargeCall_other {called : List Snapshot} {e : Entry} (other : e.addr ∉ called.map (·.addr)) :
    called.foldl chargeCall e = e := by
  induction called with
  | nil => rfl
  | cons p called ih =>
    obtain ⟨not, others⟩ := not_or.mp (List.mem_cons.not.mp other)
    rw [List.foldl_cons, chargeCall, if_neg not, ih others]

theorem entryAt_afterCalls (s : State) (called : List Snapshot) (a : Nat) :
    (s.afterCalls called).entryAt a = (s.entryAt a).map fun e => called.foldl chargeCall e :=
  entryAt_map (fun e => foldl_chargeCall_addr called e) rfl a

theorem entryAt_afterCalls_other {s : State} {called : List Snapshot} {a : Nat} (other : a ∉ called.map (·.addr)) :
    (s.afterCalls called).entryAt a = s.entryAt a := by
  rw [entryAt_afterCalls]
  cases held : s.entryAt a with
  | none => rfl
  | some e => rw [Option.map_some, foldl_chargeCall_other (by rwa [(entryAt_mem held).2])]

theorem liveRecord_afterCalls (s : State) (called : List Snapshot) (e : Entry) :
    (s.afterCalls called).liveRecord e = (s.liveRecord e).map fun q => called.foldl workCall q := by
  unfold State.liveRecord
  cases e.live with
  | none => rfl
  | some k =>
    rw [Option.bind_some, Option.bind_some]
    unfold State.recordOf
    split
    · rfl
    · unfold State.afterCalls
      rw [List.find?_map]
      congr 2
      funext q
      simp

/-- The boost lists are searched in vain or not as before, for what no called tag can be. -/
theorem find?_orderBoost {P : BoostEntry → Bool} {p : Snapshot} (other : ∀ y, y.addr = p.addr → P y = false)
    (boosts : Quad (List BoostEntry)) (d : Cell) : ((orderBoost boosts p).get d).find? P = (boosts.get d).find? P := by
  have inserted (lt : BoostEntry → BoostEntry → Bool) (u : Beacon) (l : List BoostEntry) :
      (insertBy lt ⟨p.addr, u, false⟩ l).find? P = l.find? P := by
    have not := other ⟨p.addr, u, false⟩ rfl
    induction l with
    | nil => rw [insertBy, List.find?_cons, not]
    | cons x l ih =>
      rw [insertBy]
      split
      · rw [List.find?_cons, List.find?_cons, ih]
      · rw [List.find?_cons, not]
  have filtered (l : List BoostEntry) : (l.filter fun x => decide (x.addr ≠ p.addr)).find? P = l.find? P := by
    rw [List.find?_filter]
    congr 1
    funext y
    by_cases same : y.addr = p.addr
    · simp [same, other y same]
    · simp [same]
  unfold orderBoost
  cases p.boostOrder with
  | none => rfl
  | some u =>
    dsimp only
    rw [Quad.get_modify, Quad.get_map]
    split
    · rw [inserted, filtered]
    · rw [filtered]

theorem find?_afterCalls {P : BoostEntry → Bool} {called : List Snapshot}
    (other : ∀ p ∈ called, ∀ y, y.addr = p.addr → P y = false) (s : State) (d : Cell) :
    ((s.afterCalls called).planner.boosts.get d).find? P = (s.planner.boosts.get d).find? P := by
  change ((called.foldl orderBoost s.planner.boosts).get d).find? P = _
  generalize s.planner.boosts = boosts
  induction called generalizing boosts with
  | nil => rfl
  | cons p called ih =>
    rw [List.foldl_cons, ih (fun q hq => other q (List.mem_cons_of_mem p hq)), find?_orderBoost (other p List.mem_cons_self)]

theorem boostOf_afterCalls {s : State} {called : List Snapshot} {a : Nat} (other : a ∉ called.map (·.addr)) :
    (s.afterCalls called).boostOf a = s.boostOf a := by
  unfold State.boostOf
  congr 1
  funext d
  rw [find?_afterCalls fun p hp y same => decide_eq_false fun is => other (List.mem_map.mpr ⟨p, hp, same.symm.trans is⟩)]

theorem fileDue_afterCalls {s : State} {called : List Snapshot} {e : Entry} (other : e.addr ∉ called.map (·.addr)) (d : Cell) :
    (s.afterCalls called).fileDue e d = s.fileDue e d := by
  unfold State.fileDue
  rw [find?_afterCalls fun p hp y same => by
    rw [decide_eq_false fun is => other (List.mem_map.mpr ⟨p, hp, same.symm.trans is⟩), Bool.false_and]]
  rfl

/-! ### What some calls leave of a record -/

/-- What a call of its tag keeps of a record: all but its calls, its charge spent, and its move from QUEUED to SENDING. -/
structure WorkedOn (q r : Change) : Prop where
  serial     : r.serial = q.serial
  blockCount : r.blockCount = q.blockCount
  checksum   : r.checksum = q.checksum
  acked      : r.acked = q.acked
  campaign   : r.campaign = q.campaign
  late       : r.late = q.late
  sequence   : r.sequence = q.sequence
  state      : r.state = q.state ∨ q.state = .queued ∧ r.state = .sending

theorem workCall_worked {q r : Change} (h : WorkedOn q r) (p : Snapshot) : WorkedOn q (workCall r p) := by
  obtain ⟨serial, blockCount, checksum, acked, campaign, late, sequence, state⟩ := h
  unfold workCall
  split
  · refine ⟨serial, blockCount, checksum, acked, campaign, late, sequence, ?_⟩
    dsimp only
    obtain same | ⟨queued, sending⟩ := state
    · by_cases queued : r.state = .queued
      · exact .inr ⟨same ▸ queued, if_pos queued⟩
      · exact .inl ((if_neg queued).trans same)
    · exact .inr ⟨queued, (if_neg (by rw [sending]; decide)).trans sending⟩
  · exact ⟨serial, blockCount, checksum, acked, campaign, late, sequence, state⟩

theorem foldl_workCall_worked (called : List Snapshot) (q : Change) : WorkedOn q (called.foldl workCall q) := by
  have run : ∀ (called : List Snapshot) (r : Change), WorkedOn q r → WorkedOn q (called.foldl workCall r) := by
    intro called
    induction called with
    | nil => exact fun r h => h
    | cons p called ih => exact fun r h => ih _ (workCall_worked h p)
  exact run called q ⟨rfl, rfl, rfl, rfl, rfl, rfl, rfl, .inl rfl⟩

theorem foldl_workCall_other {called : List Snapshot} {q : Change} (other : ∀ p ∈ called, p.serial ≠ q.serial) :
    called.foldl workCall q = q := by
  induction called with
  | nil => rfl
  | cons p called ih =>
    rw [List.foldl_cons, workCall, if_neg (other p List.mem_cons_self).symm,
      ih fun q hq => other q (List.mem_cons_of_mem p hq)]

theorem deliveryCall_afterCalls (s : State) (called : List Snapshot) (e : Entry) :
    (s.afterCalls called).deliveryCall e = s.deliveryCall e := by
  unfold State.deliveryCall
  rw [liveRecord_afterCalls]
  cases s.liveRecord e with
  | none => rfl
  | some q =>
    obtain ⟨-, blockCount, -, acked, -, -, -, state⟩ := foldl_workCall_worked called q
    dsimp only [Option.map_some]
    rw [blockCount, acked]
    obtain same | ⟨queued, sending⟩ := state
    · rw [same]
    · rw [queued, sending]
      rfl

end Sys2Proof.Machine
end

section
/-! The walk over the ordered due list (R126 to R130): its order, its calls, and what it leaves. -/

namespace Sys2Proof.Machine

/-! ### The order of the due tags -/

theorem insertBy_pairwise {α : Type} {lt : α → α → Bool} (trans : ∀ x y z, lt x y = true → lt y z = true → lt x z = true)
    {x : α} {l : List α} (sorted : l.Pairwise fun y z => lt y z = true)
    (total : ∀ y ∈ l, lt x y = true ∨ lt y x = true) : (insertBy lt x l).Pairwise fun y z => lt y z = true := by
  induction l with
  | nil => exact List.pairwise_singleton _ _
  | cons y l ih =>
    obtain ⟨first, sorted⟩ := List.pairwise_cons.mp sorted
    rw [insertBy]
    split
    · next ahead =>
      refine List.pairwise_cons.mpr ⟨fun z hz => ?_, ih sorted fun z hz => total z (List.mem_cons_of_mem y hz)⟩
      obtain rfl | hz := mem_insertBy.mp hz
      · exact ahead
      · exact first z hz
    · next behind =>
      have before : lt x y = true := (total y List.mem_cons_self).resolve_right behind
      refine List.pairwise_cons.mpr ⟨fun z hz => ?_, List.pairwise_cons.mpr ⟨first, sorted⟩⟩
      obtain rfl | hz := List.mem_cons.mp hz
      · exact before
      · exact trans x y z before (first z hz)

/-- A list whose elements can be told apart is put in order. -/
theorem sortBy_pairwise {α : Type} {lt : α → α → Bool} (trans : ∀ x y z, lt x y = true → lt y z = true → lt x z = true)
    {l : List α} (total : l.Pairwise fun x y => lt x y = true ∨ lt y x = true) :
    (sortBy lt l).Pairwise fun x y => lt x y = true := by
  induction l with
  | nil => exact List.Pairwise.nil
  | cons x l ih =>
    obtain ⟨first, total⟩ := List.pairwise_cons.mp total
    exact insertBy_pairwise trans (ih total) fun y hy => first y ((sortBy_perm lt l).mem_iff.mp hy)

theorem sortBy_map {α β : Type} (lt : β → β → Bool) (f : α → β) (l : List α) :
    sortBy lt (l.map f) = (sortBy (fun x y => lt (f x) (f y)) l).map f := by
  have inserted (x : α) (l : List α) : insertBy lt (f x) (l.map f) = (insertBy (fun x y => lt (f x) (f y)) x l).map f := by
    induction l with
    | nil => rfl
    | cons y l ih =>
      rw [List.map_cons, insertBy, insertBy]
      split <;> simp [ih]
  induction l with
  | nil => rfl
  | cons x l ih => rw [List.map_cons, sortBy, sortBy, ih, inserted]

/-- An entry as the due list orders it. -/
def dueTag (s : State) (b : Beacon) (e : Entry) : DueTag := ⟨urgencyGroup (s.liveRecord e), urgencyKey s b e, e.addr⟩

/-- The group of a delivery (R127). -/
theorem urgencyGroup_delivery {r : Change} (delivery : r.state = .queued ∨ r.state = .sending) :
    urgencyGroup (some r) = if r.late = true ∨ r.campaign = none then 2 else 3 := by
  obtain is | is := delivery <;> simp only [urgencyGroup, is]

theorem urgencyKey_of_live {s : State} {b : Beacon} {e : Entry} {r : Change} (live : s.liveRecord e = some r) {n : Nat}
    (group : urgencyGroup (some r) = n) : urgencyKey s b e =
      if n = 1 then beaconDiff ((r.campaign.bind s.activationBeacon).getD 0) b
      else if n = 2 then -(sequenceAge s.table.nextSequence r.sequence : Int)
      else if n = 3 then slack s b e r else 0 := by
  unfold urgencyKey
  simp only [live, group]
  split <;> simp_all

/-- The slack is that of R129. -/
theorem slack_eq (s : State) (b : Beacon) (e : Entry) (r : Change) :
    slack s b e r = (((r.campaign.bind fun i => (s.campaigns.get i).activation.map (·.beacon)).getD 0)
        - BitVec.ofNat 24 s.store.working.guardBeacons - (b + BitVec.ofInt 24
          (((((r.blockCount - r.acked + blocksPerSlot e.link - 1) / blocksPerSlot e.link : Nat) : Int) - 1)
            * 2 ^ e.believed.val))).toInt := by
  unfold slack projectedCompletion beaconDiff interval
  rw [tierBlocks_eq]
  push_cast
  rfl

/-- What orders a due delivery (R127, R129). -/
theorem urgency_delivery {s : State} {b : Beacon} {e : Entry} {r : Change} (live : s.liveRecord e = some r)
    (delivery : r.state = .queued ∨ r.state = .sending) :
    s.urgency b e = if r.late = true ∨ r.campaign = none then (2, -((s.table.nextSequence - r.sequence).toNat : Int))
      else (3, slack s b e r) := by
  unfold State.urgency
  rw [live, slack_eq]
  obtain is | is := delivery <;> simp only [is]

theorem urgency_eq (s : State) (b : Beacon) (e : Entry) :
    (urgencyGroup (s.liveRecord e), urgencyKey s b e) = s.urgency b e := by
  cases live : s.liveRecord e with
  | none => simp only [urgencyKey, State.urgency, live, urgencyGroup]
  | some r =>
    by_cases delivery : r.state = .queued ∨ r.state = .sending
    · rw [urgency_delivery live delivery, urgencyKey_of_live live rfl, urgencyGroup_delivery delivery]
      by_cases late : r.late = true ∨ r.campaign = none
      · rw [if_pos late, if_pos late]
        rfl
      · rw [if_neg late, if_neg late]
        rfl
    · rw [urgencyKey_of_live live rfl]
      unfold State.urgency
      rw [live]
      cases is : r.state
      case queued => exact absurd (.inl is) delivery
      case sending => exact absurd (.inr is) delivery
      all_goals simp only [urgencyGroup, is]; rfl

theorem dueTag_before_iff (s : State) (b : Beacon) (d e : Entry) :
    (dueTag s b d).before (dueTag s b e) = true ↔ s.calledBefore b d e := by
  unfold State.calledBefore
  rw [← urgency_eq, ← urgency_eq]
  rw [DueTag.before, Bool.or_eq_true, Bool.and_eq_true, Bool.or_eq_true, Bool.and_eq_true, decide_eq_true_iff,
    decide_eq_true_iff, decide_eq_true_iff, decide_eq_true_iff, decide_eq_true_iff]
  exact Iff.rfl

theorem calledBefore_trans {s : State} {b : Beacon} {x y z : Entry} (first : s.calledBefore b x y) (then' : s.calledBefore b y z) :
    s.calledBefore b x z := by
  unfold State.calledBefore at *
  omega

/-- The due tags of some short addresses in their order (R127, R128). -/
def dueOrder (s : State) (b : Beacon) (addrs : List Nat) : List Entry :=
  sortBy (fun d e => (dueTag s b d).before (dueTag s b e)) (addrs.filterMap s.entryAt)

theorem dueList_dueOrder (s : State) (b : Beacon) (addrs : List Nat) :
    (dueList s b addrs).map (·.addr) = (dueOrder s b addrs).map (·.addr) := by
  have tags : (addrs.filterMap fun a => (s.entryAt a).map fun e =>
      (⟨urgencyGroup (s.liveRecord e), urgencyKey s b e, a⟩ : DueTag)) = (addrs.filterMap s.entryAt).map (dueTag s b) := by
    rw [List.map_filterMap]
    refine List.filterMap_congr fun a _ => ?_
    cases held : s.entryAt a with
    | none => rfl
    | some e =>
      obtain ⟨-, addr⟩ := entryAt_mem held
      rw [Option.map_some, Option.map_some, dueTag, addr]
  rw [dueList, tags, sortBy_map, List.map_map]
  rfl

theorem mem_dueOrder {s : State} {b : Beacon} {addrs : List Nat} {e : Entry} :
    e ∈ dueOrder s b addrs ↔ e.addr ∈ addrs ∧ s.entryAt e.addr = some e := by
  rw [dueOrder, (sortBy_perm _ _).mem_iff, List.mem_filterMap]
  constructor
  · rintro ⟨a, ha, held⟩
    obtain ⟨-, rfl⟩ := entryAt_mem held
    exact ⟨ha, held⟩
  · exact fun ⟨ha, held⟩ => ⟨_, ha, held⟩

theorem dueOrder_nodup (s : State) (b : Beacon) {addrs : List Nat} (nodup : addrs.Nodup) :
    ((dueOrder s b addrs).map (·.addr)).Nodup := by
  have perm : ((dueOrder s b addrs).map (·.addr)).Perm ((addrs.filterMap s.entryAt).map (·.addr)) := (sortBy_perm _ _).map _
  rw [perm.nodup_iff, List.map_filterMap]
  refine nodup.filterMap fun a a' x hx hx' => ?_
  obtain ⟨e, held, rfl⟩ := Option.map_eq_some_iff.mp hx
  obtain ⟨e', held', same⟩ := Option.map_eq_some_iff.mp hx'
  rw [← (entryAt_mem held).2, ← (entryAt_mem held').2]
  exact same.symm

theorem dueOrder_pairwise (s : State) (b : Beacon) {addrs : List Nat} (nodup : addrs.Nodup) :
    (dueOrder s b addrs).Pairwise (s.calledBefore b) := by
  have distinct : (addrs.filterMap s.entryAt).Pairwise fun d e => d.addr ≠ e.addr := by
    have listed := ((sortBy_perm _ _).map Entry.addr).nodup_iff.mp (dueOrder_nodup s b nodup)
    exact List.pairwise_map.mp listed
  refine (sortBy_pairwise (fun x y z => ?_) (distinct.imp fun other => ?_)).imp fun h => (dueTag_before_iff s b _ _).mp h
  · simp only [dueTag_before_iff]
    exact calledBefore_trans
  · simp only [dueTag_before_iff]
    unfold State.calledBefore
    omega

end Sys2Proof.Machine
end

section
/-! The walk's choice of the called tags (R130), and the instant it belongs to (R126). -/

namespace Sys2Proof.Machine

/-! ### The call list -/

/-- The snapshots of an instant's calls in their order: each made from what the calls ahead of it leave, of a tag not called yet
whose charge reaches the threshold (R109, R130, R136). -/
inductive CallList (s : State) (c : Cell) (b : Beacon) (m : Mode) : List Snapshot → Prop
  | start : CallList s c b m []
  | call {called : List Snapshot} {e : Entry} : CallList s c b m called → s.entryAt e.addr = some e →
      e.addr ∉ called.map (·.addr) → s.store.working.threshold (s.deliveryCall e) ≤ e.remaining →
      CallList s c b m (called ++ [makeSnapshot (s.afterCalls called) c b m called.length e])

/-- A list with one element more, cut in two. -/
theorem snoc_cut {α : Type} {l ahead behind : List α} {x y : α} (h : l ++ [x] = ahead ++ y :: behind) :
    (behind = [] ∧ ahead = l ∧ y = x) ∨ ∃ rest, behind = rest ++ [x] ∧ l = ahead ++ y :: rest := by
  cases behind using List.reverseRecOn with
  | nil =>
    obtain ⟨same, last⟩ := List.append_inj' h rfl
    exact .inl ⟨rfl, same.symm, (List.cons.inj last).1.symm⟩
  | append_singleton rest z =>
    rw [← List.cons_append, ← List.append_assoc] at h
    obtain ⟨same, last⟩ := List.append_inj' h rfl
    obtain rfl := (List.cons.inj last).1
    exact .inr ⟨rest, rfl, same⟩

/-- Each snapshot of a call list, with what is ahead of it. -/
theorem CallList.at {s : State} {c : Cell} {b : Beacon} {m : Mode} {called : List Snapshot} (h : CallList s c b m called)
    {ahead behind : List Snapshot} {p : Snapshot} (cut : called = ahead ++ p :: behind) :
    CallList s c b m ahead ∧ ∃ e, s.entryAt e.addr = some e ∧ e.addr ∉ ahead.map (·.addr)
      ∧ s.store.working.threshold (s.deliveryCall e) ≤ e.remaining
      ∧ p = makeSnapshot (s.afterCalls ahead) c b m ahead.length e := by
  induction h generalizing behind with
  | start => exact absurd (congrArg List.length cut) (by simp)
  | call list held fresh means ih =>
    obtain ⟨rfl, rfl, rfl⟩ | ⟨rest, rfl, shorter⟩ := snoc_cut cut
    · exact ⟨list, _, held, fresh, means, rfl⟩
    · exact ih shorter

/-! ### The walk -/

/-- How many of some tags are called. -/
def calledAmong (called : List Snapshot) (l : List Entry) : Nat := called.countP fun p => decide (p.addr ∈ l.map (·.addr))

/-- The walk over `order` from state `s` has called the tags of `called` and left `t` (R130). -/
structure Chosen (s : State) (c : Cell) (b : Beacon) (m : Mode) (cap : Nat) (order : List Entry) (called : List Snapshot)
    (t : State) : Prop where
  calls    : CallList s c b m called
  few      : called.length ≤ cap
  sublist  : (called.map (·.addr)).Sublist (order.map (·.addr))
  leaves   : t = s.afterWalk called t.planner.calendar t.handler
  calendar : ∀ d y, y ∈ t.planner.calendar.get d ↔ y ∈ s.planner.calendar.get d
    ∨ ∃ e ∈ order, e.addr ∉ called.map (·.addr) ∧ e.home = some d ∧ y = ⟨e.addr, s.fileDue e d⟩
  handler  : t.handler = s.handler ∨ t.handler = (raiseFlag .budgetShort s).handler
  takes    : ∀ ahead e behind, order = ahead ++ e :: behind → (e.addr ∈ called.map (·.addr)
    ↔ calledAmong called ahead < cap ∧ s.store.working.threshold (s.deliveryCall e) ≤ e.remaining)
  short    : Flag.budgetShort.isIn t.handler.flags = true ↔ Flag.budgetShort.isIn s.handler.flags = true
    ∨ ∃ ahead e behind, order = ahead ++ e :: behind ∧ calledAmong called ahead < cap
      ∧ e.remaining < s.store.working.threshold (s.deliveryCall e)

/-- Before the first tag. -/
theorem chosen_start (s : State) (c : Cell) (b : Beacon) (m : Mode) (cap : Nat) : Chosen s c b m cap [] [] s where
  calls := .start
  few := Nat.zero_le _
  sublist := List.Sublist.slnil
  leaves := by
    unfold State.afterWalk
    rw [afterCalls_nil]
  calendar := fun d y => by simp
  handler := .inl rfl
  takes := fun ahead e behind cut => absurd (congrArg List.length cut) (by simp)
  short := ⟨.inl, fun h => h.resolve_right fun ⟨ahead, e, behind, cut, _⟩ => absurd (congrArg List.length cut) (by simp)⟩

section step

variable {s t : State} {c : Cell} {b : Beacon} {m : Mode} {cap : Nat} {order : List Entry} {called : List Snapshot}
  (h : Chosen s c b m cap order called t)

include h

/-- All tags called so far are among those walked. -/
theorem Chosen.calledAmong_all : calledAmong called order = called.length :=
  List.countP_eq_length.mpr fun _ hp => decide_eq_true (h.sublist.subset (List.mem_map_of_mem hp))

theorem Chosen.fresh {e : Entry} (new : e.addr ∉ order.map (·.addr)) : e.addr ∉ called.map (·.addr) :=
  fun is => new (h.sublist.subset is)

/-- A tag of the walk has no calendar entry yet. -/
theorem Chosen.unfiled {e : Entry} (new : e.addr ∉ order.map (·.addr))
    (unfiled : ∀ d, ∀ y ∈ s.planner.calendar.get d, y.addr ≠ e.addr) :
    ¬ ∃ d, ∃ y ∈ t.planner.calendar.get d, y.addr = e.addr := by
  rintro ⟨d, y, hy, same⟩
  obtain old | ⟨x, hx, -, -, rfl⟩ := (h.calendar d y).mp hy
  · exact unfiled d y old same
  · exact new (List.mem_map.mpr ⟨x, hx, same⟩)

/-- A tag that is not called is filed again (R130); one that falls short of charge sets BUDGET_SHORT. -/
theorem Chosen.refile {e : Entry} (new : e.addr ∉ order.map (·.addr)) (held : s.entryAt e.addr = some e)
    (unfiled : ∀ d, ∀ y ∈ s.planner.calendar.get d, y.addr ≠ e.addr) {t' : State}
    (same : t' = { t with handler := t'.handler })
    (handler : t'.handler = s.handler ∨ t'.handler = (raiseFlag .budgetShort s).handler)
    (not : ¬ (called.length < cap ∧ s.store.working.threshold (s.deliveryCall e) ≤ e.remaining))
    (flag : Flag.budgetShort.isIn t'.handler.flags = true ↔ Flag.budgetShort.isIn t.handler.flags = true
      ∨ called.length < cap ∧ e.remaining < s.store.working.threshold (s.deliveryCall e)) :
    Chosen s c b m cap (order ++ [e]) called (fileTag e.addr t') := by
  obtain ⟨cal, filed⟩ := fileTag_planner e.addr t'
  have entry : t'.entryAt e.addr = some e := by
    rw [same, h.leaves]
    exact (entryAt_afterCalls_other (h.fresh new)).trans held
  have due (d : Cell) : t'.fileDue e d = s.fileDue e d := by
    rw [same, h.leaves]
    exact fileDue_afterCalls (h.fresh new) d
  have calendar : t'.planner.calendar = t.planner.calendar := by rw [same]
  have member := mem_fileTag_new (s := t') (by rw [calendar]; exact h.unfiled new unfiled)
  simp only [entry, Option.some.injEq, exists_eq_left', due, calendar] at member
  have all := h.calledAmong_all
  exact
    { calls := h.calls
      few := h.few
      sublist := h.sublist.trans (by simp)
      leaves := by
        rw [filed, same, h.leaves]
        rfl
      calendar := fun d y => by
        rw [member, h.calendar]
        simp only [List.mem_append, List.mem_singleton, or_and_right, exists_or, exists_eq_left, h.fresh new, not_false_eq_true,
          true_and, or_assoc]
      handler := by
        rw [filed]
        exact handler
      takes := fun ahead x behind cut => by
        obtain ⟨rfl, rfl, rfl⟩ | ⟨rest, rfl, shorter⟩ := snoc_cut cut
        · rw [all]
          exact iff_of_false (h.fresh new) not
        · exact h.takes ahead x rest shorter
      short := by
        rw [filed]
        refine flag.trans ?_
        rw [h.short, or_assoc]
        refine or_congr_right ⟨?_, ?_⟩
        · rintro (⟨ahead, x, behind, cut, short⟩ | ⟨room, short⟩)
          · exact ⟨ahead, x, behind ++ [e], by rw [cut, List.append_assoc, List.cons_append], short⟩
          · exact ⟨order, e, [], rfl, all.symm ▸ room, short⟩
        · rintro ⟨ahead, x, behind, cut, short⟩
          obtain ⟨rfl, rfl, rfl⟩ | ⟨rest, rfl, shorter⟩ := snoc_cut cut
          · exact .inr (all ▸ short)
          · exact .inl ⟨ahead, x, rest, shorter, short⟩ }

/-- A tag that is called takes the next slot (R130, R131). -/
theorem Chosen.call {e : Entry} (new : e.addr ∉ order.map (·.addr)) (held : s.entryAt e.addr = some e)
    (room : called.length < cap) (means : s.store.working.threshold (s.deliveryCall e) ≤ e.remaining) :
    Chosen s c b m cap (order ++ [e]) (called ++ [makeSnapshot t c b m called.length e])
      (commitCall (makeSnapshot t c b m called.length e) t) := by
  have made : makeSnapshot t c b m called.length e = makeSnapshot (s.afterCalls called) c b m called.length e := by
    rw [h.leaves]
    rfl
  have addr : (makeSnapshot (s.afterCalls called) c b m called.length e).addr = e.addr := rfl
  have commits : commitCall (makeSnapshot (s.afterCalls called) c b m called.length e) t
      = s.afterWalk (called ++ [makeSnapshot (s.afterCalls called) c b m called.length e]) t.planner.calendar t.handler := by
    conv_lhs => rw [h.leaves]
    exact commitCall_afterWalk ((entryAt_afterCalls_other (h.fresh new)).trans held) rfl
  rw [made, commits]
  generalize hp : makeSnapshot (s.afterCalls called) c b m called.length e = p at addr
  have among {l : List Entry} (out : e.addr ∉ l.map (·.addr)) : calledAmong (called ++ [p]) l = calledAmong called l := by
    unfold calledAmong
    rw [List.countP_append, List.countP_singleton, addr, if_neg (by simpa using out), Nat.add_zero]
  have others {x : Entry} (hx : x ∈ order) : x.addr ∈ (called ++ [p]).map (·.addr) ↔ x.addr ∈ called.map (·.addr) := by
    have not : x.addr ≠ e.addr := fun same => new (List.mem_map.mpr ⟨x, hx, same⟩)
    simp [addr, not]
  have self : e.addr ∈ (called ++ [p]).map (·.addr) := by simp [addr]
  have ahead_of {ahead : List Entry} {x : Entry} {rest : List Entry} (cut : order = ahead ++ x :: rest) :
      e.addr ∉ ahead.map (·.addr) := fun is => new (by rw [cut, List.map_append]; exact List.mem_append_left _ is)
  have in_order {ahead : List Entry} {x : Entry} {rest : List Entry} (cut : order = ahead ++ x :: rest) : x ∈ order := by
    rw [cut]
    simp
  have all := h.calledAmong_all
  exact
    { calls := hp ▸ h.calls.call held (h.fresh new) means
      few := by
        rw [List.length_append]
        exact room
      sublist := by
        rw [List.map_append, List.map_append]
        exact h.sublist.append (by simp [addr])
      leaves := rfl
      calendar := fun d y => by
        refine (h.calendar d y).trans (or_congr_right ⟨?_, ?_⟩)
        · rintro ⟨x, hx, out, home, due⟩
          exact ⟨x, List.mem_append_left _ hx, fun is => out ((others hx).mp is), home, due⟩
        · rintro ⟨x, hx, out, home, due⟩
          obtain hx | hx := List.mem_append.mp hx
          · exact ⟨x, hx, fun is => out ((others hx).mpr is), home, due⟩
          · obtain rfl := List.mem_singleton.mp hx
            exact absurd self out
      handler := h.handler
      takes := fun ahead x behind cut => by
        obtain ⟨rfl, rfl, rfl⟩ | ⟨rest, rfl, shorter⟩ := snoc_cut cut
        · rw [among new, all]
          exact iff_of_true self ⟨room, means⟩
        · rw [others (in_order shorter), among (ahead_of shorter)]
          exact h.takes ahead x rest shorter
      short := by
        refine h.short.trans (or_congr_right ⟨?_, ?_⟩)
        · rintro ⟨ahead, x, behind, cut, free, short⟩
          exact ⟨ahead, x, behind ++ [e], by rw [cut, List.append_assoc, List.cons_append],
            (among (ahead_of cut)).symm ▸ free, short⟩
        · rintro ⟨ahead, x, behind, cut, free, short⟩
          obtain ⟨rfl, rfl, rfl⟩ | ⟨rest, rfl, shorter⟩ := snoc_cut cut
          · exact absurd means (Nat.not_le.mpr short)
          · exact ⟨ahead, x, rest, shorter, among (ahead_of shorter) ▸ free, short⟩ }

/-- One tag of the walk. -/
theorem Chosen.next {e : Entry} (new : e.addr ∉ order.map (·.addr)) (held : s.entryAt e.addr = some e)
    (unfiled : ∀ d, ∀ y ∈ s.planner.calendar.get d, y.addr ≠ e.addr) :
    Chosen s c b m cap (order ++ [e]) (walkTag c b m cap (called, t) e.addr).1 (walkTag c b m cap (called, t) e.addr).2 := by
  have entry : t.entryAt e.addr = some e := by
    rw [h.leaves]
    exact (entryAt_afterCalls_other (h.fresh new)).trans held
  have threshold : t.store.working.threshold (t.deliveryCall e) = s.store.working.threshold (s.deliveryCall e) := by
    rw [h.leaves, ← deliveryCall_afterCalls s called e]
    rfl
  have raised : (raiseFlag .budgetShort t).handler = (raiseFlag .budgetShort s).handler := by
    have store : t.store = s.store := by rw [h.leaves]; rfl
    change t.handler.raise t.store.working.enableMask .budgetShort = s.handler.raise s.store.working.enableMask .budgetShort
    rw [store]
    obtain same | same := h.handler
    · rw [same]
    · rw [same]
      have set : Flag.budgetShort.isIn (raiseFlag .budgetShort s).handler.flags = true := by rw [isIn_raiseFlag]; simp
      exact if_pos set
  unfold walkTag
  dsimp only
  rw [entry]
  dsimp only
  rw [threshold]
  by_cases full : cap ≤ called.length
  · rw [if_pos full]
    exact h.refile new held unfiled rfl h.handler (fun ⟨room, _⟩ => Nat.not_lt.mpr full room)
      ⟨.inl, fun or => or.resolve_right fun ⟨room, _⟩ => Nat.not_lt.mpr full room⟩
  · rw [if_neg full]
    by_cases short : e.remaining < s.store.working.threshold (s.deliveryCall e)
    · rw [if_pos short]
      refine h.refile new held unfiled (t' := raiseFlag .budgetShort t) rfl (.inr raised)
        (fun ⟨_, means⟩ => Nat.not_lt.mpr means short) ?_
      rw [isIn_raiseFlag]
      exact iff_of_true (by simp) (.inr ⟨Nat.not_le.mp full, short⟩)
    · rw [if_neg short]
      exact h.call new held (Nat.not_le.mp full) (Nat.not_lt.mp short)

end step

/-- The walk over a list of held tags without calendar entries. -/
theorem walk_chosen {s : State} (c : Cell) (b : Beacon) (m : Mode) (cap : Nat) {order : List Entry}
    (nodup : (order.map (·.addr)).Nodup) (held : ∀ e ∈ order, s.entryAt e.addr = some e)
    (unfiled : ∀ e ∈ order, ∀ d, ∀ y ∈ s.planner.calendar.get d, y.addr ≠ e.addr) :
    Chosen s c b m cap order ((order.map (·.addr)).foldl (walkTag c b m cap) ([], s)).1
      ((order.map (·.addr)).foldl (walkTag c b m cap) ([], s)).2 := by
  induction order using List.reverseRecOn with
  | nil => exact chosen_start s c b m cap
  | append_singleton order e ih =>
    rw [List.map_append] at nodup
    obtain ⟨first, -, apart⟩ := List.nodup_append.mp nodup
    have new : e.addr ∉ order.map (·.addr) := fun is => apart _ is _ (by simp) rfl
    have walked := ih first (fun x hx => held x (List.mem_append_left _ hx)) fun x hx => unfiled x (List.mem_append_left _ hx)
    rw [List.map_append, List.foldl_append]
    exact walked.next new (held e (by simp)) (unfiled e (by simp))

end Sys2Proof.Machine
end

section
/-! The rule of the call list (R120, R126 to R130, R109, R110, R112). -/

namespace Sys2Proof.Machine

/-! ### The instant and its walk -/

/-- The short addresses due at an instant. -/
def dueAddrs (c : Cell) (b : Beacon) (s : State) : List Nat := ((s.planner.calendar.get c).filter (inBucket b)).map (·.addr)

/-- The part once the due tags are taken out of the calendar (R126, steps 1 to 3). -/
def instantStart (c : Cell) (b : Beacon) (s : State) : State :=
  { s with
    planner.last := s.planner.last.set c b
    planner.boosts := s.planner.boosts.modify c fun l => l.filter fun x => !isBefore x.boostEnd b
    planner.calendar := s.planner.calendar.modify c fun l => l.filter fun x => !inBucket b x }

theorem takeDue_eq (c : Cell) (b : Beacon) (s : State) :
    takeDue c b (beginInstant c b s) = (dueAddrs c b s, instantStart c b s) := rfl

theorem mem_dueAddrs {c : Cell} {b : Beacon} {s : State} {a : Nat} :
    a ∈ dueAddrs c b s ↔ ∃ y ∈ s.planner.calendar.get c, y.addr = a ∧ y.due.toNat % 128 = b.toNat % 128 := by
  unfold dueAddrs inBucket
  simp only [List.mem_map, List.mem_filter, decide_eq_true_eq, and_assoc]
  exact exists_congr fun y => and_congr_right fun _ => and_comm

theorem dueAddrs_nodup {s : State} (filing : OneFiling s) (c : Cell) (b : Beacon) : (dueAddrs c b s).Nodup := by
  have inside : (s.planner.calendar.get c).Sublist s.planner.calendar.toList.flatten :=
    List.sublist_flatten_of_mem ((Quad.mem_toList _ _).mpr ⟨c, rfl⟩)
  exact filing.1.sublist ((List.filter_sublist.trans inside).map _)

theorem mem_instantStart_calendar {c d : Cell} {b : Beacon} {s : State} {y : CalendarEntry} :
    y ∈ (instantStart c b s).planner.calendar.get d
      ↔ y ∈ s.planner.calendar.get d ∧ ¬ (d = c ∧ y.due.toNat % 128 = b.toNat % 128) := by
  change y ∈ (s.planner.calendar.modify c fun l => l.filter fun x => !inBucket b x).get d ↔ _
  rw [Quad.get_modify]
  by_cases here : d = c
  · rw [if_pos here, List.mem_filter]
    simp [here, inBucket]
  · rw [if_neg here]
    simp [here]

theorem instantStart_unfiled {s : State} (filing : OneFiling s) {c : Cell} {b : Beacon} {d : Cell} {y : CalendarEntry}
    (hy : y ∈ (instantStart c b s).planner.calendar.get d) : y.addr ∉ dueAddrs c b s := by
  intro due
  obtain ⟨held, out⟩ := mem_instantStart_calendar.mp hy
  obtain ⟨x, hx, same, bucket⟩ := mem_dueAddrs.mp due
  obtain ⟨rfl, rfl⟩ := Distinct.eq_of_key filing.1 hx held same
  exact out ⟨rfl, bucket⟩

/-- Where no tag may be called, all that are due are filed again. -/
theorem fileAll_chosen {s : State} (filing : OneFiling s) (c : Cell) (b : Beacon) (m : Mode) :
    Chosen (instantStart c b s) c b m 0 (dueOrder (instantStart c b s) b (dueAddrs c b s)) []
      ((dueAddrs c b s).foldl (fun s a => fileTag a s) (instantStart c b s)) := by
  obtain ⟨cal, filed⟩ := foldl_fileTag_planner (dueAddrs c b s) (instantStart c b s)
  have handler : ((dueAddrs c b s).foldl (fun s a => fileTag a s) (instantStart c b s)).handler = s.handler := by
    rw [filed]
    rfl
  exact
    { calls := .start
      few := Nat.le_refl 0
      sublist := List.nil_sublist _
      leaves := by
        rw [filed]
        unfold State.afterWalk
        rw [afterCalls_nil]
      calendar := fun d y => by
        rw [mem_foldl_fileTag (dueAddrs_nodup filing c b) fun d y hy => instantStart_unfiled filing hy]
        refine or_congr_right ⟨?_, ?_⟩
        · rintro ⟨a, due, e, held, home, rfl⟩
          obtain ⟨-, rfl⟩ := entryAt_mem held
          exact ⟨e, mem_dueOrder.mpr ⟨due, held⟩, List.not_mem_nil, home, rfl⟩
        · rintro ⟨e, he, -, home, rfl⟩
          obtain ⟨due, held⟩ := mem_dueOrder.mp he
          exact ⟨e.addr, due, e, held, home, rfl⟩
      handler := .inl handler
      takes := fun ahead e behind _ => iff_of_false List.not_mem_nil fun h => Nat.not_lt_zero _ h.1
      short := by
        rw [handler]
        exact ⟨.inl, fun h => h.resolve_right fun ⟨_, _, _, _, h, _⟩ => Nat.not_lt_zero _ h⟩ }

/-- An instant is a walk over the ordered due tags, and the window where the cell transmits (R126). -/
theorem instant_chosen {s : State} (filing : OneFiling s) (c : Cell) (b : Beacon) (g : Geometry) :
    ∃ called t, Chosen (instantStart c b s) c b s.store.mode (s.capacity g c)
        (dueOrder (instantStart c b s) b (dueAddrs c b s)) called t
      ∧ instant c b g s = if s.transmits g c then openWindow c b called t else t := by
  unfold instant
  rw [takeDue_eq]
  dsimp only
  rw [show (instantStart c b s).capacity g c = s.capacity g c from rfl,
    show (instantStart c b s).transmits g c = s.transmits g c from rfl,
    show (instantStart c b s).store.mode = s.store.mode from rfl, dueList_dueOrder]
  by_cases none : s.capacity g c = 0
  · rw [if_pos none]
    refine ⟨[], _, ?_, rfl⟩
    rw [none]
    exact fileAll_chosen filing c b s.store.mode
  · rw [if_neg none]
    refine ⟨_, _, walk_chosen c b s.store.mode (s.capacity g c) (dueOrder_nodup _ b (dueAddrs_nodup filing c b))
      (fun e he => (mem_dueOrder.mp he).2) (fun e he d y hy same => ?_), rfl⟩
    exact instantStart_unfiled filing hy (same ▸ (mem_dueOrder.mp he).1)

/-! ### What the calls leave, together -/

/-- With at most one call of each tag, a called tag is debited once. -/
theorem foldl_chargeCall_eq {called : List Snapshot} (nodup : (called.map (·.addr)).Nodup) (e : Entry) :
    (called.find? (fun p => decide (p.addr = e.addr)) = none → called.foldl chargeCall e = e)
    ∧ ∀ p, called.find? (fun p => decide (p.addr = e.addr)) = some p →
      called.foldl chargeCall e = { e with remaining := e.remaining - p.debit } := by
  induction called with
  | nil => exact ⟨fun _ => rfl, fun p found => by cases found⟩
  | cons q called ih =>
    obtain ⟨first, nodup⟩ := List.nodup_cons.mp nodup
    rw [List.foldl_cons]
    by_cases here : q.addr = e.addr
    · have found : (q :: called).find? (fun p => decide (p.addr = e.addr)) = some q := List.find?_cons_of_pos (by simpa using here)
      have charged : chargeCall e q = { e with remaining := e.remaining - q.debit } := if_pos here.symm
      rw [found, charged]
      refine ⟨fun none => (by cases none), fun p is => ?_⟩
      obtain rfl := Option.some.inj is
      exact foldl_chargeCall_other (here ▸ first)
    · have skipped : (q :: called).find? (fun p => decide (p.addr = e.addr))
          = called.find? (fun p => decide (p.addr = e.addr)) := List.find?_cons_of_neg (by simpa using here)
      have same : chargeCall e q = e := if_neg fun is => here is.symm
      rw [skipped, same]
      exact ih nodup

theorem foldl_chargeCall_believed (called : List Snapshot) (e : Entry) : (called.foldl chargeCall e).believed = e.believed := by
  induction called generalizing e with
  | nil => rfl
  | cons p called ih =>
    rw [List.foldl_cons, ih, chargeCall]
    split <;> rfl

theorem mem_orderBoost_other {p : Snapshot} {y : BoostEntry} (other : y.addr ≠ p.addr) (boosts : Quad (List BoostEntry)) (d : Cell) :
    y ∈ (orderBoost boosts p).get d ↔ y ∈ boosts.get d := by
  unfold orderBoost
  cases p.boostOrder with
  | none => exact Iff.rfl
  | some u =>
    have new : y ≠ ⟨p.addr, u, false⟩ := fun same => other (congrArg BoostEntry.addr same)
    dsimp only
    rw [Quad.get_modify]
    split
    · rw [mem_insertBy, mem_boosts_filter other]
      simp [new]
    · exact mem_boosts_filter other

theorem mem_foldl_orderBoost_other {called : List Snapshot} {y : BoostEntry} (other : y.addr ∉ called.map (·.addr))
    (boosts : Quad (List BoostEntry)) (d : Cell) : y ∈ (called.foldl orderBoost boosts).get d ↔ y ∈ boosts.get d := by
  induction called generalizing boosts with
  | nil => exact Iff.rfl
  | cons p called ih =>
    obtain ⟨not, others⟩ := not_or.mp (List.mem_cons.not.mp other)
    rw [List.foldl_cons, ih others, mem_orderBoost_other not]

theorem mem_instantStart_boosts {c d : Cell} {b : Beacon} {s : State} {y : BoostEntry} :
    y ∈ (instantStart c b s).planner.boosts.get d
      ↔ y ∈ s.planner.boosts.get d ∧ ¬ (d = c ∧ isBefore y.boostEnd b = true) := by
  change y ∈ (s.planner.boosts.modify c fun l => l.filter fun x => !isBefore x.boostEnd b).get d ↔ _
  rw [Quad.get_modify]
  by_cases here : d = c
  · rw [if_pos here, List.mem_filter]
    simp [here]
  · rw [if_neg here]
    simp [here]

/-! ### One call's cost and blocks -/

/-- The statement's threshold (R109). -/
theorem threshold_eq (s : State) (e : Entry) : s.store.working.threshold (s.deliveryCall e) = s.store.working.callCost
    + (if (s.liveRecord e).any (fun r => decide ((r.state = .queued ∨ r.state = .sending) ∧ r.acked < r.blockCount)) = true
      then s.store.working.blockCost else 0) + s.store.working.reportCost := by
  have delivery : s.deliveryCall e
      = (s.liveRecord e).any fun r => decide ((r.state = .queued ∨ r.state = .sending) ∧ r.acked < r.blockCount) := by
    unfold State.deliveryCall
    cases s.liveRecord e with
    | none => rfl
    | some r => simp [Bool.decide_and, Bool.decide_or]
  rw [delivery]
  unfold Settings.threshold
  split <;> simp

/-- The blocks of a delivery leave room for the call, the report and the boost (R111). -/
theorem slotBlocks_cost (w : Settings) (m : Mode) (e : Entry) (left boost : Nat) (means : w.threshold true ≤ e.remaining) :
    plannedCost w (slotBlocks w m e left boost) ≤ e.remaining := by
  have room : w.callCost + w.blockCost + w.reportCost ≤ e.remaining := means
  unfold plannedCost slotBlocks
  dsimp only
  split
  · next free =>
    rw [free, Nat.mul_zero]
    omega
  · next priced =>
    have blocks : min (min (min (tierBlocks e.link) left) (modeCap m)) ((e.remaining - w.callCost - w.reportCost - boost) / w.blockCost)
        * w.blockCost ≤ e.remaining - w.callCost - w.reportCost - boost :=
      (Nat.mul_le_mul_right _ (Nat.min_le_right _ _)).trans (Nat.div_mul_le_self _ _)
    omega

theorem slotBlocks_cap (w : Settings) (m : Mode) (e : Entry) (left boost : Nat) :
    slotBlocks w m e left boost ≤ if m = .day then 2 else 8 := by
  have cap : slotBlocks w m e left boost ≤ modeCap m := by
    unfold slotBlocks
    dsimp only
    split
    · exact Nat.min_le_right _ _
    · exact (Nat.min_le_left _ _).trans (Nat.min_le_right _ _)
  cases m
  case quiet => exact cap.trans (Nat.zero_le _)
  all_goals exact cap

theorem makeSnapshot_debit (s : State) (c : Cell) (b : Beacon) (m : Mode) (slot : Nat) (e : Entry) :
    (makeSnapshot s c b m slot e).debit = plannedCost s.store.working (makeSnapshot s c b m slot e).carried := rfl

/-- A called tag is debited within its means, for no more blocks than its mode allows (R111, R112). -/
theorem makeSnapshot_means {s : State} {e : Entry} (means : s.store.working.threshold (s.deliveryCall e) ≤ e.remaining)
    (c : Cell) (b : Beacon) (m : Mode) (slot : Nat) :
    (makeSnapshot s c b m slot e).debit ≤ e.remaining
      ∧ (makeSnapshot s c b m slot e).carried ≤ if m = .day then 2 else 8 := by
  rw [makeSnapshot_debit]
  unfold makeSnapshot
  dsimp only
  cases delivery : s.deliveryCall e with
  | true =>
    rw [delivery] at means
    rw [if_pos rfl]
    exact ⟨slotBlocks_cost _ _ _ _ _ means, slotBlocks_cap _ _ _ _ _⟩
  | false =>
    rw [delivery] at means
    rw [if_neg Bool.false_ne_true]
    refine ⟨?_, Nat.zero_le _⟩
    unfold plannedCost
    rw [Nat.zero_mul, Nat.add_zero]
    exact means

/-! ### The window -/

theorem slotsOf_addrs (called : List Snapshot) : (slotsOf called).map (·.snapshot.addr) = called.map (·.addr) := by
  simp [slotsOf]

theorem slotsOf_among (called : List Snapshot) (l : List Entry) :
    ((slotsOf called).countP fun x => decide (x.snapshot.addr ∈ l.map (·.addr))) = calledAmong called l := by
  unfold slotsOf calledAmong
  rw [List.countP_map]
  rfl

theorem Quad.set_get {α : Type} (q : Quad α) (c : Fin 4) : q.set c (q.get c) = q :=
  Quad.ext_get fun d => by
    rw [Quad.get_set]
    split
    · next h => rw [h]
    · rfl

/-- The window opened: the grant at the head of the queue leaves it, and goes with the beacon frame (R39, R141, R143). -/
theorem openWindow_opens (c : Cell) (b : Beacon) (called : List Snapshot) (s : State) :
    ∃ frame, openWindow c b called s = { s with
        dir.grants := s.dir.grants.set c ((s.dir.grants.get c).drop 1)
        cells.windows := s.cells.windows.set c (some ⟨b, s.store.mode, frame, (s.dir.grants.get c).head?, slotsOf called⟩) }
      ∧ (s.dir.grants.get c = [] →
        frame = beaconBytes s.store.working.siteCode b c s.store.mode (called.map (·.addr)) none)
      ∧ ∀ g rest e, s.dir.grants.get c = g :: rest → s.entryAt g.addr = some e →
        frame = beaconBytes s.store.working.siteCode b c s.store.mode (called.map (·.addr)) (some (g, e.believed)) := by
  cases grants : s.dir.grants.get c with
  | nil =>
    refine ⟨_, ?_, fun _ => rfl, fun g rest e is => nomatch is⟩
    rw [openWindow_noGrant b called grants, List.drop_nil, ← grants, Quad.set_get, grants]
    rfl
  | cons g rest =>
    refine ⟨_, openWindow_grant b called grants, fun is => (nomatch is), fun g' rest' e is held => ?_⟩
    obtain ⟨rfl, rfl⟩ := List.cons.inj is
    rw [held]
    rfl

end Sys2Proof.Machine
end

section
/-! The rule of the call list, settled (R120, R126 to R130, R109, R110, R112). -/

namespace Sys2Proof.Machine

/-- What an instant leaves after a walk that called `called`: the grants and windows by whether the cell transmits. -/
def instantLeaves (c : Cell) (b : Beacon) (called : List Snapshot) (on : Bool) (frame : List Byte) (s t : State) : State :=
  { t with
    dir.grants := if on then s.dir.grants.set c ((s.dir.grants.get c).drop 1) else s.dir.grants
    cells.windows := if on then s.cells.windows.set c (some ⟨b, s.store.mode, frame, (s.dir.grants.get c).head?, slotsOf called⟩)
      else s.cells.windows }

theorem capacity_off {s : State} {g : Geometry} {c : Cell} (off : s.transmits g c = false) : s.capacity g c = 0 :=
  if_neg (by rw [off]; exact Bool.false_ne_true)

/-- An instant in full: the walk's choice, the window and its frame (R126, R141, R143). -/
theorem instant_leaves {s : State} (filing : OneFiling s) (c : Cell) (b : Beacon) (g : Geometry) :
    ∃ called calendar handler frame,
      Chosen (instantStart c b s) c b s.store.mode (s.capacity g c) (dueOrder (instantStart c b s) b (dueAddrs c b s)) called
        ((instantStart c b s).afterWalk called calendar handler)
      ∧ instant c b g s
        = instantLeaves c b called (s.transmits g c) frame s ((instantStart c b s).afterWalk called calendar handler)
      ∧ (s.transmits g c = false → called = [])
      ∧ (s.dir.grants.get c = [] →
        frame = beaconBytes s.store.working.siteCode b c s.store.mode (called.map (·.addr)) none)
      ∧ ∀ g rest e, s.dir.grants.get c = g :: rest → s.entryAt g.addr = some e →
        frame = beaconBytes s.store.working.siteCode b c s.store.mode (called.map (·.addr)) (some (g, e.believed)) := by
  obtain ⟨called, t, chosen, is⟩ := instant_chosen filing c b g
  have leaves := chosen.leaves
  generalize t.planner.calendar = calendar, t.handler = handler at leaves
  subst leaves
  obtain ⟨frame, opens, noGrant, grant⟩ := openWindow_opens c b called ((instantStart c b s).afterWalk called calendar handler)
  refine ⟨called, calendar, handler, frame, chosen, ?_, fun off => ?_, noGrant, fun gr rest e grants held => ?_⟩
  · rw [is]
    cases on : s.transmits g c with
    | true => exact (if_pos rfl).trans opens
    | false => exact if_neg Bool.false_ne_true
  · have few := chosen.few
    rw [capacity_off off] at few
    exact List.length_eq_zero_iff.mp (Nat.le_zero.mp few)
  · have entry : ((instantStart c b s).afterWalk called calendar handler).entryAt gr.addr
        = some (called.foldl chargeCall e) := by
      refine (entryAt_afterCalls (instantStart c b s) called gr.addr).trans ?_
      rw [show (instantStart c b s).entryAt gr.addr = s.entryAt gr.addr from rfl, held]
      rfl
    rw [← foldl_chargeCall_believed called e]
    exact grant gr rest _ grants entry

/-- The due tags are the enrolled ones with an entry in the beacon's bucket (R120). -/
theorem mem_dueOrder_start {s : State} (directory : DirectoryLaw s) {c : Cell} {b : Beacon} {e : Entry} :
    e ∈ dueOrder (instantStart c b s) b (dueAddrs c b s) ↔ e ∈ s.dir.entries
      ∧ ∃ y ∈ s.planner.calendar.get c, y.addr = e.addr ∧ y.due.toNat % 128 = b.toNat % 128 := by
  rw [mem_dueOrder, and_comm]
  exact and_congr ⟨fun held => (entryAt_mem held).1, fun he => directory.entryAt he⟩ mem_dueAddrs

theorem CallList.nodup {s : State} {c : Cell} {b : Beacon} {m : Mode} {called : List Snapshot} (h : CallList s c b m called) :
    (called.map (·.addr)).Nodup := by
  induction h with
  | start => exact List.nodup_nil
  | @call called e list held fresh means ih =>
    rw [List.map_append, List.map_singleton]
    refine List.nodup_append.mpr ⟨ih, List.nodup_singleton _, fun a ha x hx => ?_⟩
    rw [List.mem_singleton.mp hx]
    intro same
    rw [show a = e.addr from same] at ha
    exact fresh ha

/-- The debits, entry by entry. -/
theorem charged_eq {called : List Snapshot} (nodup : (called.map (·.addr)).Nodup) (e : Entry) :
    called.foldl chargeCall e = match (slotsOf called).find? fun x => decide (x.snapshot.addr = e.addr) with
      | none => e
      | some x => { e with remaining := e.remaining - x.snapshot.debit } := by
  obtain ⟨none', some'⟩ := foldl_chargeCall_eq nodup e
  have slots : (slotsOf called).find? (fun x => decide (x.snapshot.addr = e.addr))
      = (called.find? fun p => decide (p.addr = e.addr)).map fun p => ⟨p, slotDownlink p, false⟩ := by
    unfold slotsOf
    rw [List.find?_map]
    rfl
  rw [slots]
  cases found : called.find? fun p => decide (p.addr = e.addr) with
  | none => exact none' found
  | some p => exact some' p found

/-- The flag's short tags, in the statement's words. -/
theorem Chosen.short_iff {s t : State} {c : Cell} {b : Beacon} {m : Mode} {cap : Nat} {order : List Entry}
    {called : List Snapshot} (h : Chosen s c b m cap order called t) :
    (∀ ahead e behind, order = ahead ++ e :: behind → (e.addr ∈ (slotsOf called).map (·.snapshot.addr)
      ↔ ((slotsOf called).countP fun x => decide (x.snapshot.addr ∈ ahead.map (·.addr))) < cap
        ∧ s.store.working.threshold (s.deliveryCall e) ≤ e.remaining))
    ∧ (Flag.budgetShort.isIn t.handler.flags = true ↔ Flag.budgetShort.isIn s.handler.flags = true
      ∨ ∃ ahead e behind, order = ahead ++ e :: behind
        ∧ ((slotsOf called).countP fun x => decide (x.snapshot.addr ∈ ahead.map (·.addr))) < cap
        ∧ e.remaining < s.store.working.threshold (s.deliveryCall e)) := by
  simp only [slotsOf_addrs, slotsOf_among]
  exact ⟨h.takes, h.short⟩

/-- Settles O46: the walk's choice, and what the calls leave. -/
theorem callsWithinMeans : Obligations.CallsWithinMeans := by
  intro c s hp directory filing fresh closed b w on capacity delivery threshold
  obtain ⟨called, calendar, handler, frame, chosen, leaves, off, noGrant, grant⟩ := instant_leaves filing c b s.air.geometry
  have nodup := chosen.calls.nodup
  have addrs := slotsOf_addrs called
  have needs (e : Entry) : (instantStart c b s).store.working.threshold ((instantStart c b s).deliveryCall e) = threshold e :=
    threshold_eq s e
  have walk := chosen.short_iff
  simp only [needs] at walk
  refine ⟨_, dueOrder (instantStart c b s) b (dueAddrs c b s), slotsOf called, (exec_instant_open hp fresh closed).trans
    (congrArg _ leaves), fun e => mem_dueOrder_start directory, dueOrder_pairwise _ b (dueAddrs_nodup filing c b), ?_, ?_, walk,
    fun d y => ?_, rfl, ?_, rfl, rfl, rfl, rfl, rfl, rfl, rfl, rfl, rfl, rfl, fun r hr others => ?_, fun d y out => ?_,
    chosen.handler, rfl, rfl, fun none => ⟨?_, ?_⟩, fun here => ⟨frame, if_pos here, ?_⟩, fun x hx => ?_⟩
  · rw [addrs]
    exact chosen.sublist
  · rw [slotsOf, List.length_map]
    exact chosen.few
  · refine (chosen.calendar d y).trans (or_congr mem_instantStart_calendar ?_)
    rw [addrs]
    refine exists_congr fun e => and_congr_right fun _ => and_congr_right fun out => and_congr_right fun _ => ?_
    rw [← fileDue_afterCalls out d]
    exact Iff.rfl
  · exact List.map_congr_left fun e _ => charged_eq nodup e
  · have same : called.foldl workCall r = r := foldl_workCall_other fun p hp =>
      others ⟨p, slotDownlink p, false⟩ (List.mem_map_of_mem (f := fun p => (⟨p, slotDownlink p, false⟩ : Slot)) hp)
    exact List.mem_map.mpr ⟨r, hr, same⟩
  · rw [addrs] at out
    exact (mem_foldl_orderBoost_other out _ d).trans mem_instantStart_boosts
  · rw [off none]
    rfl
  · exact congrArg (fun windows : Quad (Option Window) => ({ s.cells with windows := windows } : CellEngines))
      (if_neg (by rw [show s.transmits s.air.geometry c = false from none]; exact Bool.false_ne_true))
  · dsimp only
    rw [addrs]
    exact ⟨noGrant, grant⟩
  · obtain ⟨p, hp, rfl⟩ := List.mem_map.mp hx
    obtain ⟨ahead, behind, cut⟩ := List.append_of_mem hp
    obtain ⟨-, e, held, new, means, rfl⟩ := chosen.calls.at cut
    have short : s.store.working.threshold (((instantStart c b s).afterCalls ahead).deliveryCall e) ≤ e.remaining := by
      rw [deliveryCall_afterCalls]
      exact means
    obtain ⟨debit, carried⟩ := makeSnapshot_means (s := (instantStart c b s).afterCalls ahead) short c b s.store.mode ahead.length
    exact ⟨rfl, e, held, rfl, debit, carried⟩

end Sys2Proof.Machine
end

section
/-! The snapshot of a call (R73, R111, R131, R132, R136). -/

namespace Sys2Proof.Machine

/-! ### The boost order -/

/-- The group of a delivery on time (R127). -/
theorem urgencyGroup_three {r : Change} {i : CampaignIndex} (campaign : r.campaign = some i) :
    urgencyGroup (some r) = 3 ↔ (r.state = .queued ∨ r.state = .sending) ∧ r.late = false := by
  by_cases delivery : r.state = .queued ∨ r.state = .sending
  · rw [urgencyGroup_delivery delivery, campaign]
    cases r.late <;> simp [delivery]
  · refine iff_of_false (fun three => ?_) fun h => delivery h.1
    cases is : r.state
    case queued => exact delivery (.inl is)
    case sending => exact delivery (.inr is)
    all_goals
      rw [urgencyGroup] at three
      simp only [is] at three
      omega

/-- The six conditions of R132 as the model tests them. -/
theorem boostOrder_eq_some {s : State} {c : Cell} {b : Beacon} {e : Entry} {k : Nat} {u : Beacon} {r : Change}
    (live : s.liveRecord e = some r) : boostOrder s c b e k = some u
      ↔ ∃ act, r.campaign.bind s.activationBeacon = some act ∧ u = earlier act (b + BitVec.ofNat 24 s.store.working.span)
        ∧ urgencyGroup (some r) = 3 ∧ slack s b e r < 0 ∧ (∀ x, e.boostEnd = some x → isBefore x b = true)
        ∧ s.boostOf e.addr = none ∧ (s.planner.boosts.get c).length < 16 ∧ isAfter u b = true
        ∧ plannedCost s.store.working k + boostCost b u e.believed e.tagId s.store.working.boostWakeCost
          + s.store.working.threshold true ≤ e.remaining := by
  unfold boostOrder
  dsimp only
  rw [live]
  dsimp only
  cases active : r.campaign.bind s.activationBeacon with
  | none => simp
  | some act =>
    have notBoosted : (match e.boostEnd with | none => true | some x => isBefore x b) = true
        ↔ ∀ x, e.boostEnd = some x → isBefore x b = true := by
      cases e.boostEnd <;> simp
    dsimp only
    constructor
    · intro h
      obtain ⟨⟨group, late, not, rest⟩, is⟩ := Option.ite_none_right_eq_some.mp h
      obtain rfl := Option.some.inj is
      exact ⟨act, rfl, rfl, group, late, notBoosted.mp not, rest⟩
    · rintro ⟨_, is, rfl, group, late, not, rest⟩
      obtain rfl := Option.some.inj is
      exact if_pos ⟨group, late, notBoosted.mpr not, rest⟩

theorem boostOrder_none {s : State} {c : Cell} {b : Beacon} {e : Entry} {k : Nat} (live : s.liveRecord e = none) :
    boostOrder s c b e k = none := by
  unfold boostOrder
  dsimp only
  rw [live]

/-- Only a tag without a boost list entry is given a boost order. -/
theorem boostOrder_unlisted {s : State} {c : Cell} {b : Beacon} {e : Entry} {k : Nat} {u : Beacon}
    (h : boostOrder s c b e k = some u) : s.boostOf e.addr = none := by
  cases live : s.liveRecord e with
  | none => exact nomatch (boostOrder_none live).symm.trans h
  | some r =>
    obtain ⟨_, _, _, _, _, _, unlisted, _⟩ := (boostOrder_eq_some live).mp h
    exact unlisted

/-! ### The boost lists of the calls -/

/-- A boost order's entry joins the cell's list, since the tag has none. -/
theorem orderBoost_new {boosts : Quad (List BoostEntry)} {p : Snapshot} {u : Beacon} (order : p.boostOrder = some u)
    (unlisted : ∀ d, ∀ x ∈ boosts.get d, x.addr ≠ p.addr) :
    orderBoost boosts p = boosts.modify p.cell (insertBy (fun p q => decide (p.addr < q.addr)) ⟨p.addr, u, false⟩) := by
  have same : (boosts.map fun l => l.filter fun x => decide (x.addr ≠ p.addr)) = boosts :=
    Quad.ext_get fun d => by
      rw [Quad.get_map]
      exact List.filter_eq_self.mpr fun x hx => decide_eq_true (unlisted d x hx)
  unfold orderBoost
  rw [order, same]

/-- The boost lists after some calls: those before and an entry for each order, in the cell (R133). -/
theorem CallList.boosts {s : State} {c : Cell} {b : Beacon} {m : Mode} {called : List Snapshot} (h : CallList s c b m called) :
    (∀ d y, y ∈ (s.afterCalls called).planner.boosts.get d ↔ y ∈ s.planner.boosts.get d
      ∨ d = c ∧ ∃ p ∈ called, ∃ u, p.boostOrder = some u ∧ y = ⟨p.addr, u, false⟩)
    ∧ ((s.afterCalls called).planner.boosts.get c).length
      = (s.planner.boosts.get c).length + called.countP fun p => p.boostOrder.isSome := by
  induction h with
  | start => simp [State.afterCalls]
  | @call called e list held fresh means ih =>
    obtain ⟨members, count⟩ := ih
    have addr : (makeSnapshot (s.afterCalls called) c b m called.length e).addr = e.addr := rfl
    have cell : (makeSnapshot (s.afterCalls called) c b m called.length e).cell = c := rfl
    have unlisted : ∀ u, (makeSnapshot (s.afterCalls called) c b m called.length e).boostOrder = some u →
        (s.afterCalls called).boostOf e.addr = none := fun u order => boostOrder_unlisted order
    have more : ∀ p, (s.afterCalls (called ++ [p])).planner.boosts = orderBoost (s.afterCalls called).planner.boosts p :=
      fun p => List.foldl_append
    rw [more]
    generalize makeSnapshot (s.afterCalls called) c b m called.length e = p at addr cell unlisted
    cases order : p.boostOrder with
    | none =>
      have same : orderBoost (s.afterCalls called).planner.boosts p = (s.afterCalls called).planner.boosts := by
        unfold orderBoost
        rw [order]
      rw [same]
      refine ⟨fun d y => (members d y).trans ?_, ?_⟩
      · simp [order, or_and_right, exists_or]
      · rw [count, List.countP_append]
        simp [order]
    | some u =>
      have free := (boostOf_eq_none_iff _ _).mp (unlisted u order)
      rw [orderBoost_new order (addr ▸ free), cell]
      refine ⟨fun d y => ?_, ?_⟩
      · rw [Quad.get_modify]
        by_cases here : d = c
        · subst here
          rw [if_pos rfl, mem_insertBy, members]
          simp only [List.mem_append, List.mem_singleton, or_and_right, exists_or, exists_eq_left, order, Option.some.injEq,
            exists_eq_left', true_and]
          rw [or_comm, or_assoc]
        · rw [if_neg here, members]
          simp [here]
      · rw [Quad.get_modify, if_pos rfl, insertBy_length, count, List.countP_append]
        simp [order, Nat.add_assoc]

/-! ### The records of the calls -/

theorem min_add_min (a n d top : Nat) : min (min (a + n) top + d) top = min (a + (n + d)) top := by omega

/-- A record with the calls that name it, together (R73, R112). -/
theorem foldl_workCall_eq (called : List Snapshot) {q : Change} (some' : q.serial ≠ 0) :
    called.foldl workCall q =
      if called.filter (fun p => decide (p.serial = q.serial)) = [] then q
      else { q with
        calls := min (q.calls + (called.filter fun p => decide (p.serial = q.serial)).length) 255
        state := if q.state = .queued then .sending else q.state
        spent := min (q.spent + ((called.filter fun p => decide (p.serial = q.serial)).map (·.debit)).sum) 65535 } := by
  induction called using List.reverseRecOn with
  | nil => rfl
  | append_singleton called p ih =>
    rw [List.foldl_append, List.foldl_cons, List.foldl_nil, ih, List.filter_append]
    by_cases here : p.serial = q.serial
    · have one : [p].filter (fun p => decide (p.serial = q.serial)) = [p] := by simp [here]
      rw [one, if_neg (List.append_ne_nil_of_right_ne_nil _ (List.cons_ne_nil _ _))]
      by_cases first : called.filter (fun p => decide (p.serial = q.serial)) = []
      · rw [if_pos first, first, workCall, if_pos here.symm, if_neg some']
        simp
      · rw [if_neg first, workCall, if_pos here.symm]
        dsimp only
        have state : (if (if q.state = .queued then .sending else q.state) = .queued then ChangeState.sending
            else if q.state = .queued then .sending else q.state) = if q.state = .queued then .sending else q.state := by
          by_cases queued : q.state = .queued <;> simp [queued]
        rw [if_neg some', List.length_append, List.map_append, List.sum_append, List.length_singleton, List.map_singleton,
          List.sum_singleton, min_add_min, min_add_min, state]
    · have none : [p].filter (fun p => decide (p.serial = q.serial)) = [] := by simp [here]
      rw [none, List.append_nil]
      split
      · exact if_neg fun is => here is.symm
      · exact if_neg fun is => here is.symm

end Sys2Proof.Machine
end

section
/-! The rule of the snapshot, settled (R73, R111, R131, R132, R136, R144, R187). -/

namespace Sys2Proof.Machine

/-! ### The live change as a call finds it -/

/-- The part as a call finds it, behind the calls ahead of it. -/
def stateAt (c : Cell) (b : Beacon) (ahead : List Snapshot) (s : State) : State := (instantStart c b s).afterCalls ahead

section

variable (c : Cell) (b : Beacon) (ahead : List Snapshot) (s : State) (e : Entry)

theorem liveRecord_stateAt :
    (stateAt c b ahead s).liveRecord e = (s.liveRecord e).map fun q => ahead.foldl workCall q :=
  liveRecord_afterCalls (instantStart c b s) ahead e

/-- What calls do not change of a record is as in the state before the instant. -/
theorem liveRecord_stateAt_map {α : Type} {f : Change → α} (keeps : ∀ q r, WorkedOn q r → f r = f q) :
    ((stateAt c b ahead s).liveRecord e).map f = (s.liveRecord e).map f := by
  rw [liveRecord_stateAt, Option.map_map]
  congr 1
  funext q
  exact keeps q _ (foldl_workCall_worked ahead q)

theorem liveRecord_stateAt_any {p : Change → Bool} (keeps : ∀ q r, WorkedOn q r → p r = p q) :
    ((stateAt c b ahead s).liveRecord e).any p = (s.liveRecord e).any p := by
  have same := liveRecord_stateAt_map c b ahead s e keeps
  rw [liveRecord_stateAt] at same ⊢
  cases live : s.liveRecord e with
  | none => rfl
  | some q => exact keeps q _ (foldl_workCall_worked ahead q)

theorem deliveryCall_stateAt : (stateAt c b ahead s).deliveryCall e = s.deliveryCall e :=
  deliveryCall_afterCalls (instantStart c b s) ahead e

end

theorem deliveryCall_iff (s : State) (e : Entry) : s.deliveryCall e = true
    ↔ (∃ r, s.liveRecord e = some r ∧ (r.state = .queued ∨ r.state = .sending))
      ∧ 0 < ((s.liveRecord e).map fun r => r.blockCount - r.acked).getD 0 := by
  unfold State.deliveryCall
  cases s.liveRecord e with
  | none => simp
  | some r => simp

/-- The blocks of a delivery (R111, Table 6-3). -/
theorem slotBlocks_eq (w : Settings) {m : Mode} (sends : m ≠ .quiet) (e : Entry) (left boost : Nat) :
    slotBlocks w m e left boost =
      if w.blockCost = 0 then min (min (blocksPerSlot e.link) left) (if m = .day then 2 else 8)
      else min (min (min (blocksPerSlot e.link) left) (if m = .day then 2 else 8))
        ((e.remaining - w.callCost - w.reportCost - boost) / w.blockCost) := by
  have cap : modeCap m = if m = .day then 2 else 8 := by
    cases m
    case quiet => exact absurd rfl sends
    all_goals rfl
  unfold slotBlocks
  rw [tierBlocks_eq, cap]

/-- The order flags of Table 11-10, bit by bit. -/
theorem orderFlags_eq (p : Snapshot) : orderFlags p = BitVec.ofNat 8
    ((if p.change.any (fun ch => ch.effective.isNone) then 1 else 0)
      + (if p.withdraw then 2 else 0) + (if p.verify then 4 else 0) + (if p.flash then 8 else 0)
      + (if p.wakeOrder.isSome then 16 else 0) + (if p.boostOrder.isSome then 32 else 0)) := by
  have bit (n : Nat) (x : Bool) : n * x.toNat = if x then n else 0 := by cases x <;> simp
  have one (x : Bool) : x.toNat = if x then 1 else 0 := by cases x <;> rfl
  unfold orderFlags
  dsimp only
  rw [bit, bit, bit, bit, bit]
  cases p.change with
  | none => rfl
  | some ch => simp only [one, Option.any_some]

/-! ### The boost order -/

/-- The slack of a delivery on time orders it (R129). -/
theorem slack_stateAt {c : Cell} {b : Beacon} {ahead : List Snapshot} {s : State} {e : Entry} {r q : Change}
    (worked : WorkedOn r q) : slack (stateAt c b ahead s) b e q = slack s b e r := by
  unfold slack
  rw [worked.blockCount, worked.acked, worked.campaign]
  rfl

/-- The room of a cell's boost list as a call finds it: the entries that stay and the orders ahead of it (R132, R135). -/
theorem boosts_stateAt_length {c : Cell} {b : Beacon} {m : Mode} {ahead : List Snapshot} {s : State}
    (calls : CallList (instantStart c b s) c b m ahead) : ((stateAt c b ahead s).planner.boosts.get c).length
      = ((s.planner.boosts.get c).countP fun y => !isBefore y.boostEnd b) + ahead.countP fun p => p.boostOrder.isSome := by
  have start : ((instantStart c b s).planner.boosts.get c) = (s.planner.boosts.get c).filter fun y => !isBefore y.boostEnd b := by
    change (s.planner.boosts.modify c fun l => l.filter fun y => !isBefore y.boostEnd b).get c = _
    rw [Quad.get_modify, if_pos rfl]
  rw [List.countP_eq_length_filter, ← start]
  exact calls.boosts.2

theorem boostOf_stateAt {c : Cell} {b : Beacon} {ahead : List Snapshot} {s : State} {a : Nat} (fresh : a ∉ ahead.map (·.addr)) :
    (stateAt c b ahead s).boostOf a = none
      ↔ ∀ d, ∀ y ∈ s.planner.boosts.get d, y.addr = a → d = c ∧ isBefore y.boostEnd b = true := by
  rw [show (stateAt c b ahead s).boostOf a = (instantStart c b s).boostOf a from boostOf_afterCalls fresh, boostOf_eq_none_iff]
  constructor
  · intro free d y hy same
    by_contra stays
    exact free d y (mem_instantStart_boosts.mpr ⟨hy, stays⟩) same
  · intro ends d y hy same
    obtain ⟨held, stays⟩ := mem_instantStart_boosts.mp hy
    exact stays (ends d y held same)

/-- The six conditions of R132, of the state before the instant and the orders ahead. -/
theorem boostOrder_stateAt {c : Cell} {b : Beacon} {m : Mode} {ahead : List Snapshot} {s : State} {e : Entry}
    (calls : CallList (instantStart c b s) c b m ahead) (fresh : e.addr ∉ ahead.map (·.addr)) (k : Nat) (u : Beacon) :
    boostOrder (stateAt c b ahead s) c b e k = some u ↔ ∃ r i a, s.liveRecord e = some r
      ∧ (r.state = .queued ∨ r.state = .sending) ∧ r.late = false ∧ r.campaign = some i
      ∧ (s.campaigns.get i).activation = some a
      ∧ u = (if (b + BitVec.ofNat 24 s.store.working.span - a.beacon).toNat < 8388608 then a.beacon
          else b + BitVec.ofNat 24 s.store.working.span)
      ∧ (s.urgency b e).2 < 0
      ∧ (∀ x, e.boostEnd = some x → isBefore x b = true)
      ∧ (∀ d, ∀ y ∈ s.planner.boosts.get d, y.addr = e.addr → d = c ∧ isBefore y.boostEnd b = true)
      ∧ ((s.planner.boosts.get c).countP fun y => !isBefore y.boostEnd b) + ahead.countP (fun p => p.boostOrder.isSome) < 16
      ∧ isAfter u b = true
      ∧ plannedCost s.store.working k + boostPrice b u e.believed e.tagId s.store.working.boostWakeCost
        + plannedCost s.store.working 1 ≤ e.remaining := by
  cases live : s.liveRecord e with
  | none =>
    have dead : (stateAt c b ahead s).liveRecord e = none := by rw [liveRecord_stateAt, live]; rfl
    rw [boostOrder_none dead]
    exact iff_of_false (fun h => nomatch h) fun ⟨_, _, _, h, _⟩ => nomatch h
  | some r =>
    have worked := foldl_workCall_worked ahead r
    have now : (stateAt c b ahead s).liveRecord e = some (ahead.foldl workCall r) := by rw [liveRecord_stateAt, live]; rfl
    have delivers : ((ahead.foldl workCall r).state = .queued ∨ (ahead.foldl workCall r).state = .sending)
        ↔ (r.state = .queued ∨ r.state = .sending) := by
      obtain same | ⟨queued, sending⟩ := worked.state
      · rw [same]
      · exact iff_of_true (.inr sending) (.inl queued)
    have reserve : (stateAt c b ahead s).store.working.threshold true = plannedCost s.store.working 1 := by
      change s.store.working.callCost + s.store.working.blockCost + s.store.working.reportCost
        = s.store.working.callCost + 1 * s.store.working.blockCost + s.store.working.reportCost
      rw [Nat.one_mul]
    have behind {i : CampaignIndex} (campaign : r.campaign = some i) (late : r.late = false)
        (delivery : r.state = .queued ∨ r.state = .sending) : (s.urgency b e).2 = slack s b e r := by
      rw [urgency_delivery live delivery, if_neg (by simp [late, campaign])]
    rw [boostOrder_eq_some now, boosts_stateAt_length calls, boostOf_stateAt fresh, slack_stateAt worked, worked.campaign,
      boostCost_eq_price, reserve]
    constructor
    · rintro ⟨act, active, rfl, group, short, notBoosted, unlisted, room, after, means⟩
      obtain ⟨i, campaign, act'⟩ := Option.bind_eq_some_iff.mp active
      obtain ⟨a, activation, rfl⟩ := Option.map_eq_some_iff.mp act'
      obtain ⟨delivery, late⟩ := (urgencyGroup_three (worked.campaign.trans campaign)).mp group
      rw [worked.late] at late
      rw [delivers] at delivery
      refine ⟨r, i, a, rfl, delivery, late, campaign, activation, ?_, ?_, notBoosted, unlisted, room, after, means⟩
      · unfold earlier atOrAfter
        simp only [decide_eq_true_eq]
        rfl
      · rw [behind campaign late delivery]
        exact short
    · rintro ⟨_, i, a, is, delivery, late, campaign, activation, rfl, short, notBoosted, unlisted, room, after, means⟩
      obtain rfl := Option.some.inj is
      refine ⟨a.beacon, ?_, ?_, ?_, ?_, notBoosted, unlisted, room, after, means⟩
      · rw [campaign]
        exact congrArg (Option.map (·.beacon)) activation
      · unfold earlier atOrAfter
        simp only [decide_eq_true_eq]
        rfl
      · exact (urgencyGroup_three (worked.campaign.trans campaign)).mpr ⟨delivers.mpr delivery, worked.late.trans late⟩
      · rw [← behind campaign late delivery]
        exact short

/-! ### The snapshot -/

/-- The blocks a snapshot carries, by the boost it orders (R111). -/
theorem carried_eq (s : State) (m : Mode) (c : Cell) (b : Beacon) (ahead : List Snapshot) (n : Nat) (e : Entry) :
    (makeSnapshot (stateAt c b ahead s) c b m n e).carried = if s.deliveryCall e then
        slotBlocks s.store.working m e (((s.liveRecord e).map fun r => r.blockCount - r.acked).getD 0)
          (((makeSnapshot (stateAt c b ahead s) c b m n e).boostOrder.map fun u =>
            boostPrice b u e.believed e.tagId s.store.working.boostWakeCost).getD 0)
      else 0 := by
  have left := liveRecord_stateAt_map c b ahead s e (f := fun r => r.blockCount - r.acked)
    fun q r worked => by rw [worked.blockCount, worked.acked]
  have delivery := deliveryCall_stateAt c b ahead s e
  have cost := funext fun u => boostCost_eq_price b u e.believed e.tagId s.store.working.boostWakeCost
  rw [← left, ← delivery, ← cost]
  rfl

section

variable (c : Cell) (b : Beacon) (m : Mode) (ahead : List Snapshot) (s : State) (n : Nat) (e : Entry)

theorem serial_stateAt : (makeSnapshot (stateAt c b ahead s) c b m n e).serial
    = ((s.liveRecord e).map (·.serial)).getD 0 :=
  congrArg (Option.getD · 0) (liveRecord_stateAt_map c b ahead s e fun _ _ worked => worked.serial)

/-- What a snapshot takes of the live change is what it is before the instant (R73). -/
theorem change_stateAt : (makeSnapshot (stateAt c b ahead s) c b m n e).change = (s.liveRecord e).map fun r =>
    ⟨r.blockCount, r.checksum, r.acked, r.campaign.bind fun i => (s.campaigns.get i).activation.map (·.beacon)⟩ :=
  liveRecord_stateAt_map c b ahead s e (f := namedChange (stateAt c b ahead s)) fun q r worked => by
    unfold namedChange
    rw [worked.blockCount, worked.checksum, worked.acked, worked.campaign]

/-- A state that no call enters or leaves. -/
theorem stateIs_stateAt {st : ChangeState} (queued : st ≠ .queued) (sending : st ≠ .sending) :
    ((stateAt c b ahead s).liveRecord e).any (fun r => decide (r.state = st)) = true
      ↔ ∃ r, s.liveRecord e = some r ∧ r.state = st := by
  rw [liveRecord_stateAt_any c b ahead s e fun q r worked => by
    obtain same | ⟨was, is⟩ := worked.state
    · rw [same]
    · rw [was, is, decide_eq_false sending.symm, decide_eq_false queued.symm]]
  cases s.liveRecord e <;> simp

theorem first_stateAt {r : Change} (live : s.liveRecord e = some r) (delivery : s.deliveryCall e = true) :
    (makeSnapshot (stateAt c b ahead s) c b m n e).first = r.acked := by
  refine (if_pos ((deliveryCall_stateAt c b ahead s e).trans delivery)).trans ?_
  rw [liveRecord_stateAt_map c b ahead s e fun _ _ worked => worked.acked, live]
  rfl

theorem blocks_stateAt : (makeSnapshot (stateAt c b ahead s) c b m n e).blocks
    = ((s.pool.blocksOf (makeSnapshot (stateAt c b ahead s) c b m n e).serial).drop
        (makeSnapshot (stateAt c b ahead s) c b m n e).first).take (makeSnapshot (stateAt c b ahead s) c b m n e).carried := rfl

/-- The blocks a boost order's price leaves room for (R111, R132). -/
theorem boost_stateAt : (makeSnapshot (stateAt c b ahead s) c b m n e).boostOrder
    = boostOrder (stateAt c b ahead s) c b e (if s.deliveryCall e then
        slotBlocks s.store.working m e (((s.liveRecord e).map fun r => r.blockCount - r.acked).getD 0) 0 else 0) := by
  have left := liveRecord_stateAt_map c b ahead s e (f := fun r => r.blockCount - r.acked)
    fun q r worked => by rw [worked.blockCount, worked.acked]
  have delivery := deliveryCall_stateAt c b ahead s e
  rw [← left, ← delivery]
  rfl

end

/-- The window of an instant that opens one. -/
theorem instant_opened {c : Cell} {s t : State} {w : Window} (filing : OneFiling s)
    (run : exec (.cellBeaconInstant c .afterStart) s = .next t) (closed : s.cells.windows.get c = none)
    (opened : t.cells.windows.get c = some w) : s.store.mode ≠ .quiet
      ∧ ∃ called calendar handler cap, Chosen (instantStart c s.air.beacon s) c s.air.beacon s.store.mode cap
          (dueOrder (instantStart c s.air.beacon s) s.air.beacon (dueAddrs c s.air.beacon s)) called
          ((instantStart c s.air.beacon s).afterWalk called calendar handler)
        ∧ w.slots = slotsOf called
        ∧ t.table = ((instantStart c s.air.beacon s).afterCalls called).table
        ∧ t.planner.boosts = ((instantStart c s.air.beacon s).afterCalls called).planner.boosts
        ∧ t.pool = s.pool ∧ t.campaigns = s.campaigns := by
  have moved : t ≠ s := by
    rintro rfl
    exact nomatch closed.symm.trans opened
  have hp : s.powered = true := by
    by_contra off
    rw [exec_off _ (Bool.not_eq_true _ ▸ off) (fun _ => Instr.noConfusion)] at run
    exact moved (Host.Outcome.next.inj run).symm
  have fresh : s.planner.last.get c ≠ s.air.beacon := by
    intro same
    rw [exec_cellBeaconInstant hp] at run
    exact moved ((Host.Outcome.next.inj run).symm.trans (if_neg fun h => ((instantOpen_iff s c _).mp h).1 same))
  rw [exec_instant_open hp fresh closed] at run
  obtain rfl := Host.Outcome.next.inj run
  obtain ⟨called, calendar, handler, frame, chosen, leaves, -, -, -⟩ := instant_leaves filing c s.air.beacon s.air.geometry
  rw [leaves] at opened ⊢
  cases on : s.transmits s.air.geometry c with
  | false =>
    rw [on] at opened
    exact nomatch closed.symm.trans opened
  | true =>
    rw [on] at opened
    obtain rfl := Option.some.inj ((Quad.get_set_same s.cells.windows c _).symm.trans opened)
    exact ⟨((transmits_iff s _ c).mp on).2.2, called, calendar, handler, _, chosen, rfl, rfl, rfl, rfl, rfl⟩

/-- The records of the calls, in the words of the slots. -/
theorem foldl_workCall_slots (called : List Snapshot) {q : Change} (some' : q.serial ≠ 0) :
    called.foldl workCall q =
      if (slotsOf called).filter (fun x => decide (x.snapshot.serial = q.serial)) = [] then q
      else { q with
        calls := min (q.calls + ((slotsOf called).filter fun x => decide (x.snapshot.serial = q.serial)).length) 255
        state := if q.state = .queued then .sending else q.state
        spent := min (q.spent
          + (((slotsOf called).filter fun x => decide (x.snapshot.serial = q.serial)).map (·.snapshot.debit)).sum) 65535 } := by
  have named : (slotsOf called).filter (fun x => decide (x.snapshot.serial = q.serial))
      = slotsOf (called.filter fun p => decide (p.serial = q.serial)) := by
    unfold slotsOf
    rw [List.filter_map]
    rfl
  have debits (l : List Snapshot) : (slotsOf l).map (·.snapshot.debit) = l.map (·.debit) := by simp [slotsOf]
  have length (l : List Snapshot) : (slotsOf l).length = l.length := List.length_map _
  have empty (l : List Snapshot) : slotsOf l = [] ↔ l = [] := List.map_eq_nil_iff
  rw [foldl_workCall_eq called some', named, debits, length]
  simp only [empty]

/-- A slot's place in the window is its snapshot's place in the call list. -/
theorem slotsOf_cut {called : List Snapshot} {before after : List Slot} {x : Slot} (cut : slotsOf called = before ++ x :: after) :
    ∃ ahead p behind, called = ahead ++ p :: behind ∧ before = slotsOf ahead ∧ x = ⟨p, slotDownlink p, false⟩ := by
  obtain ⟨ahead, rest, rfl, rfl, tail⟩ := List.map_eq_append_iff.mp cut
  obtain ⟨p, behind, rfl, rfl, -⟩ := List.map_eq_cons_iff.mp tail
  exact ⟨ahead, p, behind, rfl, rfl, rfl⟩

/-- The downlink of a slot, byte by byte (Table 11-10, R187). -/
theorem slotDownlink_eq (p : Snapshot) {flags : Nat} (bits : orderFlags p = BitVec.ofNat 8 flags) :
    slotDownlink p = (withCheck (0xB2 :: le 4 p.tagId.toNat ++ le 2 p.addr ++ le 2 p.serial.toNat
        ++ le 1 ((p.change.map (·.blockCount)).getD 0) ++ le 2 ((p.change.map (·.checksum.toNat)).getD 0)
        ++ le 3 (((p.change.bind (·.effective)).map (·.toNat)).getD 0) ++ le 1 flags ++ le 1 p.first ++ le 1 p.carried
        ++ le 1 ((p.wakeOrder.map (·.val)).getD 0) ++ le 3 ((p.boostOrder.map (·.toNat)).getD 0)))
      :: p.blocks.mapIdx fun j block => withCheck (0xB3 :: le 1 (p.first + j) ++ block) := by
  unfold slotDownlink slotHeader
  rw [bits]
  rfl

/-- Settles O47: the snapshot of each slot from the state as its call finds it, and the calls together. -/
theorem snapshotRule : Obligations.SnapshotRule := by
  intro c w s t directory filing bounds run closed opened b costs
  obtain ⟨sends, called, calendar, handler, cap, chosen, slots, table, boosts, pool, campaigns⟩ :=
    instant_opened filing run closed opened
  refine ⟨fun before x after cut => ?_, ?_, fun d y => ?_, pool, campaigns⟩
  · rw [slots] at cut
    obtain ⟨ahead, p, behind, rfl, rfl, rfl⟩ := slotsOf_cut cut
    obtain ⟨calls, e, held, fresh, -, made⟩ := chosen.calls.at rfl
    change p = makeSnapshot (stateAt c b ahead s) c b s.store.mode ahead.length e at made
    have addr : p.addr = e.addr := congrArg Snapshot.addr made
    refine ⟨e, addr ▸ held, ?_⟩
    intro x live left delivery most carries paid price
    have deliver : s.deliveryCall e = true ↔ delivery := deliveryCall_iff s e
    have blocks (boost : Nat) : slotBlocks costs s.store.mode e left boost = carries boost := slotBlocks_eq costs sends e left boost
    have carried := carried_eq s s.store.mode c b ahead ahead.length e
    have taken := blocks_stateAt c b s.store.mode ahead s ahead.length e
    have boost := boost_stateAt c b s.store.mode ahead s ahead.length e
    have serial : x.serial = (live.map (·.serial)).getD 0 :=
      (congrArg Snapshot.serial made).trans (serial_stateAt c b s.store.mode ahead s ahead.length e)
    have counted : ((slotsOf ahead).countP fun y => y.snapshot.boostOrder.isSome) = ahead.countP fun p => p.boostOrder.isSome :=
      List.countP_map
    rw [← made] at carried taken boost
    refine ⟨congrArg Snapshot.cell made, congrArg Snapshot.beacon made,
      (congrArg Snapshot.slot made).trans (List.length_map _).symm, addr, congrArg Snapshot.tagId made, serial,
      (congrArg Snapshot.change made).trans (change_stateAt c b s.store.mode ahead s ahead.length e),
      congrArg Snapshot.wakeOrder made, congrArg Snapshot.flash made,
      (Bool.eq_iff_iff.mp (congrArg Snapshot.withdraw made)).trans (stateIs_stateAt c b ahead s e (by decide) (by decide)),
      (Bool.eq_iff_iff.mp (congrArg Snapshot.verify made)).trans (stateIs_stateAt c b ahead s e (by decide) (by decide)),
      fun idle => ?_, fun r is delivers => ?_, ?_, fun u => ?_, slotDownlink_eq p (orderFlags_eq p)⟩
    · have nothing : p.carried = 0 := carried.trans (if_neg (mt deliver.mp idle))
      rw [nothing] at taken
      exact ⟨nothing, taken.trans List.take_zero⟩
    · have now := deliver.mpr delivers
      have first : p.first = r.acked :=
        (congrArg Snapshot.first made).trans (first_stateAt c b s.store.mode ahead s ahead.length e is now)
      have named : p.serial = r.serial := serial.trans (by rw [is]; rfl)
      refine ⟨first, (carried.trans (if_pos now)).trans (blocks _), ?_⟩
      rw [← first, ← named]
      exact taken
    · have debit := (congrArg Snapshot.debit made).trans (makeSnapshot_debit _ _ _ _ _ _)
      rw [← made] at debit
      exact debit
    · have room : ∀ r, live = some r → (r.state = .queued ∨ r.state = .sending) →
          (if s.deliveryCall e then slotBlocks costs s.store.mode e left 0 else 0) = if 0 < left then carries 0 else 0 := by
        intro r is delivers
        rw [blocks]
        by_cases blocksLeft : 0 < left
        · rw [if_pos blocksLeft]
          exact if_pos (deliver.mpr ⟨⟨r, is, delivers⟩, blocksLeft⟩)
        · rw [if_neg blocksLeft]
          exact if_neg fun now => blocksLeft (deliver.mp now).2
      change p.boostOrder = some u ↔ _
      rw [boost, boostOrder_stateAt calls fresh, counted]
      refine exists_congr fun r => exists_congr fun i => exists_congr fun a => and_congr_right fun is =>
        and_congr_right fun delivers => ?_
      have spent := room r is delivers
      rw [spent]
      exact Iff.rfl
  · rw [table]
    refine congrArg (fun records : List Change => ({ s.table with records := records } : ChangeTable))
      (List.map_congr_left fun q hq => ?_)
    rw [slots]
    exact foldl_workCall_slots called (bounds.2.2 q hq).1
  · rw [boosts]
    refine (chosen.calls.boosts.1 d y).trans (or_congr mem_instantStart_boosts (and_congr_right fun _ => ?_))
    rw [slots]
    simp [slotsOf]

end Sys2Proof.Machine
end

section
/-! One record at its campaign's cut (Table 5-5, R95 to R97): what it becomes, and what passes with it. -/

namespace Sys2Proof.Machine

/-- One record's turn at the cut of campaign `i`: the record of serial `k`, of the tag at `a`, becomes `r'`, ended or not; the
campaign counts `late` and `stale`; the outcome records `moved` pass. -/
structure CutOne (i : CampaignIndex) (k : Serial) (a : Nat) (r' : Change) (ends : Bool) (late stale : Nat)
    (moved : List OutcomeRecord) (t t' : State) : Prop where
  base : SameBase t t'
  dir : t'.dir = { t.dir with entries := t.dir.entries.map fun e => if ends then e.cleared a k else e }
  pool : t'.pool = if ends then t.pool.release k else t.pool
  last : t'.planner.last = t.planner.last
  boosts : t'.planner.boosts
    = if ends then t.planner.boosts.map fun l => l.filter fun y => decide (y.addr ≠ a) else t.planner.boosts
  calendar : ∀ d y, y.addr ≠ a → (y ∈ t'.planner.calendar.get d ↔ y ∈ t.planner.calendar.get d)
  outcomes : t'.table.outcomes = t.table.outcomes ++ moved
  records : t'.table.records = (t.table.records.map fun x => if x.serial = k then r' else x).filter fun x =>
    decide (x.serial ∉ moved.map (·.serial))
  nextSerial : t'.table.nextSerial = t.table.nextSerial
  nextSequence : t'.table.nextSequence = t.table.nextSequence
  moves : ∀ o ∈ moved, ∃ x ∈ t.table.records.map fun x => if x.serial = k then r' else x, x.outcomeRecord = some o
  once : (moved.map (·.serial)).Nodup
  stays : ends = false → moved = [] ∧ t'.table.retire = t.table.retire
  joins : ends = true → k ∈ moved.map (·.serial) ++ t'.table.retire
  alone : ends = true → t.table.retire = [] → moved.map (·.serial) ++ t'.table.retire = [k]
  full : ends = true → 1024 ≤ t.table.outcomes.length → moved = [] ∧ t'.table.retire = t.table.retire ++ [k]
  settled : ends = true → t'.table.retire = [] ∨ 1024 ≤ t'.table.outcomes.length
  campaigns : ∀ j, (t'.campaigns.get j, t'.handler.notices.campaignDone.get j)
    = (moved.filter fun o => decide (o.campaign = some j)).foldl (tallyOne t.air.beacon)
      (if j = i then { t.campaigns.get j with
          lateCount := (t.campaigns.get j).lateCount + late
          staleCount := (t.campaigns.get j).staleCount + stale
          live := (t.campaigns.get j).live - if ends then 1 else 0 }
        else t.campaigns.get j, t.handler.notices.campaignDone.get j)
  flags : ∀ f, f ≠ Flag.outcomeBacklog →
    f.isIn t'.handler.flags = (f.isIn t.handler.flags || (decide (f = .staleCut) && decide (0 < stale)))

/-! ### A record that stays -/

/-- A record that becomes another without ending, with its campaign's counts. -/
theorem cutOne_stays {i : CampaignIndex} {k : Serial} {a : Nat} {r' : Change} {late stale : Nat} {t t' : State}
    (base : SameBase t t') (dir : t'.dir = t.dir) (pool : t'.pool = t.pool) (last : t'.planner.last = t.planner.last)
    (boosts : t'.planner.boosts = t.planner.boosts)
    (calendar : ∀ d y, y.addr ≠ a → (y ∈ t'.planner.calendar.get d ↔ y ∈ t.planner.calendar.get d))
    (table : t'.table = { t.table with records := t.table.records.map fun x => if x.serial = k then r' else x })
    (campaigns : t'.campaigns = t.campaigns.modify i fun c => { c with
      lateCount := c.lateCount + late, staleCount := c.staleCount + stale })
    (notices : t'.handler.notices.campaignDone = t.handler.notices.campaignDone)
    (flags : ∀ f, f ≠ Flag.outcomeBacklog →
      f.isIn t'.handler.flags = (f.isIn t.handler.flags || (decide (f = .staleCut) && decide (0 < stale)))) :
    CutOne i k a r' false late stale [] t t' where
  base := base
  dir := by
    rw [dir]
    exact congrArg (fun es : List Entry => ({ t.dir with entries := es } : Directory)) (List.map_id _).symm
  pool := pool
  last := last
  boosts := boosts
  calendar := calendar
  outcomes := by rw [table, List.append_nil]
  records := by
    rw [table]
    exact (List.filter_eq_self.mpr fun _ _ => decide_eq_true List.not_mem_nil).symm
  nextSerial := by rw [table]
  nextSequence := by rw [table]
  moves := fun o ho => (List.not_mem_nil ho).elim
  once := List.nodup_nil
  stays := fun _ => ⟨rfl, by rw [table]⟩
  joins := fun h => nomatch h
  alone := fun h => nomatch h
  full := fun h => nomatch h
  settled := fun h => nomatch h
  campaigns := fun j => by
    rw [campaigns, notices, Quad.get_modify]
    rfl
  flags := flags

/-- Nothing happens to a record VERIFYING or FINISHED. -/
theorem cutOne_nothing {t : State} (law : TableLaw t) {k : Serial} {r : Change} (hr : t.recordOf k = some r) (i : CampaignIndex)
    (a : Nat) : CutOne i k a r false 0 0 [] t t :=
  cutOne_stays .rfl rfl rfl rfl rfl (fun _ _ _ => Iff.rfl) (recordBecomes_stays law hr a).table
    (Quad.ext_get fun j => by
      rw [Quad.get_modify]
      split <;> rfl) rfl fun f _ => by simp

/-- A STAGED record becomes VERIFYING, and the Call Planner is told. -/
theorem cutOne_staged {t : State} (law : TableLaw t) {k : Serial} {r : Change} (hr : t.recordOf k = some r) (i : CampaignIndex) :
    CutOne i k r.addr { r with state := .verifying } false 0 0 [] t
      (workNotice r.addr (updRecord k (fun r => { r with state := .verifying }) t)) := by
  obtain ⟨base, dir, handler, table, pool, campaigns, last, boosts, calendar⟩ :=
    (updRecord_becomes law hr r.addr fun r => { r with state := .verifying }).told
  exact cutOne_stays base dir pool last boosts calendar table
    (campaigns.trans (Quad.ext_get fun j => by
      rw [Quad.get_modify]
      split <;> rfl)) (by rw [handler]) fun f _ => by rw [handler]; simp

/-- A record with a displaced version is marked STALE_CUT (R71, R96). -/
theorem cutOne_stale {t : State} (law : TableLaw t) {k : Serial} {r : Change} (hr : t.recordOf k = some r) (i : CampaignIndex)
    (a : Nat) : CutOne i k a { r with staleCut := true } false 0 1 [] t
      (raiseFlag .staleCut (updCampaign (some i) (fun c => { c with staleCount := c.staleCount + 1 })
        (updRecord k (fun r => { r with staleCut := true }) t))) := by
  obtain ⟨base, dir, handler, table, pool, campaigns, last, boosts, calendar⟩ :=
    updRecord_becomes law hr a fun r => { r with staleCut := true }
  refine cutOne_stays ((base.trans (updCampaign_base _ _ _)).trans (raiseFlag_base _ _)) dir pool last boosts calendar table rfl
    (raiseFlag_notices _ _).done fun f _ => ?_
  rw [isIn_raiseFlag]
  simp
  rfl

/-- Under APPLY a delivery is marked LATE (R96). -/
theorem cutOne_late {t : State} (law : TableLaw t) {k : Serial} {r : Change} (hr : t.recordOf k = some r) (i : CampaignIndex)
    (a : Nat) : CutOne i k a { r with late := true } false 1 0 [] t
      (updCampaign (some i) (fun c => { c with lateCount := c.lateCount + 1 })
        (updRecord k (fun r => { r with late := true }) t)) := by
  obtain ⟨base, dir, handler, table, pool, campaigns, last, boosts, calendar⟩ :=
    updRecord_becomes law hr a fun r => { r with late := true }
  refine cutOne_stays (base.trans (updCampaign_base _ _ _)) dir pool last boosts calendar table rfl rfl fun f _ => ?_
  simp
  rfl

/-! ### A record that ends -/

/-- All that can pass has passed; where the outcome list is full, that is nothing. -/
theorem passAll_through (s : State) :
    ∃ j, PassedThrough s (passAll s) j ∧ (1024 ≤ s.table.outcomes.length → j = 0) := by
  by_cases full : 1024 ≤ s.table.outcomes.length
  · have same : passAll s = s := by
      unfold passAll
      cases s.table.retire.length with
      | zero => rfl
      | succ n => exact if_pos (.inr full)
    rw [same]
    exact ⟨0, .refl (.inr full), fun _ => rfl⟩
  · obtain ⟨j, hj⟩ := passRecords_through (s := s) le_rfl
    exact ⟨j, hj, fun h => absurd h full⟩

theorem mem_outcomesOf {s : State} {ks : List Serial} {o : OutcomeRecord} :
    o ∈ s.outcomesOf ks ↔ ∃ k ∈ ks, ∃ r, s.recordOf k = some r ∧ r.outcomeRecord = some o := by
  simp only [State.outcomesOf, List.mem_filterMap, List.mem_eraseDups, Option.bind_eq_some_iff]

theorem eraseDups_nodup {α : Type} [DecidableEq α] (l : List α) : l.eraseDups.Nodup := by
  induction hn : l.length using Nat.strong_induction_on generalizing l with
  | _ n ih =>
    cases l with
    | nil => exact List.nodup_nil
    | cons a l =>
      have shorter : (l.filter fun b => !b == a).length < n := by
        have := List.length_filter_le (fun b => !b == a) l
        rw [← hn, List.length_cons]
        omega
      rw [List.eraseDups_cons, List.nodup_cons]
      exact ⟨by simp, ih _ shorter _ rfl⟩

/-- No record passes twice. -/
theorem outcomesOf_nodup (s : State) (ks : List Serial) : ((s.outcomesOf ks).map (·.serial)).Nodup := by
  have names : ∀ ks : List Serial, ((ks.filterMap fun k => (s.recordOf k).bind Change.outcomeRecord).map (·.serial)).Sublist ks := by
    intro ks
    induction ks with
    | nil => exact .slnil
    | cons k ks ih =>
      rw [List.filterMap_cons]
      split
      · exact ih.cons k
      · next o leaves =>
        obtain ⟨r, hr, ho⟩ := Option.bind_eq_some_iff.mp leaves
        rw [List.map_cons, outcomeRecord_serial hr ho]
        exact ih.cons_cons k
  exact (eraseDups_nodup ks).sublist (names _)

/-- A finishing at the cut (R81, R82, R97). -/
theorem cutOne_ends {t : State} (law : TableLaw t) {k : Serial} {r : Change} (hr : t.recordOf k = some r) {i : CampaignIndex}
    (campaign : r.campaign = some i) (code : OutcomeCode) :
    ∃ moved, CutOne i k r.addr (r.closed code t.air.beacon) true 0 0 moved t (finish k code false t) := by
  obtain rfl := recordOf_serial hr
  set u : State := { dropBoost r.addr (clearLive r.addr r.serial (endRecord r.serial code r t)) with
    planner.calendar := (workNotice r.addr
      (dropBoost r.addr (clearLive r.addr r.serial (closeRecord r.serial code t)))).planner.calendar } with hu
  have finishes : finish r.serial code false t = joinRetire r.serial u := finish_eq code hr
  set v : State := { u with table.retire := u.table.retire ++ [r.serial] } with hv
  obtain ⟨j, ⟨table, stop, -, counted, -⟩, first⟩ := passAll_through v
  obtain ⟨noteTable, noteCampaigns, noteNotices⟩ := noteBacklog_rest r.serial (passAll v)
  have joined : joinRetire r.serial u = noteBacklog r.serial (passAll v) := joinRetire_eq r.serial u
  have same := endRecord_table r.serial code r t
  have records : v.table.records = t.table.records.map fun x => if x.serial = r.serial then r.closed code t.air.beacon else x := by
    rw [← map_at_record law hr (Change.closed code t.air.beacon)]
    exact congrArg (·.records) same
  have retire : v.table.retire = t.table.retire ++ [r.serial] := by
    have queue := congrArg (·.retire) same
    exact congrArg (· ++ [r.serial]) queue
  have outcomes : v.table.outcomes = t.table.outcomes := congrArg (·.outcomes) same
  have closed : v.recordOf r.serial = some (r.closed code t.air.beacon) := by
    unfold State.recordOf
    rw [if_neg (recordOf_ne_zero hr), records]
    exact find?_replaced (r := r.closed code t.air.beacon) ⟨r, recordOf_mem hr, rfl⟩
  have passes : v.outcomesOf [r.serial] = [r.finishedWith code t.air.beacon] := by
    unfold State.outcomesOf
    rw [show [r.serial].eraseDups = [r.serial] from rfl, List.filterMap_cons, closed]
    rfl
  have campaigns : v.campaigns = t.campaigns.modify i fun c => { c with live := c.live - 1 } := by
    have counts : (endRecord r.serial code r t).campaigns = t.campaigns.modify i fun c => { c with live := c.live - 1 } := by
      unfold endRecord
      rw [campaign]
      rfl
    exact counts
  have handler : v.handler = t.handler ∧ v.air = t.air := by
    have kept : (endRecord r.serial code r t).handler = t.handler ∧ (endRecord r.serial code r t).air = t.air := by
      unfold endRecord
      rw [campaign]
      exact ⟨rfl, rfl⟩
    exact kept
  refine ⟨v.outcomesOf (v.table.retire.take j), ?_⟩
  exact
    { base := (finish_frame r.serial code false t).1
      dir := (finish_dir code hr).trans (clearLive_dir r.addr r.serial t)
      pool := (finish_frame r.serial code false t).2.2.trans (if_pos (by rw [hr]; rfl))
      last := by rw [finish_planner hr]
      boosts := by rw [finish_planner hr]; rfl
      calendar := (finish_othersKept hr code).calendar
      outcomes := by rw [finishes, joined, noteTable, table, outcomes]
      records := by rw [finishes, joined, noteTable, table, records]
      nextSerial := by
        rw [finishes, joined, noteTable, table]
        exact congrArg (·.nextSerial) same
      nextSequence := by
        rw [finishes, joined, noteTable, table]
        exact congrArg (·.nextSequence) same
      moves := fun o ho => by
        obtain ⟨k, -, x, hx, leaves⟩ := mem_outcomesOf.mp ho
        exact ⟨x, records ▸ recordOf_mem hx, leaves⟩
      once := outcomesOf_nodup _ _
      stays := fun h => nomatch h
      joins := fun _ => by
        rw [finishes, joined, noteTable, table]
        have member : r.serial ∈ v.table.retire.take j ++ v.table.retire.drop j := by
          rw [List.take_append_drop, retire]
          simp
        obtain passed | waits := List.mem_append.mp member
        · exact List.mem_append_left _ (List.mem_map.mpr
            ⟨r.finishedWith code t.air.beacon, mem_outcomesOf.mpr ⟨r.serial, passed, _, closed, rfl⟩, rfl⟩)
        · exact List.mem_append_right _ waits
      alone := fun _ empty => by
        rw [finishes, joined, noteTable, table]
        rw [empty, List.nil_append] at retire
        rw [retire]
        cases j with
        | zero => rfl
        | succ j =>
          rw [List.take_succ_cons, List.take_nil, List.drop_succ_cons, List.drop_nil, passes]
          rfl
      full := fun _ full => by
        rw [finishes, joined, noteTable, table, first (by rw [outcomes]; exact full)]
        exact ⟨rfl, retire⟩
      settled := fun _ => by
        rw [finishes, joined, noteTable]
        rw [table] at stop ⊢
        exact stop
      campaigns := fun j' => by
        rw [finishes, joined, noteCampaigns, noteNotices.done, counted j', handler.1, handler.2, campaigns, Quad.get_modify]
        rfl
      flags := fun f other => by
        rw [finish_flags other hr code]
        simp }

end Sys2Proof.Machine
end

section
/-! A record's whole turn at the cut, by its state and the late policy (Table 5-5). -/

namespace Sys2Proof.Machine

/-! ### Two steps of one turn -/

theorem CutOne.kept {i : CampaignIndex} {k : Serial} {a : Nat} {r' : Change} {ends : Bool} {late stale : Nat} {s t : State}
    (h : CutOne i k a r' ends late stale [] s t) :
    t.table.records = s.table.records.map fun x => if x.serial = k then r' else x :=
  h.records.trans (List.filter_eq_self.mpr fun _ _ => decide_eq_true List.not_mem_nil)

/-- A step that stays, and one behind it. -/
theorem CutOne.trans {i : CampaignIndex} {k : Serial} {a : Nat} {r r' : Change} {ends : Bool} {late stale late' stale' : Nat}
    {moved : List OutcomeRecord} {s t u : State} (h : CutOne i k a r false late stale [] s t) (serial : r.serial = k)
    (g : CutOne i k a r' ends late' stale' moved t u) : CutOne i k a r' ends (late + late') (stale + stale') moved s u := by
  have retire := (h.stays rfl).2
  have outcomes : t.table.outcomes = s.table.outcomes := by rw [h.outcomes, List.append_nil]
  have entries : t.dir = s.dir := by
    rw [h.dir]
    exact congrArg (fun es : List Entry => ({ s.dir with entries := es } : Directory)) (List.map_id _)
  have records : (t.table.records.map fun x => if x.serial = k then r' else x)
      = s.table.records.map fun x => if x.serial = k then r' else x := by
    rw [h.kept, List.map_map]
    refine List.map_congr_left fun x _ => ?_
    by_cases here : x.serial = k <;> simp [here, serial]
  exact
    { base := h.base.trans g.base
      dir := by rw [g.dir, entries]
      pool := by rw [g.pool, h.pool]; rfl
      last := g.last.trans h.last
      boosts := by rw [g.boosts, h.boosts]; rfl
      calendar := fun d y other => (g.calendar d y other).trans (h.calendar d y other)
      outcomes := by rw [g.outcomes, outcomes]
      records := by rw [g.records, records]
      nextSerial := g.nextSerial.trans h.nextSerial
      nextSequence := g.nextSequence.trans h.nextSequence
      moves := by rw [← records]; exact g.moves
      once := g.once
      stays := fun idle => ⟨(g.stays idle).1, (g.stays idle).2.trans retire⟩
      joins := g.joins
      alone := fun ended empty => g.alone ended (retire.trans empty)
      full := fun ended full => by
        rw [← retire]
        exact g.full ended (by rw [outcomes]; exact full)
      settled := g.settled
      campaigns := fun j => by
        have counted := Prod.ext_iff.mp (h.campaigns j)
        obtain ⟨campaign, notice⟩ := counted
        dsimp only [List.filter_nil, List.foldl_nil] at campaign notice
        rw [g.campaigns j, campaign, notice, h.base.air]
        by_cases here : j = i
        · simp only [if_pos here, Nat.add_assoc, Bool.false_eq_true, if_false, Nat.sub_zero]
        · simp only [if_neg here]
      flags := fun f other => by
        rw [g.flags f other, h.flags f other]
        by_cases is : f = .staleCut
        · cases f.isIn s.handler.flags <;> simp [is]
        · simp [is] }

theorem CutOne.recordOf {i : CampaignIndex} {k : Serial} {a : Nat} {r r' : Change} {late stale : Nat} {s t : State}
    (h : CutOne i k a r' false late stale [] s t) (hr : s.recordOf k = some r) (serial : r'.serial = k) :
    t.recordOf k = some r' := by
  subst serial
  unfold State.recordOf
  rw [if_neg (recordOf_ne_zero hr), h.kept]
  exact find?_replaced ⟨r, recordOf_mem hr, recordOf_serial hr⟩

theorem CutOne.tableLaw {i : CampaignIndex} {k : Serial} {a : Nat} {r r' : Change} {late stale : Nat} {s t : State}
    (h : CutOne i k a r' false late stale [] s t) (law : TableLaw s) (hr : s.recordOf k = some r) (alike : r.Alike r') :
    TableLaw t := by
  refine law.of_map (fun x => if x.serial = k then r' else x) (fun x hx => ?_) h.kept
  by_cases here : x.serial = k
  · obtain rfl := law.eq_of_serial hx (recordOf_mem hr) (here.trans (recordOf_serial hr).symm)
    rw [if_pos here]
    exact ⟨alike.serial, alike.fits⟩
  · rw [if_neg here]
    exact ⟨rfl, id⟩

/-! ### The turn -/

/-- Whether a record is on its way to its tag (R96). -/
def Change.delivering (r : Change) : Bool := decide (r.state = .queued ∨ r.state = .sending)

/-- A delivery with its mark (R71, R96). -/
def Change.markedAtCut (r : Change) : Change := { r with staleCut := r.staleCut || r.displaced.isSome }

/-- What a record becomes at its campaign's cut (Table 5-5). -/
def Change.atCut (policy : LatePolicy) (b : Beacon) (r : Change) : Change :=
  match r.state with
  | .queued | .sending =>
    match policy with
    | .apply => { r.markedAtCut with late := true }
    | .drop => r.markedAtCut.closed .droppedLate b
  | .staged => { r with state := .verifying }
  | .withdrawing => r.closed .cancelTooLate b
  | .verifying | .finished => r

/-- Whether a record ends at its campaign's cut (Table 5-5). -/
def Change.endsWith (policy : LatePolicy) (r : Change) : Bool :=
  decide (r.state = .withdrawing ∨ policy = .drop ∧ (r.state = .queued ∨ r.state = .sending))

/-- What a record adds to its campaign's late count (R96). -/
def Change.lateAtCut (policy : LatePolicy) (r : Change) : Nat := if policy = .apply ∧ r.delivering = true then 1 else 0

/-- What a record adds to its campaign's stale count (R96). -/
def Change.staleAtCut (r : Change) : Nat := if r.delivering = true ∧ r.displaced.isSome = true then 1 else 0

@[simp] theorem atCut_serial (policy : LatePolicy) (b : Beacon) (r : Change) : (r.atCut policy b).serial = r.serial := by
  unfold Change.atCut
  split <;> [(split <;> rfl); (split <;> rfl); rfl; rfl; rfl; rfl]

/-- The mark of a delivery, where it has a displaced version. -/
theorem cutOne_marked {t : State} (law : TableLaw t) {r : Change} (hr : t.recordOf r.serial = some r) (i : CampaignIndex) :
    CutOne i r.serial r.addr r.markedAtCut false 0 (if r.displaced.isSome = true then 1 else 0) [] t
      (if r.displaced.isSome then
        raiseFlag .staleCut (updCampaign (some i) (fun c => { c with staleCount := c.staleCount + 1 })
          (updRecord r.serial (fun r => { r with staleCut := true }) t))
      else t) := by
  unfold Change.markedAtCut
  cases r.displaced.isSome with
  | true =>
    rw [if_pos rfl, if_pos rfl, Bool.or_true]
    exact cutOne_stale law hr i r.addr
  | false =>
    rw [if_neg Bool.false_ne_true, if_neg Bool.false_ne_true, Bool.or_false]
    exact cutOne_nothing law hr i r.addr

theorem markedAtCut_alike (r : Change) : r.Alike r.markedAtCut := ⟨rfl, rfl, rfl, rfl, rfl, rfl, id, .rfl⟩

/-- A delivery at the cut, by the late policy. -/
theorem cutOne_delivery {t : State} (law : TableLaw t) {r : Change} (hr : t.recordOf r.serial = some r) {i : CampaignIndex}
    (campaign : r.campaign = some i) (policy : LatePolicy) :
    ∃ moved, CutOne i r.serial r.addr (match policy with
        | .apply => { r.markedAtCut with late := true }
        | .drop => r.markedAtCut.closed .droppedLate t.air.beacon) (decide (policy = .drop)) (if policy = .apply then 1 else 0)
      (if r.displaced.isSome = true then 1 else 0) moved t (cutDelivery i policy r t) := by
  have marked := cutOne_marked law hr i
  unfold cutDelivery
  dsimp only
  generalize (if r.displaced.isSome then
      raiseFlag .staleCut (updCampaign (some i) (fun c => { c with staleCount := c.staleCount + 1 })
        (updRecord r.serial (fun r => { r with staleCut := true }) t))
    else t) = u at marked
  have held : u.recordOf r.serial = some r.markedAtCut := marked.recordOf hr rfl
  have law' : TableLaw u := marked.tableLaw law hr (markedAtCut_alike r)
  cases policy with
  | apply =>
    refine ⟨[], ?_⟩
    have both := marked.trans rfl (cutOne_late law' held i r.addr)
    exact both
  | drop =>
    obtain ⟨moved, ended⟩ := cutOne_ends law' held (i := i) campaign .droppedLate
    refine ⟨moved, ?_⟩
    have both := marked.trans rfl ended
    rw [marked.base.air] at both
    exact both

/-- A record's turn at the cut of its campaign. -/
theorem cutRecord_cutOne {t : State} (law : TableLaw t) {r : Change} (hr : t.recordOf r.serial = some r) {i : CampaignIndex}
    (campaign : r.campaign = some i) (policy : LatePolicy) :
    ∃ moved, CutOne i r.serial r.addr (r.atCut policy t.air.beacon) (r.endsWith policy) (r.lateAtCut policy) r.staleAtCut moved
      t (cutRecord i policy r.serial t) := by
  have delivery := cutOne_delivery law hr campaign policy
  unfold cutRecord
  rw [hr]
  dsimp only
  cases is : r.state
  case queued | sending =>
    have late : r.lateAtCut policy = if policy = .apply then 1 else 0 := by simp [Change.lateAtCut, Change.delivering, is]
    have stale : r.staleAtCut = if r.displaced.isSome = true then 1 else 0 := by simp [Change.staleAtCut, Change.delivering, is]
    have ends : r.endsWith policy = decide (policy = .drop) := by simp [Change.endsWith, is]
    rw [late, stale, ends]
    unfold Change.atCut
    rw [is]
    exact delivery
  all_goals
    have late : r.lateAtCut policy = 0 := by simp [Change.lateAtCut, Change.delivering, is]
    have stale : r.staleAtCut = 0 := by simp [Change.staleAtCut, Change.delivering, is]
    have ends : r.endsWith policy = decide (r.state = .withdrawing) := by simp [Change.endsWith, is]
    rw [late, stale, ends]
    unfold Change.atCut
    rw [is]
  case staged =>
    refine ⟨[], ?_⟩
    have told : moveRecord r.serial (fun r => { r with state := .verifying }) t
        = workNotice r.addr (updRecord r.serial (fun r => { r with state := .verifying }) t) := by
      unfold moveRecord
      rw [hr]
      exact if_neg (by simp [is, ChangeState.isWork])
    dsimp only
    rw [told]
    exact cutOne_staged law hr i
  case withdrawing => exact cutOne_ends law hr campaign .cancelTooLate
  case verifying | finished => exact ⟨[], cutOne_nothing law hr i r.addr⟩

end Sys2Proof.Machine
end

section
/-! The cut as far as it has come: the records that have had their turn, and what has passed (R95 to R97). -/

namespace Sys2Proof.Machine

/-! ### A campaign's and a record's part in the cut -/

/-- The late policy of a campaign whose activation beacon is the current one (R95). -/
def State.duePolicy (s : State) (i : CampaignIndex) : Option LatePolicy :=
  match (s.campaigns.get i).state, (s.campaigns.get i).activation with
  | .opened, some a => if a.beacon = s.air.beacon then some a.policy else none
  | _, _ => none

theorem duePolicy_eq_some {s : State} {i : CampaignIndex} {p : LatePolicy} : s.duePolicy i = some p
    ↔ (s.campaigns.get i).state = .opened
      ∧ ∃ a, (s.campaigns.get i).activation = some a ∧ a.beacon = s.air.beacon ∧ a.policy = p := by
  unfold State.duePolicy
  cases (s.campaigns.get i).state <;> cases (s.campaigns.get i).activation <;> simp

/-- The late policy a record meets at this beacon start. -/
def State.meets (s : State) (r : Change) : Option LatePolicy := r.campaign.bind s.duePolicy

/-- A record as the cut leaves it. -/
def State.cutOf (s : State) (r : Change) : Change :=
  match s.meets r with
  | none => r
  | some p => r.atCut p s.air.beacon

/-- Whether a record ends at the cut. -/
def State.cutEnds (s : State) (r : Change) : Bool := (s.meets r).any fun p => r.endsWith p

/-- What a record adds to its campaign's late count at the cut. -/
def State.cutLate (s : State) (r : Change) : Nat := ((s.meets r).map fun p => r.lateAtCut p).getD 0

/-- The records that have had their turn are as the cut leaves them. -/
def State.soFar (s : State) (P : List Change) (r : Change) : Change := if r.serial ∈ P.map (·.serial) then s.cutOf r else r

@[simp] theorem cutOf_serial (s : State) (r : Change) : (s.cutOf r).serial = r.serial := by
  unfold State.cutOf
  split
  · rfl
  · exact atCut_serial _ _ r

@[simp] theorem soFar_serial (s : State) (P : List Change) (r : Change) : (s.soFar P r).serial = r.serial := by
  unfold State.soFar
  split
  · exact cutOf_serial s r
  · rfl

theorem atCut_finished {r : Change} (finished : r.state = .finished) (p : LatePolicy) (b : Beacon) : r.atCut p b = r := by
  unfold Change.atCut
  rw [finished]

theorem cutOf_finished {s : State} {r : Change} (finished : r.state = .finished) : s.cutOf r = r := by
  unfold State.cutOf
  cases s.meets r with
  | none => rfl
  | some p => exact atCut_finished finished p s.air.beacon

theorem endsWith_live {p : LatePolicy} {r : Change} (ends : r.endsWith p = true) : r.state ≠ .finished := by
  intro finished
  simp [Change.endsWith, finished] at ends

theorem cutEnds_live {s : State} {r : Change} (ends : s.cutEnds r = true) : r.state ≠ .finished := by
  obtain ⟨p, -, ends⟩ := (Option.any_eq_true _ _).mp ends
  exact endsWith_live ends

/-! ### The table so far -/

/-- The cut as far as the records of `P` have had their turn, in their order: from `s` to `t`, the outcome records `moved` having
passed. -/
structure CutSoFar (s : State) (P : List Change) (moved : List OutcomeRecord) (t : State) : Prop where
  held : ∀ r ∈ P, r ∈ s.table.records ∧ (s.meets r).isSome = true
  distinct : (P.map (·.serial)).Nodup
  law : TableLaw t
  base : SameBase s t
  dir : t.dir = { s.dir with entries := s.dir.entries.map fun e =>
    (P.filter s.cutEnds).foldl (fun e r => e.cleared r.addr r.serial) e }
  pool : t.pool = (P.filter s.cutEnds).foldl (fun pool r => pool.release r.serial) s.pool
  last : t.planner.last = s.planner.last
  boosts : t.planner.boosts = (P.filter s.cutEnds).foldl
    (fun boosts r => boosts.map fun l => l.filter fun y => decide (y.addr ≠ r.addr)) s.planner.boosts
  outcomes : t.table.outcomes = s.table.outcomes ++ moved
  records : t.table.records
    = (s.table.records.filter fun x => decide (x.serial ∉ moved.map (·.serial))).map (s.soFar P)
  nextSerial : t.table.nextSerial = s.table.nextSerial
  nextSequence : t.table.nextSequence = s.table.nextSequence
  moves : ∀ o ∈ moved, ∃ r ∈ s.table.records, (s.soFar P r).outcomeRecord = some o
  once : (moved.map (·.serial)).Nodup
  order : ((P.filter s.cutEnds).map (·.serial)).Sublist (moved.map (·.serial) ++ t.table.retire)
  settled : P.filter s.cutEnds ≠ [] → t.table.retire = [] ∨ 1024 ≤ t.table.outcomes.length
  flags : ∀ f, f ≠ Flag.outcomeBacklog → f.isIn t.handler.flags
    = (f.isIn s.handler.flags || (decide (f = .staleCut) && decide (0 < (P.map Change.staleAtCut).sum)))

theorem cutSoFar_start {s : State} (law : TableLaw s) : CutSoFar s [] [] s where
  held := fun _ hr => (List.not_mem_nil hr).elim
  distinct := List.nodup_nil
  law := law
  base := .rfl
  dir := congrArg (fun es : List Entry => ({ s.dir with entries := es } : Directory)) (List.map_id _).symm
  pool := rfl
  last := rfl
  boosts := rfl
  outcomes := (List.append_nil _).symm
  records := by
    have same : s.soFar [] = id := funext fun r => if_neg List.not_mem_nil
    rw [same, List.map_id]
    exact (List.filter_eq_self.mpr fun _ _ => decide_eq_true List.not_mem_nil).symm
  nextSerial := rfl
  nextSequence := rfl
  moves := fun _ ho => (List.not_mem_nil ho).elim
  once := List.nodup_nil
  order := List.nil_sublist _
  settled := fun ne => absurd rfl ne
  flags := fun f _ => by simp

/-- The outcome record of a record is of its serial. -/
theorem outcomeRecord_of_serial {r : Change} {o : OutcomeRecord} (h : r.outcomeRecord = some o) : o.serial = r.serial := by
  unfold Change.outcomeRecord at h
  split at h
  · cases h
    rfl
  · cases h

theorem outcomeRecord_finished {s : State} (law : TableLaw s) {r : Change} (hr : r ∈ s.table.records) {o : OutcomeRecord}
    (h : r.outcomeRecord = some o) : r.state = .finished := by
  refine (law.2.2 r hr).2.2.2 ?_
  unfold Change.outcomeRecord at h
  split at h
  · next code b code' _ => rw [code']; rfl
  · cases h

theorem filter_serial_map {f : Change → Change} (keeps : ∀ r, (f r).serial = r.serial) (ks : List Serial) (rs : List Change) :
    (rs.map f).filter (fun x => decide (x.serial ∉ ks)) = (rs.filter fun x => decide (x.serial ∉ ks)).map f := by
  rw [List.filter_map]
  congr 2
  funext r
  exact congrArg (fun k => decide (k ∉ ks)) (keeps r)

/-- A record without its turn that has passed was FINISHED. -/
theorem CutSoFar.passed {s t : State} {P : List Change} {moved : List OutcomeRecord} (h : CutSoFar s P moved t) (law : TableLaw s)
    {r : Change} (hr : r ∈ s.table.records) (turn : r.serial ∉ P.map (·.serial))
    (passed : r.serial ∈ moved.map (·.serial)) : r.state = .finished := by
  obtain ⟨o, ho, serial⟩ := List.mem_map.mp passed
  obtain ⟨x, hx, leaves⟩ := h.moves o ho
  have same : x = r := law.eq_of_serial hx hr (by rw [← soFar_serial s P x, ← outcomeRecord_of_serial leaves, serial])
  rw [same, State.soFar, if_neg turn] at leaves
  exact outcomeRecord_finished law hr leaves

/-- A record without its turn stands as it was. -/
theorem CutSoFar.recordOf {s t : State} {P : List Change} {moved : List OutcomeRecord} (h : CutSoFar s P moved t)
    {r : Change} (hr : r ∈ s.table.records) (turn : r.serial ∉ P.map (·.serial))
    (stands : r.serial ∉ moved.map (·.serial)) : t.recordOf r.serial = some r := by
  refine h.law.recordOf ?_
  rw [h.records]
  exact List.mem_map.mpr ⟨r, List.mem_filter.mpr ⟨hr, decide_eq_true stands⟩, if_neg turn⟩

theorem CutSoFar.recordOf_gone {s t : State} {P : List Change} {moved : List OutcomeRecord} (h : CutSoFar s P moved t)
    {r : Change} (passed : r.serial ∈ moved.map (·.serial)) : t.recordOf r.serial = none := by
  cases held : t.recordOf r.serial with
  | none => rfl
  | some x =>
    have mem := recordOf_mem held
    rw [h.records] at mem
    obtain ⟨y, hy, rfl⟩ := List.mem_map.mp mem
    have serial := recordOf_serial held
    rw [soFar_serial] at serial
    exact absurd passed (serial ▸ of_decide_eq_true (List.mem_filter.mp hy).2)

/-! ### One record more -/

theorem soFar_snoc (s : State) (P : List Change) (r : Change) {x : Change} (distinct : x.serial = r.serial → x = r) :
    s.soFar (P ++ [r]) x = if x.serial = r.serial then s.cutOf r else s.soFar P x := by
  unfold State.soFar
  by_cases here : x.serial = r.serial
  · obtain rfl := distinct here
    simp
  · simp [here]

theorem cutSoFar_distinct {P : List Change} {r : Change} (distinct : (P.map (·.serial)).Nodup)
    (turn : r.serial ∉ P.map (·.serial)) : ((P ++ [r]).map (·.serial)).Nodup := by
  rw [List.map_append, List.map_singleton]
  exact List.nodup_append.mpr ⟨distinct, List.nodup_singleton _,
    fun a ha x hx same => turn (List.mem_singleton.mp hx ▸ same ▸ ha)⟩

/-- What the outcome records of the records are, once one more has had its turn. -/
theorem CutSoFar.moves_snoc {s t : State} {P : List Change} {moved : List OutcomeRecord} (h : CutSoFar s P moved t)
    (law : TableLaw s) {r : Change} (hr : r ∈ s.table.records) (turn : r.serial ∉ P.map (·.serial)) :
    ∀ o ∈ moved, ∃ x ∈ s.table.records, (s.soFar (P ++ [r]) x).outcomeRecord = some o := by
  intro o ho
  obtain ⟨x, hx, leaves⟩ := h.moves o ho
  refine ⟨x, hx, ?_⟩
  rw [soFar_snoc s P r fun same => law.eq_of_serial hx hr same]
  by_cases here : x.serial = r.serial
  · obtain rfl := law.eq_of_serial hx hr here
    rw [State.soFar, if_neg turn] at leaves
    rw [if_pos rfl, cutOf_finished (outcomeRecord_finished law hx leaves)]
    exact leaves
  · rw [if_neg here]
    exact leaves

/-- A FINISHED record has nothing to do at its turn. -/
theorem CutSoFar.idle {s t : State} {P : List Change} {moved : List OutcomeRecord} (h : CutSoFar s P moved t) (law : TableLaw s)
    {r : Change} (hr : r ∈ s.table.records) (meets : (s.meets r).isSome = true) (turn : r.serial ∉ P.map (·.serial))
    (finished : r.state = .finished) : CutSoFar s (P ++ [r]) moved t := by
  have idle : s.cutEnds r = false := Bool.not_eq_true _ ▸ fun ends => cutEnds_live ends finished
  have ends : (P ++ [r]).filter s.cutEnds = P.filter s.cutEnds := by
    rw [List.filter_append, List.filter_singleton, idle]
    exact List.append_nil _
  have unmarked : r.staleAtCut = 0 := by simp [Change.staleAtCut, Change.delivering, finished]
  exact
    { held := fun x hx => by
        obtain hx | hx := List.mem_append.mp hx
        · exact h.held x hx
        · obtain rfl := List.mem_singleton.mp hx
          exact ⟨hr, meets⟩
      distinct := cutSoFar_distinct h.distinct turn
      law := h.law
      base := h.base
      dir := by rw [ends]; exact h.dir
      pool := by rw [ends]; exact h.pool
      last := h.last
      boosts := by rw [ends]; exact h.boosts
      outcomes := h.outcomes
      records := by
        rw [h.records]
        refine List.map_congr_left fun x hx => ?_
        have hx := (List.mem_filter.mp hx).1
        rw [soFar_snoc s P r fun same => law.eq_of_serial hx hr same]
        by_cases here : x.serial = r.serial
        · obtain rfl := law.eq_of_serial hx hr here
          rw [if_pos rfl, cutOf_finished finished, State.soFar, if_neg turn]
        · rw [if_neg here]
      nextSerial := h.nextSerial
      nextSequence := h.nextSequence
      moves := h.moves_snoc law hr turn
      once := h.once
      order := by rw [ends]; exact h.order
      settled := by rw [ends]; exact h.settled
      flags := fun f other => by
        rw [h.flags f other, List.map_append, List.sum_append, List.map_singleton, List.sum_singleton, unmarked, Nat.add_zero] }

/-- The ended records stay in their order as one more ends (R97). -/
theorem CutOne.order {i : CampaignIndex} {k : Serial} {a : Nat} {r' : Change} {late stale : Nat} {moved moved' : List OutcomeRecord}
    {t t' : State} {E : List Serial} (one : CutOne i k a r' true late stale moved' t t')
    (order : E.Sublist (moved.map (·.serial) ++ t.table.retire))
    (settled : E ≠ [] → t.table.retire = [] ∨ 1024 ≤ t.table.outcomes.length) :
    (E ++ [k]).Sublist ((moved ++ moved').map (·.serial) ++ t'.table.retire) := by
  rw [List.map_append, List.append_assoc]
  by_cases first : E = []
  · rw [first, List.nil_append, List.singleton_sublist]
    exact List.mem_append_right _ (one.joins rfl)
  · obtain empty | full := settled first
    · rw [one.alone rfl empty]
      rw [empty, List.append_nil] at order
      exact order.append (List.Sublist.refl _)
    · obtain ⟨rfl, retire⟩ := one.full rfl full
      rw [retire, List.map_nil, List.nil_append, ← List.append_assoc]
      exact order.append (List.Sublist.refl _)

/-- One record more has had its turn. -/
theorem CutSoFar.one {s t t' : State} {P : List Change} {moved moved' : List OutcomeRecord} (h : CutSoFar s P moved t)
    (law : TableLaw s) {r : Change} (hr : r ∈ s.table.records) (turn : r.serial ∉ P.map (·.serial)) {p : LatePolicy}
    (meets : s.meets r = some p) {i : CampaignIndex} {late : Nat} (law' : TableLaw t')
    (one : CutOne i r.serial r.addr (r.atCut p t.air.beacon) (r.endsWith p) late r.staleAtCut moved' t t') :
    CutSoFar s (P ++ [r]) (moved ++ moved') t' := by
  have leaves : r.atCut p t.air.beacon = s.cutOf r := by
    rw [h.base.air]
    unfold State.cutOf
    rw [meets]
  have ends : s.cutEnds r = r.endsWith p := by
    unfold State.cutEnds
    rw [meets]
    rfl
  have filtered : (P ++ [r]).filter s.cutEnds = P.filter s.cutEnds ++ if r.endsWith p then [r] else [] := by
    rw [List.filter_append, List.filter_singleton, ends]
    cases r.endsWith p <;> rfl
  have records : (t.table.records.map fun x => if x.serial = r.serial then r.atCut p t.air.beacon else x)
      = (s.table.records.filter fun x => decide (x.serial ∉ moved.map (·.serial))).map (s.soFar (P ++ [r])) := by
    rw [h.records, List.map_map, leaves]
    refine List.map_congr_left fun x hx => ?_
    have hx := (List.mem_filter.mp hx).1
    rw [soFar_snoc s P r fun same => law.eq_of_serial hx hr same, Function.comp_apply, soFar_serial]
  exact
    { held := fun x hx => by
        obtain hx | hx := List.mem_append.mp hx
        · exact h.held x hx
        · obtain rfl := List.mem_singleton.mp hx
          exact ⟨hr, by rw [meets]; rfl⟩
      distinct := cutSoFar_distinct h.distinct turn
      law := law'
      base := h.base.trans one.base
      dir := by
        rw [one.dir, h.dir, filtered, List.map_map]
        cases r.endsWith p <;> simp only [List.foldl_append, if_true, Bool.false_eq_true, if_false] <;> rfl
      pool := by
        rw [one.pool, h.pool, filtered]
        cases r.endsWith p <;> simp only [List.foldl_append] <;> rfl
      last := one.last.trans h.last
      boosts := by
        rw [one.boosts, h.boosts, filtered]
        cases r.endsWith p <;> simp only [List.foldl_append] <;> rfl
      outcomes := by rw [one.outcomes, h.outcomes, List.append_assoc]
      records := by
        rw [one.records, records, filter_serial_map (soFar_serial s _), List.filter_filter, List.map_append]
        congr 2
        funext x
        simp [Bool.and_comm]
      nextSerial := one.nextSerial.trans h.nextSerial
      nextSequence := one.nextSequence.trans h.nextSequence
      moves := fun o ho => by
        obtain old | new := List.mem_append.mp ho
        · exact h.moves_snoc law hr turn o old
        · obtain ⟨x, hx, leaves⟩ := one.moves o new
          rw [records] at hx
          obtain ⟨y, hy, rfl⟩ := List.mem_map.mp hx
          exact ⟨y, (List.mem_filter.mp hy).1, leaves⟩
      once := by
        rw [List.map_append]
        refine List.nodup_append.mpr ⟨h.once, one.once, fun k old k' new same => ?_⟩
        obtain ⟨o, ho, rfl⟩ := List.mem_map.mp new
        obtain ⟨x, hx, leaves⟩ := one.moves o ho
        rw [records] at hx
        obtain ⟨y, hy, rfl⟩ := List.mem_map.mp hx
        rw [same, outcomeRecord_of_serial leaves, soFar_serial] at old
        exact of_decide_eq_true (List.mem_filter.mp hy).2 old
      order := by
        rw [filtered]
        cases ended : r.endsWith p with
        | true =>
          rw [ended] at one
          rw [if_pos rfl, List.map_append]
          exact one.order h.order fun ne => h.settled fun none => ne (by rw [none]; rfl)
        | false =>
          rw [ended] at one
          obtain ⟨rfl, retire⟩ := one.stays rfl
          rw [if_neg Bool.false_ne_true, List.append_nil, List.append_nil, retire]
          exact h.order
      settled := by
        rw [filtered]
        cases ended : r.endsWith p with
        | true =>
          rw [ended] at one
          exact fun _ => one.settled rfl
        | false =>
          rw [ended] at one
          obtain ⟨rfl, retire⟩ := one.stays rfl
          rw [if_neg Bool.false_ne_true, List.append_nil, retire, one.outcomes, List.append_nil]
          exact h.settled
      flags := fun f other => by
        rw [one.flags f other, h.flags f other, List.map_append, List.sum_append, List.map_singleton, List.sum_singleton]
        by_cases is : f = .staleCut
        · cases f.isIn s.handler.flags <;> simp [is]
        · simp [is] }

end Sys2Proof.Machine
end

section
/-! The campaigns' counts, tallies and done detection at the cut (R94, R96, R103). -/

namespace Sys2Proof.Machine

/-- A campaign's counts once the records of `P` have had their turn. -/
def State.cutCounts (s : State) (P : List Change) (j : CampaignIndex) : Campaign :=
  { s.campaigns.get j with
    lateCount := (s.campaigns.get j).lateCount + ((P.filter fun r => decide (r.campaign = some j)).map s.cutLate).sum
    staleCount := (s.campaigns.get j).staleCount + ((P.filter fun r => decide (r.campaign = some j)).map Change.staleAtCut).sum
    live := (s.campaigns.get j).live - (P.filter fun r => decide (r.campaign = some j)).countP s.cutEnds }

/-- The outcome records of a campaign. -/
def ofCampaign (moved : List OutcomeRecord) (j : CampaignIndex) : List OutcomeRecord :=
  moved.filter fun o => decide (o.campaign = some j)

/-- Done detection on a campaign and its notice (R103, R104). -/
def doneNow (b : Beacon) (x : Campaign × Option Campaign) : Campaign × Option Campaign :=
  if x.1.state = .cut ∧ x.1.admitted = x.1.tallies.sum then
    ({ x.1 with state := .done, doneBeacon := some b }, some { x.1 with state := .done, doneBeacon := some b })
  else x

/-- The campaigns and their notices as far as the cut has come: `P` have had their turn, `moved` have passed, the campaigns of `Q`
are cut. -/
structure CutCampaigns (s : State) (P : List Change) (moved : List OutcomeRecord) (Q : List CampaignIndex) (t : State) : Prop where
  coming : ∀ j, (s.duePolicy j).isSome = true → j ∉ Q → (t.campaigns.get j, t.handler.notices.campaignDone.get j)
    = ({ s.cutCounts P j with tallies := (s.campaigns.get j).tallies.counting (ofCampaign moved j) },
      s.handler.notices.campaignDone.get j)
  others : ∀ j, s.duePolicy j = none → (t.campaigns.get j, t.handler.notices.campaignDone.get j)
    = (ofCampaign moved j).foldl (tallyOne s.air.beacon) (s.campaigns.get j, s.handler.notices.campaignDone.get j)
  cut : ∀ j ∈ Q, ∃ m rest, ofCampaign moved j = m ++ rest ∧ (t.campaigns.get j, t.handler.notices.campaignDone.get j)
    = rest.foldl (tallyOne s.air.beacon) (doneNow s.air.beacon
        ({ s.cutCounts P j with state := .cut, tallies := (s.campaigns.get j).tallies.counting m },
          s.handler.notices.campaignDone.get j))

theorem cutCampaigns_start (s : State) : CutCampaigns s [] [] [] s where
  coming := fun j _ _ => by
    simp [State.cutCounts, ofCampaign, Tallies.counting]
  others := fun _ _ => rfl
  cut := fun _ hj => (List.not_mem_nil hj).elim

theorem cutCounts_snoc_other (s : State) (P : List Change) {r : Change} {i j : CampaignIndex} (campaign : r.campaign = some i)
    (other : j ≠ i) : s.cutCounts (P ++ [r]) j = s.cutCounts P j := by
  have same : (P ++ [r]).filter (fun r => decide (r.campaign = some j)) = P.filter fun r => decide (r.campaign = some j) := by
    rw [List.filter_append, List.filter_singleton, campaign]
    simp [other.symm]
  unfold State.cutCounts
  rw [same]

theorem cutCounts_snoc (s : State) (P : List Change) {r : Change} {i : CampaignIndex} (campaign : r.campaign = some i) :
    s.cutCounts (P ++ [r]) i = { s.cutCounts P i with
      lateCount := (s.cutCounts P i).lateCount + s.cutLate r
      staleCount := (s.cutCounts P i).staleCount + r.staleAtCut
      live := (s.cutCounts P i).live - if s.cutEnds r then 1 else 0 } := by
  have more : (P ++ [r]).filter (fun r => decide (r.campaign = some i))
      = P.filter (fun r => decide (r.campaign = some i)) ++ [r] := by
    rw [List.filter_append, List.filter_singleton, campaign]
    simp
  unfold State.cutCounts
  rw [more]
  simp only [List.map_append, List.map_singleton, List.sum_append, List.sum_singleton, List.countP_append, List.countP_singleton,
    Nat.add_assoc, Nat.sub_sub]

theorem ofCampaign_append (moved moved' : List OutcomeRecord) (j : CampaignIndex) :
    ofCampaign (moved ++ moved') j = ofCampaign moved j ++ ofCampaign moved' j := List.filter_append ..

theorem counting_append (a : Tallies) (m m' : List OutcomeRecord) : a.counting (m ++ m') = (a.counting m).counting m' :=
  List.foldl_append

/-- A campaign that is not CUT only counts. -/
theorem tallies_opened {b : Beacon} {c : Campaign} (opened : c.state = .opened) (notice : Option Campaign)
    (os : List OutcomeRecord) : os.foldl (tallyOne b) (c, notice) = ({ c with tallies := c.tallies.counting os }, notice) :=
  foldl_tallyOne_counts b c notice os fun n done => by
    have : CampaignState.opened = .cut := opened.symm.trans done.1
    cases this

/-- One record more of a campaign that is still to be cut. -/
theorem CutCampaigns.one {s t t' : State} {P : List Change} {moved moved' : List OutcomeRecord} {Q : List CampaignIndex}
    (h : CutCampaigns s P moved Q t) (air : t.air = s.air) {r : Change} {i : CampaignIndex} (campaign : r.campaign = some i)
    {p : LatePolicy} (due : s.duePolicy i = some p) (uncut : i ∉ Q) {r' : Change}
    (one : CutOne i r.serial r.addr r' (s.cutEnds r) (s.cutLate r) r.staleAtCut moved' t t') :
    CutCampaigns s (P ++ [r]) (moved ++ moved') Q t' := by
  have counted := one.campaigns
  rw [air] at counted
  obtain ⟨opened, -⟩ := duePolicy_eq_some.mp due
  have other {j : CampaignIndex} (hj : j ≠ i) : (t'.campaigns.get j, t'.handler.notices.campaignDone.get j)
      = (ofCampaign moved' j).foldl (tallyOne s.air.beacon) (t.campaigns.get j, t.handler.notices.campaignDone.get j) := by
    rw [counted j, if_neg hj]
    rfl
  refine ⟨fun j hj notCut => ?_, fun j hj => ?_, fun j hj => ?_⟩
  · have before := h.coming j hj notCut
    obtain ⟨entry, notice⟩ := Prod.ext_iff.mp before
    dsimp only at entry notice
    by_cases here : j = i
    · subst here
      rw [counted j, if_pos rfl, entry, notice, tallies_opened (by exact opened), cutCounts_snoc s P campaign, ofCampaign_append,
        counting_append]
      rfl
    · obtain ⟨q, hq⟩ := Option.isSome_iff_exists.mp hj
      rw [other here, before, tallies_opened (by exact (duePolicy_eq_some.mp hq).1), cutCounts_snoc_other s P campaign here,
        ofCampaign_append, counting_append]
  · have here : j ≠ i := by
      rintro rfl
      exact nomatch due.symm.trans hj
    rw [other here, h.others j hj, ofCampaign_append, List.foldl_append]
  · have here : j ≠ i := fun same => uncut (same ▸ hj)
    obtain ⟨m, rest, split, result⟩ := h.cut j hj
    refine ⟨m, rest ++ ofCampaign moved' j, ?_, ?_⟩
    · rw [ofCampaign_append, split, List.append_assoc]
    · rw [other here, result, List.foldl_append, cutCounts_snoc_other s P campaign here]

/-- A record more for which nothing happens. -/
theorem CutCampaigns.idle {s t : State} {P : List Change} {moved : List OutcomeRecord} {Q : List CampaignIndex}
    (h : CutCampaigns s P moved Q t) {r : Change} (finished : r.state = .finished) : CutCampaigns s (P ++ [r]) moved Q t := by
  have late : s.cutLate r = 0 := by
    unfold State.cutLate
    cases s.meets r <;> simp [Change.lateAtCut, Change.delivering, finished]
  have stale : r.staleAtCut = 0 := by simp [Change.staleAtCut, Change.delivering, finished]
  have ends : s.cutEnds r = false := Bool.not_eq_true _ ▸ fun ends => cutEnds_live ends finished
  have same : ∀ j, s.cutCounts (P ++ [r]) j = s.cutCounts P j := by
    intro j
    by_cases campaign : r.campaign = some j
    · rw [cutCounts_snoc s P campaign, late, stale, ends]
      rfl
    · have filtered : (P ++ [r]).filter (fun r => decide (r.campaign = some j)) = P.filter fun r => decide (r.campaign = some j) := by
        rw [List.filter_append, List.filter_singleton]
        simp [campaign]
      unfold State.cutCounts
      rw [filtered]
  exact ⟨fun j hj notCut => by rw [same]; exact h.coming j hj notCut, h.others, fun j hj => by rw [same]; exact h.cut j hj⟩

/-- The campaign becomes CUT, or DONE at once (R95, R103). -/
theorem CutCampaigns.cutNow {s t : State} {P : List Change} {moved : List OutcomeRecord} {Q : List CampaignIndex}
    (h : CutCampaigns s P moved Q t) (air : t.air = s.air) {i : CampaignIndex} (due : (s.duePolicy i).isSome = true) (uncut : i ∉ Q) :
    CutCampaigns s P moved (Q ++ [i]) (doneCheck i (updCampaign (some i) (fun c => { c with state := .cut }) t)) := by
  have result : ∀ j, ((doneCheck i (updCampaign (some i) (fun c => { c with state := .cut }) t)).campaigns.get j,
      (doneCheck i (updCampaign (some i) (fun c => { c with state := .cut }) t)).handler.notices.campaignDone.get j)
      = if j = i then doneNow t.air.beacon ({ t.campaigns.get i with state := .cut }, t.handler.notices.campaignDone.get i)
        else (t.campaigns.get j, t.handler.notices.campaignDone.get j) := by
    intro j
    have entry : (updCampaign (some i) (fun c => { c with state := .cut }) t).campaigns.get i
        = { t.campaigns.get i with state := .cut } := by
      rw [updCampaign_some, Quad.get_modify, if_pos rfl]
    have elsewhere (other : j ≠ i) : (updCampaign (some i) (fun c => { c with state := .cut }) t).campaigns.get j
        = t.campaigns.get j := by
      rw [updCampaign_some, Quad.get_modify, if_neg other]
    rw [doneCheck_markDone, entry]
    unfold doneNow
    by_cases complete : ({ t.campaigns.get i with state := .cut } : Campaign).state = .cut
        ∧ ({ t.campaigns.get i with state := .cut } : Campaign).admitted
          = ({ t.campaigns.get i with state := .cut } : Campaign).tallies.sum
    · rw [if_pos complete, if_pos complete]
      unfold markDone
      dsimp only
      rw [Quad.get_set, Quad.get_set, entry]
      by_cases here : j = i
      · rw [if_pos here, if_pos here, if_pos here]
        rfl
      · rw [if_neg here, if_neg here, if_neg here, elsewhere here]
        rfl
    · rw [if_neg complete, if_neg complete]
      by_cases here : j = i
      · subst here
        rw [if_pos rfl, entry]
        rfl
      · rw [if_neg here, elsewhere here]
        rfl
  refine ⟨fun j hj notCut => ?_, fun j hj => ?_, fun j hj => ?_⟩
  · obtain ⟨notQ, other⟩ := not_or.mp (List.mem_append.not.mp notCut)
    rw [result, if_neg (fun same => other (List.mem_singleton.mpr same))]
    exact h.coming j hj notQ
  · have here : j ≠ i := by
      rintro rfl
      rw [hj] at due
      cases due
    rw [result, if_neg here]
    exact h.others j hj
  · obtain hj | hj := List.mem_append.mp hj
    · rw [result, if_neg (fun same : j = i => uncut (same ▸ hj))]
      exact h.cut j hj
    · obtain rfl := List.mem_singleton.mp hj
      obtain ⟨entry, notice⟩ := Prod.ext_iff.mp (h.coming j due uncut)
      dsimp only at entry notice
      refine ⟨ofCampaign moved j, [], (List.append_nil _).symm, ?_⟩
      rw [result, if_pos rfl, entry, notice, air]
      rfl

end Sys2Proof.Machine
end

section
/-! The Call Planner at the cut: the tags of the ended records and of those become VERIFYING (R63, R81, Table 7-2). -/

namespace Sys2Proof.Machine

/-! ### What a turn tells the Call Planner -/

/-- Whether a record's turn may touch its tag's calendar entry. -/
def State.cutTouches (s : State) (r : Change) : Prop := s.cutEnds r = true ∨ r.state = .staged

/-- `CalendarTold` looks at the calendar entries of its tag alone. -/
theorem CalendarTold.congr {e : Entry} {work : Prop} {due due' : Cell → Beacon → Prop} {s s' t t' : State}
    (h : CalendarTold e work due s t)
    (before : ∀ d y, y.addr = e.addr → (y ∈ s'.planner.calendar.get d ↔ y ∈ s.planner.calendar.get d))
    (after : ∀ d y, y.addr = e.addr → (y ∈ t'.planner.calendar.get d ↔ y ∈ t.planner.calendar.get d))
    (dues : ∀ c b, due c b → due' c b) : CalendarTold e work due' s' t' := by
  obtain ⟨absent, keeps, files, drops⟩ := h
  have filed : (∃ d, ∃ y ∈ s'.planner.calendar.get d, y.addr = e.addr) ↔ ∃ d, ∃ y ∈ s.planner.calendar.get d, y.addr = e.addr :=
    exists_congr fun d => exists_congr fun y => ⟨fun ⟨hy, same⟩ => ⟨(before d y same).mp hy, same⟩,
      fun ⟨hy, same⟩ => ⟨(before d y same).mpr hy, same⟩⟩
  refine ⟨fun away d y same => ?_, fun present working has d y same => ?_, fun c present working lacks home => ?_,
    fun present idle d y hy same => ?_⟩
  · exact (after d y same).trans ((absent away d y same).trans (before d y same).symm)
  · exact (after d y same).trans ((keeps present working (filed.mp has) d y same).trans (before d y same).symm)
  · obtain ⟨b, hb, entries⟩ := files c present working (mt filed.mpr lacks) home
    exact ⟨b, dues c b hb, fun d y same => (after d y same).trans (entries d y same)⟩
  · exact drops present idle d y ((after d y same).mp hy) same

/-- A turn that neither ends a record nor makes it VERIFYING leaves the calendars. -/
theorem cutRecord_quiet {t : State} {i : CampaignIndex} {p : LatePolicy} {k : Serial} {r : Change} (hr : t.recordOf k = some r)
    (stays : r.endsWith p = false) (state : r.state ≠ .staged) :
    (cutRecord i p k t).planner.calendar = t.planner.calendar := by
  have delivery : p = .apply → (cutDelivery i p r t).planner.calendar = t.planner.calendar := by
    rintro rfl
    unfold cutDelivery
    dsimp only
    split <;> rfl
  have policy : (r.state = .queued ∨ r.state = .sending) → p = .apply := by
    intro delivers
    cases p
    case apply => rfl
    case drop => simp [Change.endsWith, delivers] at stays
  unfold cutRecord
  rw [hr]
  dsimp only
  cases is : r.state
  case queued => exact delivery (policy (.inl is))
  case sending => exact delivery (policy (.inr is))
  case staged => exact absurd is state
  case withdrawing => simp [Change.endsWith, is] at stays
  all_goals rfl

/-- A delivery's mark leaves the entries and the planner, and the record but for its mark. -/
theorem markedAtCut_state {t : State} (law : TableLaw t) {r : Change} (hr : t.recordOf r.serial = some r) (i : CampaignIndex) :
    ∃ u, (if r.displaced.isSome then
        raiseFlag .staleCut (updCampaign (some i) (fun c => { c with staleCount := c.staleCount + 1 })
          (updRecord r.serial (fun r => { r with staleCut := true }) t))
      else t) = u ∧ u.recordOf r.serial = some r.markedAtCut ∧ u.dir = t.dir ∧ u.planner = t.planner := by
  refine ⟨_, rfl, (cutOne_marked law hr i).recordOf hr rfl, ?_, ?_⟩ <;> split <;> rfl

/-- The tag of an ended record is filed by what work it has left (log entry 24). -/
theorem cutRecord_ended {t : State} (law : TableLaw t) {i : CampaignIndex} {p : LatePolicy} {r : Change}
    (hr : t.recordOf r.serial = some r) (ends : r.endsWith p = true) {e : Entry} (held : t.entryAt r.addr = some e)
    (live : e.live = some r.serial) :
    CalendarTold e (e.commanded.isSome = true ∨ e.flash = true) (ClassFiling t e) t (cutRecord i p r.serial t) := by
  have delivery : p = .drop → CalendarTold e (e.commanded.isSome = true ∨ e.flash = true) (ClassFiling t e) t
      (cutDelivery i p r t) := by
    rintro rfl
    obtain ⟨u, marks, marked, dir, planner⟩ := markedAtCut_state law hr i
    unfold cutDelivery
    dsimp only
    rw [marks]
    have entry : u.entryAt r.markedAtCut.addr = some e := by
      unfold State.entryAt
      rw [dir]
      exact held
    refine (finish_calendarTold marked entry live .droppedLate).congr (fun d y _ => by rw [planner]) (fun _ _ _ => Iff.rfl)
      fun c b due => ?_
    unfold ClassFiling at due ⊢
    rwa [planner] at due
  unfold cutRecord
  rw [hr]
  dsimp only
  cases is : r.state
  case queued | sending => exact delivery (by simpa [Change.endsWith, is] using ends)
  case withdrawing => exact finish_calendarTold hr held live .cancelTooLate
  all_goals simp [Change.endsWith, is] at ends

/-- The tag of a record become VERIFYING has work, and is filed as ever (Table 7-2). -/
theorem cutRecord_verifies {t : State} {i : CampaignIndex} {p : LatePolicy} {r : Change}
    (hr : t.recordOf r.serial = some r) (staged : r.state = .staged) {e : Entry} (held : t.entryAt r.addr = some e)
    (live : e.live = some r.serial) : CalendarTold e True (FiledFor t e) t (cutRecord i p r.serial t) := by
  obtain ⟨-, addr⟩ := entryAt_mem held
  set u := updRecord r.serial (fun r => { r with state := .verifying }) t with hu
  have told : cutRecord i p r.serial t = workNotice r.addr u := by
    unfold cutRecord moveRecord
    rw [hr]
    dsimp only
    rw [staged]
    exact if_neg (by simp [ChangeState.isWork])
  have verifying : u.liveRecord e = some { r with state := .verifying } := by
    unfold State.liveRecord
    rw [live]
    exact recordOf_updRecord_same (f := fun r => { r with state := .verifying }) (fun _ => rfl) hr
  have works : u.hasWork e = true := by
    unfold State.hasWork
    rw [verifying]
    rfl
  rw [told, ← addr]
  exact calendarTold_of_notice (u := u) (addr ▸ held) rfl rfl (iff_of_true works trivial)
    (fun c => fileDue_filedFor t e c) rfl rfl

/-! ### Distinct tags -/

/-- Records in a live state are of distinct tags (R62). -/
theorem LiveLaw.serial_of_addr {s : State} (live : LiveLaw s) (directory : DirectoryLaw s) {q r : Change}
    (hq : q ∈ s.table.records) (hr : r ∈ s.table.records) (qLive : q.state ≠ .finished) (rLive : r.state ≠ .finished)
    (same : q.addr = r.addr) : q.serial = r.serial := by
  obtain ⟨d, hd, qAddr, qNames⟩ := live.2 q hq qLive
  obtain ⟨e, he, rAddr, rNames⟩ := live.2 r hr rLive
  obtain rfl := directory.eq_of_addr hd he (qAddr.trans (same.trans rAddr.symm))
  exact Option.some.inj (qNames.symm.trans rNames)

/-- The records that may touch a calendar are live. -/
theorem cutTouches_live {s : State} {r : Change} (touches : s.cutTouches r) : r.state ≠ .finished := by
  obtain ends | staged := touches
  · exact cutEnds_live ends
  · rw [staged]
    decide

theorem foldl_cleared_other {E : List Change} {e : Entry} (other : ∀ r ∈ E, e.live ≠ some r.serial) :
    E.foldl (fun e r => e.cleared r.addr r.serial) e = e := by
  induction E with
  | nil => rfl
  | cons r E ih =>
    have same : e.cleared r.addr r.serial = e := if_neg fun h => other r List.mem_cons_self h.2
    rw [List.foldl_cons, same]
    exact ih fun q hq => other q (List.mem_cons_of_mem r hq)

theorem foldl_cleared_addr (E : List Change) (e : Entry) :
    (E.foldl (fun e r => e.cleared r.addr r.serial) e).addr = e.addr := by
  induction E generalizing e with
  | nil => rfl
  | cons r E ih => rw [List.foldl_cons, ih, cleared_addr]

theorem mem_foldl_boosts {E : List Change} {boosts : Quad (List BoostEntry)} {d : Cell} {y : BoostEntry} :
    y ∈ (E.foldl (fun boosts r => boosts.map fun l => l.filter fun y => decide (y.addr ≠ r.addr)) boosts).get d
      ↔ y ∈ boosts.get d ∧ ∀ r ∈ E, r.addr ≠ y.addr := by
  induction E generalizing boosts with
  | nil => simp
  | cons r E ih =>
    rw [List.foldl_cons, ih, Quad.get_map, List.mem_filter, decide_eq_true_iff, List.forall_mem_cons, and_assoc,
      ne_comm (a := y.addr)]

theorem foldl_boosts_filter {E : List Change} {boosts : Quad (List BoostEntry)} {a : Nat} (other : ∀ r ∈ E, r.addr ≠ a) (d : Cell) :
    ((E.foldl (fun boosts r => boosts.map fun l => l.filter fun y => decide (y.addr ≠ r.addr)) boosts).get d).filter
        (fun y => decide (y.addr = a) && y.confirmed)
      = (boosts.get d).filter fun y => decide (y.addr = a) && y.confirmed := by
  induction E generalizing boosts with
  | nil => rfl
  | cons r E ih =>
    rw [List.foldl_cons, ih fun q hq => other q (List.mem_cons_of_mem r hq), Quad.get_map, List.filter_filter]
    congr 1
    funext y
    by_cases here : y.addr = a
    · simp [here, (other r List.mem_cons_self).symm]
    · simp [here]

/-! ### The calendars so far -/

/-- The calendars as far as the records of `P` have had their turn. -/
structure CutCalendar (s : State) (P : List Change) (t : State) : Prop where
  others : ∀ d y, (∀ r ∈ P, s.cutTouches r → r.addr ≠ y.addr) →
    (y ∈ t.planner.calendar.get d ↔ y ∈ s.planner.calendar.get d)
  told : DirectoryLaw s → LiveLaw s → ∀ r ∈ P, ∀ e, s.entryAt r.addr = some e →
    (s.cutEnds r = true → CalendarTold e (e.commanded.isSome = true ∨ e.flash = true) (ClassFiling s e) s t)
    ∧ (r.state = .staged → CalendarTold e True (FiledFor s e) s t)

theorem cutCalendar_start (s : State) : CutCalendar s [] s :=
  ⟨fun _ _ _ => Iff.rfl, fun _ _ _ hr => (List.not_mem_nil hr).elim⟩

/-- A record more for which nothing happens. -/
theorem CutCalendar.idle {s t : State} {P : List Change} (h : CutCalendar s P t) {r : Change} (finished : r.state = .finished) :
    CutCalendar s (P ++ [r]) t := by
  have idle : ¬ s.cutTouches r := fun touches => cutTouches_live touches finished
  refine ⟨fun d y other => h.others d y fun q hq => other q (List.mem_append_left _ hq), fun directory live q hq e held => ?_⟩
  obtain hq | hq := List.mem_append.mp hq
  · exact h.told directory live q hq e held
  · obtain rfl := List.mem_singleton.mp hq
    exact ⟨fun ends => absurd (.inl ends) idle, fun staged => absurd (.inr staged) idle⟩

/-- One record more has had its turn. -/
theorem CutCalendar.one {s t : State} {P : List Change} {moved : List OutcomeRecord} (h : CutCalendar s P t)
    (soFar : CutSoFar s P moved t) {r : Change} (mem : r ∈ s.table.records) (turn : r.serial ∉ P.map (·.serial))
    (hr : t.recordOf r.serial = some r) {p : LatePolicy} (meets : s.meets r = some p) {i : CampaignIndex}
    (others : ∀ d y, y.addr ≠ r.addr →
      (y ∈ (cutRecord i p r.serial t).planner.calendar.get d ↔ y ∈ t.planner.calendar.get d)) :
    CutCalendar s (P ++ [r]) (cutRecord i p r.serial t) := by
  have ends : s.cutEnds r = r.endsWith p := by
    unfold State.cutEnds
    rw [meets]
    rfl
  have step {a : Nat} (other : s.cutTouches r → r.addr ≠ a) (d : Cell) (y : CalendarEntry) (hy : y.addr = a) :
      y ∈ (cutRecord i p r.serial t).planner.calendar.get d ↔ y ∈ t.planner.calendar.get d := by
    by_cases touches : s.cutTouches r
    · exact others d y (hy ▸ (other touches).symm)
    · rw [cutRecord_quiet hr (Bool.not_eq_true _ ▸ fun stays => touches (.inl (ends.trans stays))) fun staged =>
        touches (.inr staged)]
  refine ⟨fun d y other => ?_, fun directory live q hq e held => ?_⟩
  · exact (step (other r (by simp)) d y rfl).trans (h.others d y fun q hq => other q (List.mem_append_left _ hq))
  · have apart {x : Change} (hx : x ∈ P) (xTouches : s.cutTouches x) (rTouches : s.cutTouches r) : x.addr ≠ r.addr :=
      fun same => turn (live.serial_of_addr directory (soFar.held x hx).1 mem (cutTouches_live xTouches)
        (cutTouches_live rTouches) same ▸ List.mem_map_of_mem hx)
    obtain ⟨-, addr⟩ := entryAt_mem held
    obtain hq | hq := List.mem_append.mp hq
    · obtain ⟨ended, verifies⟩ := h.told directory live q hq e held
      have later (touches : s.cutTouches q) := step (a := e.addr) fun rTouches => addr ▸ (apart hq touches rTouches).symm
      exact ⟨fun is => (ended is).congr (fun _ _ _ => Iff.rfl) (later (.inl is)) fun _ _ due => due,
        fun is => (verifies is).congr (fun _ _ _ => Iff.rfl) (later (.inr is)) fun _ _ due => due⟩
    · obtain rfl := List.mem_singleton.mp hq
      have names (touches : s.cutTouches q) : e.live = some q.serial :=
        live.live_of_record directory mem (cutTouches_live touches) held
      have entry (touches : s.cutTouches q) : t.entryAt q.addr = some e := by
        rw [entryAt_map (s := s) (fun e => foldl_cleared_addr (P.filter s.cutEnds) e) (congrArg (·.entries) soFar.dir), held,
          Option.map_some, foldl_cleared_other fun x hx is => turn ?_]
        rw [← Option.some.inj ((names touches).symm.trans is).symm]
        exact List.mem_map_of_mem (List.mem_of_mem_filter hx)
      have before (touches : s.cutTouches q) (d : Cell) (y : CalendarEntry) (hy : y.addr = e.addr) :=
        (h.others d y fun x hx xTouches => by rw [hy, addr]; exact apart hx xTouches touches).symm
      refine ⟨fun is => (cutRecord_ended soFar.law hr (ends ▸ is) (entry (.inl is)) (names (.inl is))).congr
          (before (.inl is)) (fun _ _ _ => Iff.rfl) fun c b due => ?_,
        fun is => (cutRecord_verifies hr is (entry (.inr is)) (names (.inr is))).congr (before (.inr is))
          (fun _ _ _ => Iff.rfl) fun c b due => ?_⟩
      · unfold ClassFiling at due ⊢
        rwa [soFar.last] at due
      · unfold FiledFor at due ⊢
        rwa [soFar.last, soFar.boosts, foldl_boosts_filter fun x hx => by
          rw [addr]
          exact apart (List.mem_of_mem_filter hx) (.inl (List.mem_filter.mp hx).2) (.inr is)] at due

end Sys2Proof.Machine
end

section
/-! The cuts of a beacon start, record by record and campaign by campaign (R95 to R97, R103). -/

namespace Sys2Proof.Machine

/-- The cut so far: table, campaigns and calendars. -/
structure Cutting (s : State) (P : List Change) (moved : List OutcomeRecord) (Q : List CampaignIndex) (t : State) : Prop where
  soFar : CutSoFar s P moved t
  campaigns : CutCampaigns s P moved Q t
  calendar : CutCalendar s P t

/-! ### One record -/

/-- A record of a campaign to be cut has its turn. -/
theorem Cutting.record {s t : State} {P : List Change} {moved : List OutcomeRecord} {Q : List CampaignIndex}
    (h : Cutting s P moved Q t) (law : TableLaw s) {i : CampaignIndex} {p : LatePolicy} (due : s.duePolicy i = some p) (uncut : i ∉ Q)
    {r : Change} (hr : r ∈ s.table.records) (campaign : r.campaign = some i) (turn : r.serial ∉ P.map (·.serial)) :
    ∃ moved', Cutting s (P ++ [r]) (moved ++ moved') Q (cutRecord i p r.serial t) := by
  have meets : s.meets r = some p := by
    unfold State.meets
    rw [campaign]
    exact due
  by_cases passed : r.serial ∈ moved.map (·.serial)
  · have finished := h.soFar.passed law hr turn passed
    have nothing : cutRecord i p r.serial t = t := by
      unfold cutRecord
      rw [h.soFar.recordOf_gone passed]
    refine ⟨[], ?_⟩
    rw [nothing, List.append_nil]
    exact ⟨h.soFar.idle law hr (by rw [meets]; rfl) turn finished, h.campaigns.idle finished, h.calendar.idle finished⟩
  · have held := h.soFar.recordOf hr turn passed
    obtain ⟨moved', one⟩ := cutRecord_cutOne h.soFar.law held campaign p
    have law' : TableLaw (cutRecord i p r.serial t) :=
      (cutRecord_run (s0 := t) i p r.serial t).keeps (fun _ _ act => act.tableLaw h.soFar.law) h.soFar.law
    have ends : s.cutEnds r = r.endsWith p := by
      unfold State.cutEnds
      rw [meets]
      rfl
    have late : s.cutLate r = r.lateAtCut p := by
      unfold State.cutLate
      rw [meets]
      rfl
    exact ⟨moved', h.soFar.one law hr turn meets law' one,
      h.campaigns.one h.soFar.base.air campaign due uncut (by rw [ends, late]; exact one),
      h.calendar.one h.soFar hr turn held meets one.calendar⟩

/-- The records of a campaign to be cut have their turns. -/
theorem Cutting.records {s t : State} {P : List Change} {moved : List OutcomeRecord} {Q : List CampaignIndex}
    (h : Cutting s P moved Q t) (law : TableLaw s) {i : CampaignIndex} {p : LatePolicy} (due : s.duePolicy i = some p) (uncut : i ∉ Q)
    {rs : List Change} (mem : ∀ r ∈ rs, r ∈ s.table.records ∧ r.campaign = some i ∧ r.serial ∉ P.map (·.serial))
    (distinct : (rs.map (·.serial)).Nodup) :
    ∃ moved', Cutting s (P ++ rs) (moved ++ moved') Q ((rs.map (·.serial)).foldl (fun s k => cutRecord i p k s) t) := by
  induction rs generalizing P moved t with
  | nil => exact ⟨[], by rw [List.append_nil, List.append_nil]; exact h⟩
  | cons r rs ih =>
    obtain ⟨first, distinct⟩ := List.nodup_cons.mp distinct
    obtain ⟨hr, campaign, turn⟩ := mem r List.mem_cons_self
    obtain ⟨moved', one⟩ := h.record law due uncut hr campaign turn
    obtain ⟨later, all⟩ := ih one (fun q hq => by
      obtain ⟨hq', campaign, turn⟩ := mem q (List.mem_cons_of_mem r hq)
      refine ⟨hq', campaign, fun is => ?_⟩
      rw [List.map_append, List.map_singleton, List.mem_append, List.mem_singleton] at is
      exact is.elim turn fun same => first (List.mem_map.mpr ⟨q, hq, same⟩)) distinct
    refine ⟨moved' ++ later, ?_⟩
    rw [List.append_assoc, List.append_assoc] at all
    exact all

/-! ### One campaign -/

theorem CutSoFar.congr {s t t' : State} {P : List Change} {moved : List OutcomeRecord} (h : CutSoFar s P moved t)
    (base : SameBase t t') (dir : t'.dir = t.dir) (pool : t'.pool = t.pool) (planner : t'.planner = t.planner)
    (table : t'.table = t.table) (flags : t'.handler.flags = t.handler.flags) : CutSoFar s P moved t' where
  held := h.held
  distinct := h.distinct
  law := by
    have law := h.law
    unfold TableLaw at law ⊢
    rwa [table]
  base := h.base.trans base
  dir := dir.trans h.dir
  pool := pool.trans h.pool
  last := by rw [planner]; exact h.last
  boosts := by rw [planner]; exact h.boosts
  outcomes := by rw [table]; exact h.outcomes
  records := by rw [table]; exact h.records
  nextSerial := by rw [table]; exact h.nextSerial
  nextSequence := by rw [table]; exact h.nextSequence
  moves := h.moves
  once := h.once
  order := by rw [table]; exact h.order
  settled := by rw [table]; exact h.settled
  flags := by rw [flags]; exact h.flags

theorem CutCalendar.congr {s t t' : State} {P : List Change} (h : CutCalendar s P t) (planner : t'.planner = t.planner) :
    CutCalendar s P t' where
  others := fun d y other => by rw [planner]; exact h.others d y other
  told := fun directory live r hr e held => by
    obtain ⟨ended, verifies⟩ := h.told directory live r hr e held
    have same : ∀ d (y : CalendarEntry), y.addr = e.addr → (y ∈ t'.planner.calendar.get d ↔ y ∈ t.planner.calendar.get d) :=
      fun d y _ => by rw [planner]
    exact ⟨fun is => (ended is).congr (fun _ _ _ => Iff.rfl) same fun _ _ due => due,
      fun is => (verifies is).congr (fun _ _ _ => Iff.rfl) same fun _ _ due => due⟩

/-- The campaign's records have had their turn, and the campaign becomes CUT, or DONE at once. -/
theorem Cutting.cutNow {s t : State} {P : List Change} {moved : List OutcomeRecord} {Q : List CampaignIndex}
    (h : Cutting s P moved Q t) {i : CampaignIndex} (due : (s.duePolicy i).isSome = true) (uncut : i ∉ Q) :
    Cutting s P moved (Q ++ [i]) (doneCheck i (updCampaign (some i) (fun c => { c with state := .cut }) t)) := by
  obtain ⟨dir, pool, table, planner, flags⟩ := doneCheck_dir i (updCampaign (some i) (fun c => { c with state := .cut }) t)
  have base := (updCampaign_base (some i) (fun c => { c with state := .cut }) t).trans (doneCheck_base i _)
  exact ⟨h.soFar.congr base dir pool planner table flags, h.campaigns.cutNow h.soFar.base.air due uncut, h.calendar.congr planner⟩

/-- How long ago a record was admitted (R65). -/
def State.ageOf (s : State) (r : Change) : Nat := (s.table.nextSequence - r.sequence).toNat

theorem insertBy_weak {α : Type} {lt : α → α → Bool} {R : α → α → Prop} (trans : ∀ x y z, R x y → R y z → R x z)
    (yes : ∀ x y, lt y x = true → R y x) (no : ∀ x y, ¬ lt y x = true → R x y) {x : α} {l : List α} (sorted : l.Pairwise R) :
    (insertBy lt x l).Pairwise R := by
  induction l with
  | nil => exact List.pairwise_singleton _ _
  | cons y l ih =>
    obtain ⟨first, sorted⟩ := List.pairwise_cons.mp sorted
    rw [insertBy]
    split
    · next ahead =>
      refine List.pairwise_cons.mpr ⟨fun z hz => ?_, ih sorted⟩
      obtain rfl | hz := mem_insertBy.mp hz
      · exact yes _ _ ahead
      · exact first z hz
    · next behind =>
      refine List.pairwise_cons.mpr ⟨fun z hz => ?_, List.pairwise_cons.mpr ⟨first, sorted⟩⟩
      obtain rfl | hz := List.mem_cons.mp hz
      · exact no _ _ behind
      · exact trans x y z (no _ _ behind) (first z hz)

/-- A campaign's records in the order of their turns. -/
def cutQueue (i : CampaignIndex) (s : State) : List Change :=
  sortBy (fun a b => sequenceBefore s.table.nextSequence (a.sequence, a.addr) (b.sequence, b.addr))
    (s.table.records.filter fun r => decide (r.campaign = some i))

theorem mem_cutQueue {i : CampaignIndex} {s : State} {r : Change} :
    r ∈ cutQueue i s ↔ r ∈ s.table.records ∧ r.campaign = some i := by
  rw [cutQueue, (sortBy_perm _ _).mem_iff, List.mem_filter, decide_eq_true_iff]

/-- The turns come in the order of admission, earliest first (R65, R97). -/
theorem cutQueue_pairwise (i : CampaignIndex) (s : State) : (cutQueue i s).Pairwise fun q r => s.ageOf r ≤ s.ageOf q := by
  have sorted : ∀ l : List Change, (sortBy (fun a b => sequenceBefore s.table.nextSequence (a.sequence, a.addr)
      (b.sequence, b.addr)) l).Pairwise fun q r => s.ageOf r ≤ s.ageOf q := by
    intro l
    induction l with
    | nil => exact List.Pairwise.nil
    | cons x l ih =>
      refine insertBy_weak (R := fun q r => s.ageOf r ≤ s.ageOf q) (fun _ _ _ h g => Nat.le_trans g h) (fun x y before => ?_) (fun x y before => ?_) ih
      · simp only [sequenceBefore, sequenceAge, Bool.or_eq_true, Bool.and_eq_true] at before
        unfold State.ageOf
        obtain older | ⟨same, -⟩ := before
        · exact (of_decide_eq_true older).le
        · exact (congrArg (fun q : Sequence => (s.table.nextSequence - q).toNat) (of_decide_eq_true same)).ge
      · simp only [sequenceBefore, sequenceAge, Bool.or_eq_true, not_or] at before
        exact Nat.not_lt.mp fun older => before.1 (decide_eq_true older)
  exact sorted _

/-- In a list by age the older of two comes first. -/
theorem sublist_of_ages {α : Type} {age : α → Nat} {l : List α} (sorted : l.Pairwise fun q r => age r ≤ age q) {q r : α}
    (hq : q ∈ l) (hr : r ∈ l) (older : age r < age q) : [q, r].Sublist l := by
  induction l with
  | nil => cases hq
  | cons x l ih =>
    obtain ⟨first, sorted⟩ := List.pairwise_cons.mp sorted
    obtain rfl | hq' := List.mem_cons.mp hq
    · obtain rfl | hr' := List.mem_cons.mp hr
      · exact absurd older (Nat.lt_irrefl _)
      · exact (List.singleton_sublist.mpr hr').cons_cons _
    · obtain rfl | hr' := List.mem_cons.mp hr
      · exact absurd (first q hq') (Nat.not_le.mpr older)
      · exact (ih sorted hq' hr').cons _

theorem cutOf_campaign (s : State) (r : Change) : (s.cutOf r).campaign = r.campaign := by
  unfold State.cutOf
  split
  · rfl
  · unfold Change.atCut
    split <;> [(split <;> rfl); (split <;> rfl); rfl; rfl; rfl; rfl]

theorem soFar_campaign (s : State) (P : List Change) (r : Change) : (s.soFar P r).campaign = r.campaign := by
  unfold State.soFar
  split
  · exact cutOf_campaign s r
  · rfl

/-- A campaign is cut: its records that have not passed have their turns in the order of admission. -/
theorem Cutting.campaign {s t : State} {P : List Change} {moved : List OutcomeRecord} {Q : List CampaignIndex}
    (h : Cutting s P moved Q t) (law : TableLaw s) {i : CampaignIndex} {p : LatePolicy} (due : s.duePolicy i = some p) (uncut : i ∉ Q)
    (earlier : ∀ r ∈ P, r.campaign ≠ some i) :
    ∃ rs moved', Cutting s (P ++ rs) (moved ++ moved') (Q ++ [i]) (cutCampaign i t)
      ∧ (∀ r ∈ rs, r.campaign = some i)
      ∧ (∀ r ∈ s.table.records, r.campaign = some i → r ∈ rs ∨ r.state = .finished)
      ∧ rs.Pairwise fun q r => s.ageOf r ≤ s.ageOf q := by
  have turnless {r : Change} (hr : r ∈ s.table.records) (campaign : r.campaign = some i) : r.serial ∉ P.map (·.serial) := by
    intro is
    obtain ⟨q, hq, serial⟩ := List.mem_map.mp is
    obtain rfl := law.eq_of_serial (h.soFar.held q hq).1 hr serial
    exact earlier q hq campaign
  have queued : ∀ r ∈ cutQueue i t, r ∈ s.table.records ∧ r.campaign = some i ∧ r.serial ∉ P.map (·.serial) := by
    intro r hr
    obtain ⟨mem, campaign⟩ := mem_cutQueue.mp hr
    rw [h.soFar.records] at mem
    obtain ⟨x, hx, rfl⟩ := List.mem_map.mp mem
    rw [soFar_campaign] at campaign
    have hx := (List.mem_filter.mp hx).1
    have turn := turnless hx campaign
    have same : s.soFar P x = x := if_neg turn
    rw [same]
    exact ⟨hx, campaign, turn⟩
  have distinct : ((cutQueue i t).map (·.serial)).Nodup :=
    ((sortBy_perm _ _).map _).nodup_iff.mpr (h.soFar.law.2.1.sublist (List.filter_sublist.map _))
  obtain ⟨moved', turns⟩ := h.records law due uncut queued distinct
  obtain ⟨opened, a, active, -, policy⟩ := duePolicy_eq_some.mp due
  have active' : (t.campaigns.get i).activation = some a := by
    rw [show (t.campaigns.get i) = _ from (Prod.ext_iff.mp (h.campaigns.coming i (by rw [due]; rfl) uncut)).1]
    exact active
  have cuts : cutCampaign i t = doneCheck i (updCampaign (some i) (fun c => { c with state := .cut })
      (((cutQueue i t).map (·.serial)).foldl (fun s k => cutRecord i p k s) t)) := by
    unfold cutCampaign
    rw [active', ← policy]
    rfl
  refine ⟨cutQueue i t, moved', cuts ▸ turns.cutNow (by rw [due]; rfl) uncut, fun r hr => (queued r hr).2.1,
    fun r hr campaign => ?_, ?_⟩
  · by_cases passed : r.serial ∈ moved.map (·.serial)
    · exact .inr (h.soFar.passed law hr (turnless hr campaign) passed)
    · refine .inl (mem_cutQueue.mpr ⟨recordOf_mem (h.soFar.recordOf hr (turnless hr campaign) passed), campaign⟩)
  · have ages : t.ageOf = s.ageOf := by
      funext r
      unfold State.ageOf
      rw [h.soFar.nextSequence]
    rw [← ages]
    exact cutQueue_pairwise i t

end Sys2Proof.Machine
end

section
/-! All the cuts of a beacon start together, in whichever order the campaigns with one beacon take (R95 to R97). -/

namespace Sys2Proof.Machine

/-- The campaigns of `Q` are cut, the records of `P` have had their turns, and the outcome records `moved` have passed. -/
structure Cuts (s : State) (P : List Change) (moved : List OutcomeRecord) (Q : List CampaignIndex) (t : State) : Prop where
  cutting : Cutting s P moved Q t
  among : ∀ r ∈ P, ∃ i ∈ Q, r.campaign = some i
  covers : ∀ i ∈ Q, ∀ r ∈ s.table.records, r.campaign = some i → r ∈ P ∨ r.state = .finished
  order : ∀ i, ∀ q ∈ P, ∀ r ∈ P, q.campaign = some i → r.campaign = some i → s.ageOf r < s.ageOf q → [q, r].Sublist P

theorem cuts_start {s : State} (law : TableLaw s) : Cuts s [] [] [] s where
  cutting := ⟨cutSoFar_start law, cutCampaigns_start s, cutCalendar_start s⟩
  among := fun _ hr => (List.not_mem_nil hr).elim
  covers := fun _ hi => (List.not_mem_nil hi).elim
  order := fun _ _ hq => (List.not_mem_nil hq).elim

/-- One campaign more is cut. -/
theorem Cuts.snoc {s t : State} {P : List Change} {moved : List OutcomeRecord} {Q : List CampaignIndex} (h : Cuts s P moved Q t)
    (law : TableLaw s) {i : CampaignIndex} (due : (s.duePolicy i).isSome = true) (uncut : i ∉ Q) :
    ∃ P' moved', Cuts s P' moved' (Q ++ [i]) (cutCampaign i t) := by
  obtain ⟨p, due⟩ := Option.isSome_iff_exists.mp due
  have earlier : ∀ r ∈ P, r.campaign ≠ some i := by
    intro r hr same
    obtain ⟨j, hj, campaign⟩ := h.among r hr
    exact uncut (Option.some.inj (campaign.symm.trans same) ▸ hj)
  obtain ⟨rs, moved', cutting, campaign, all, ages⟩ := h.cutting.campaign law due uncut earlier
  refine ⟨P ++ rs, moved ++ moved', cutting, fun r hr => ?_, fun j hj r hr of => ?_, fun j q hq r hr qOf rOf older => ?_⟩
  · obtain hr | hr := List.mem_append.mp hr
    · obtain ⟨j, hj, of⟩ := h.among r hr
      exact ⟨j, List.mem_append_left _ hj, of⟩
    · exact ⟨i, List.mem_append_right _ (List.mem_singleton.mpr rfl), campaign r hr⟩
  · obtain hj | hj := List.mem_append.mp hj
    · exact (h.covers j hj r hr of).imp_left (List.mem_append_left _)
    · obtain rfl := List.mem_singleton.mp hj
      exact (all r hr of).imp_left (List.mem_append_right _)
  · by_cases here : j = i
    · subst here
      have last {x : Change} (hx : x ∈ P ++ rs) (of : x.campaign = some j) : x ∈ rs :=
        (List.mem_append.mp hx).resolve_left fun old => earlier x old of
      exact (sublist_of_ages ages (last hq qOf) (last hr rOf) older).trans (List.sublist_append_right P rs)
    · have first {x : Change} (hx : x ∈ P ++ rs) (of : x.campaign = some j) : x ∈ P :=
        (List.mem_append.mp hx).resolve_right fun new => here (Option.some.inj (of.symm.trans (campaign x new)))
      exact (h.order j q (first hq qOf) r (first hr rOf) qOf rOf older).trans (List.sublist_append_left P rs)

theorem Cuts.all {s t : State} {P : List Change} {moved : List OutcomeRecord} {Q D : List CampaignIndex} (h : Cuts s P moved Q t)
    (law : TableLaw s) (distinct : D.Nodup) (due : ∀ i ∈ D, (s.duePolicy i).isSome = true ∧ i ∉ Q) :
    ∃ P' moved', Cuts s P' moved' (Q ++ D) (D.foldl (fun s i => cutCampaign i s) t) := by
  induction D generalizing P moved Q t with
  | nil => exact ⟨P, moved, by rw [List.append_nil]; exact h⟩
  | cons i D ih =>
    obtain ⟨first, distinct⟩ := List.nodup_cons.mp distinct
    obtain ⟨hi, uncut⟩ := due i List.mem_cons_self
    obtain ⟨P', moved', one⟩ := h.snoc law hi uncut
    obtain ⟨P'', moved'', all⟩ := ih one distinct fun j hj => by
      obtain ⟨hj', later⟩ := due j (List.mem_cons_of_mem i hj)
      refine ⟨hj', fun is => ?_⟩
      obtain is | is := List.mem_append.mp is
      · exact later is
      · exact first (List.mem_singleton.mp is ▸ hj)
    rw [List.append_assoc] at all
    exact ⟨P'', moved'', all⟩

theorem mem_dueCuts_iff (s : State) (i : CampaignIndex) : i ∈ dueCuts s ↔ (s.duePolicy i).isSome = true := by
  rw [mem_dueCuts, Option.isSome_iff_exists]
  constructor
  · rintro ⟨opened, a, active, now⟩
    exact ⟨a.policy, duePolicy_eq_some.mpr ⟨opened, a, active, now, rfl⟩⟩
  · rintro ⟨p, due⟩
    obtain ⟨opened, a, active, now, -⟩ := duePolicy_eq_some.mp due
    exact ⟨opened, a, active, now⟩

/-- The cuts of a beacon start cut the campaigns whose activation beacon it is, each once. -/
theorem takeCuts_cuts {s : State} (law : TableLaw s) : ∃ n P moved Q t, takeCuts s = { t with freeIndex := n }
    ∧ Cuts s P moved Q t ∧ ∀ i, i ∈ Q ↔ (s.duePolicy i).isSome = true := by
  have perm := freeOrder_perm 4 s.freeIndex (dueCuts s)
  have distinct : (freeOrder 4 s.freeIndex (dueCuts s)).Nodup :=
    perm.nodup_iff.mpr (List.Nodup.filter _ (by decide : allFour.Nodup))
  obtain ⟨P, moved, cuts⟩ := (cuts_start law).all law distinct fun i hi =>
    ⟨(mem_dueCuts_iff s i).mp (perm.mem_iff.mp hi), List.not_mem_nil⟩
  have due : ∀ i, i ∈ freeOrder 4 s.freeIndex (dueCuts s) ↔ (s.duePolicy i).isSome = true :=
    fun i => perm.mem_iff.trans (mem_dueCuts_iff s i)
  unfold takeCuts
  dsimp only
  split
  · exact ⟨_, P, moved, _, _, rfl, cuts, due⟩
  · exact ⟨_, P, moved, _, _, rfl, cuts, due⟩

/-! ### What the records of `P` add up to -/

/-- What is counted of a list is counted of a part that holds all of it that counts. -/
theorem countP_of_covers {α : Type} {q : α → Bool} {P l : List α} (distinct : P.Nodup) (distinct' : l.Nodup)
    (among : ∀ x ∈ P, x ∈ l) (covers : ∀ x ∈ l, q x = true → x ∈ P) : P.countP q = l.countP q := by
  rw [List.countP_eq_length_filter, List.countP_eq_length_filter]
  refine ((List.perm_ext_iff_of_nodup (distinct.filter _) (distinct'.filter _)).mpr fun x => ?_).length_eq
  rw [List.mem_filter, List.mem_filter]
  exact ⟨fun ⟨hx, counts⟩ => ⟨among x hx, counts⟩, fun ⟨hx, counts⟩ => ⟨covers x hx counts, counts⟩⟩

/-- A sum of ones and zeros counts. -/
theorem sum_ite_one {α : Type} (q : α → Bool) (l : List α) : (l.map fun x => if q x = true then 1 else 0).sum = l.countP q := by
  induction l with
  | nil => rfl
  | cons x l ih =>
    rw [List.map_cons, List.sum_cons, ih, List.countP_cons, Nat.add_comm]

/-- Of a campaign that is cut, every live record counts. -/
theorem Cuts.countP {s t : State} {P : List Change} {moved : List OutcomeRecord} {Q : List CampaignIndex} (h : Cuts s P moved Q t)
    (law : TableLaw s) {i : CampaignIndex} (cut : i ∈ Q) {q : Change → Bool} (live : ∀ r, q r = true → r.state ≠ .finished) :
    (P.filter fun r => decide (r.campaign = some i)).countP q
      = s.table.records.countP fun r => q r && decide (r.campaign = some i) := by
  rw [List.countP_filter]
  refine countP_of_covers (List.Nodup.of_map _ h.cutting.soFar.distinct) (List.Nodup.of_map _ law.2.1)
    (fun r hr => (h.cutting.soFar.held r hr).1) fun r hr counts => ?_
  obtain ⟨counts, of⟩ := Bool.and_eq_true_iff.mp counts
  exact (h.covers i cut r hr (of_decide_eq_true of)).resolve_right (live r counts)

/-- A record of a campaign to be cut that is not FINISHED has had its turn. -/
theorem Cuts.mem {s t : State} {P : List Change} {moved : List OutcomeRecord} {Q : List CampaignIndex} (h : Cuts s P moved Q t)
    (all : ∀ i, i ∈ Q ↔ (s.duePolicy i).isSome = true) {r : Change} (hr : r ∈ s.table.records)
    (meets : (s.meets r).isSome = true) (live : r.state ≠ .finished) : r ∈ P := by
  obtain ⟨p, meets⟩ := Option.isSome_iff_exists.mp meets
  obtain ⟨i, of, due⟩ := Option.bind_eq_some_iff.mp meets
  exact (h.covers i ((all i).mpr (by rw [due]; rfl)) r hr of).resolve_right live

/-- The records that end at the cut are those of `P` that do. -/
theorem Cuts.mem_ends {s t : State} {P : List Change} {moved : List OutcomeRecord} {Q : List CampaignIndex} (h : Cuts s P moved Q t)
    (all : ∀ i, i ∈ Q ↔ (s.duePolicy i).isSome = true) (r : Change) :
    r ∈ P.filter s.cutEnds ↔ r ∈ s.table.records ∧ s.cutEnds r = true := by
  rw [List.mem_filter]
  refine ⟨fun ⟨hr, ends⟩ => ⟨(h.cutting.soFar.held r hr).1, ends⟩, fun ⟨hr, ends⟩ => ⟨h.mem all hr ?_ (cutEnds_live ends), ends⟩⟩
  unfold State.cutEnds at ends
  obtain ⟨p, meets, -⟩ := (Option.any_eq_true _ _).mp ends
  rw [meets]
  rfl

/-- What passes leaves no more than the records that stood. -/
theorem CutSoFar.moved_length {s t : State} {P : List Change} {moved : List OutcomeRecord} (h : CutSoFar s P moved t) :
    moved.length ≤ s.table.records.length := by
  have among : moved.map (·.serial) ⊆ s.table.records.map (·.serial) := by
    intro k hk
    obtain ⟨o, ho, rfl⟩ := List.mem_map.mp hk
    obtain ⟨r, hr, leaves⟩ := h.moves o ho
    exact List.mem_map.mpr ⟨r, hr, by rw [outcomeRecord_of_serial leaves, soFar_serial]⟩
  have := (List.subperm_of_subset h.once among).length_le
  rwa [List.length_map, List.length_map] at this

end Sys2Proof.Machine
end

section
/-! The campaigns after the cuts: counts, tallies, and what is DONE (R94, R96, R103, R104). -/

namespace Sys2Proof.Machine

/-! ### Counting and done detection -/

theorem counting_sum (a : Tallies) (os : List OutcomeRecord) : (a.counting os).sum = a.sum + BitVec.ofNat 32 os.length := by
  induction os generalizing a with
  | nil => exact (BitVec.add_zero _).symm
  | cons o os ih =>
    rw [counting_cons, ih, bump_sum, List.length_cons, Nat.add_comm os.length, BitVec.ofNat_add, BitVec.add_assoc]

/-- To tally is to count and then to look whether the campaign is done. -/
theorem tallyOne_doneNow (b : Beacon) (x : Campaign × Option Campaign) (o : OutcomeRecord) :
    tallyOne b x o = doneNow b ({ x.1 with tallies := x.1.tallies.bump o.code }, x.2) := rfl

/-- A campaign looked at since it was cut, with its notice: short of its admitted count, or DONE with at most `n` counted after. -/
inductive CutOrDone (b : Beacon) (n : Nat) (x : Campaign × Option Campaign) : Prop
  | cut (state : x.1.state = .cut) (short : x.1.admitted ≠ x.1.tallies.sum)
  | done (y : Tallies) (later : List OutcomeRecord) (few : later.length ≤ n) (state : x.1.state = .done)
      (beacon : x.1.doneBeacon = some b) (notice : x.2 = some { x.1 with tallies := y })
      (counted : x.1.tallies = y.counting later) (complete : x.1.admitted = y.sum)

theorem doneNow_cutOrDone (b : Beacon) (n : Nat) {x : Campaign × Option Campaign} (cut : x.1.state = .cut) :
    CutOrDone b n (doneNow b x) := by
  unfold doneNow
  split
  · next complete => exact .done _ [] (Nat.zero_le n) rfl rfl rfl rfl complete.2
  · next short => exact .cut cut fun complete => short ⟨cut, complete⟩

theorem CutOrDone.tally {b : Beacon} {n : Nat} {x : Campaign × Option Campaign} (h : CutOrDone b n x) (o : OutcomeRecord) :
    CutOrDone b (n + 1) (tallyOne b x o) := by
  cases h with
  | cut state _ =>
    rw [tallyOne_doneNow]
    exact doneNow_cutOrDone b (n + 1) state
  | done y later few state beacon notice counted complete =>
    have still : tallyOne b x o = ({ x.1 with tallies := x.1.tallies.bump o.code }, x.2) :=
      if_neg fun again => CampaignState.noConfusion (state.symm.trans again.1)
    rw [still]
    refine .done y (later ++ [o]) ?_ state beacon notice ?_ complete
    · rw [List.length_append]
      exact Nat.succ_le_succ few
    · rw [counting_append, ← counted]
      rfl

theorem CutOrDone.tallies {b : Beacon} {n : Nat} {x : Campaign × Option Campaign} (h : CutOrDone b n x) (os : List OutcomeRecord) :
    CutOrDone b (n + os.length) (os.foldl (tallyOne b) x) := by
  induction os generalizing n x with
  | nil => exact h
  | cons o os ih =>
    rw [List.length_cons, Nat.add_comm os.length, ← Nat.add_assoc]
    exact ih (h.tally o)

/-- With its account in order a campaign is DONE as soon as its admitted count is reached, and no outcome of it comes later. -/
theorem CutOrDone.settled {b : Beacon} {n k : Nat} {x : Campaign × Option Campaign} (h : CutOrDone b n x) (few : n < 2 ^ 32)
    (account : Account x.1 k) : (x.1.state = .done ↔ x.1.admitted = x.1.tallies.sum)
      ∧ (x.1.state = .done → x.1.doneBeacon = some b ∧ x.2 = some x.1) := by
  obtain ⟨sum, gone⟩ := account
  cases h with
  | cut state short =>
    have open' : x.1.state ≠ .done := by rw [state]; decide
    exact ⟨⟨fun done => absurd done open', fun complete => absurd complete short⟩, fun done => absurd done open'⟩
  | done y later le state beacon notice counted complete =>
    rw [gone (.inr state), BitVec.add_zero] at sum
    have more : y.sum + 0#32 = y.sum + BitVec.ofNat 32 later.length := by
      rw [BitVec.add_zero, ← counting_sum, ← counted, ← complete, sum]
    have none : later.length = 0 := by
      have same := congrArg BitVec.toNat (BitVec.add_right_inj (y.sum) |>.mp more)
      rw [BitVec.toNat_ofNat, BitVec.toNat_ofNat, Nat.mod_eq_of_lt (Nat.lt_of_le_of_lt le few)] at same
      exact same.symm
    refine ⟨⟨fun _ => sum, fun _ => state⟩, fun _ => ⟨beacon, ?_⟩⟩
    rw [List.eq_nil_of_length_eq_zero none] at counted
    rw [notice, show y = x.1.tallies from counted.symm]

/-- What tallying leaves of a campaign. -/
structure CountedOn (c : Campaign) (os : List OutcomeRecord) (d : Campaign) : Prop where
  activation : d.activation = c.activation
  admitted : d.admitted = c.admitted
  late : d.lateCount = c.lateCount
  stale : d.staleCount = c.staleCount
  live : d.live = c.live
  tallies : d.tallies = c.tallies.counting os

theorem doneNow_countedOn (b : Beacon) (x : Campaign × Option Campaign) : CountedOn x.1 [] (doneNow b x).1 := by
  unfold doneNow
  split <;> exact ⟨rfl, rfl, rfl, rfl, rfl, rfl⟩

theorem foldl_tallyOne_countedOn (b : Beacon) (x : Campaign × Option Campaign) (os : List OutcomeRecord) :
    CountedOn x.1 os (os.foldl (tallyOne b) x).1 := by
  induction os generalizing x with
  | nil => exact ⟨rfl, rfl, rfl, rfl, rfl, rfl⟩
  | cons o os ih =>
    obtain ⟨activation, admitted, late, stale, live, tallies⟩ := ih (tallyOne b x o)
    have one := doneNow_countedOn b ({ x.1 with tallies := x.1.tallies.bump o.code }, x.2)
    rw [← tallyOne_doneNow] at one
    exact ⟨activation.trans one.activation, admitted.trans one.admitted, late.trans one.late, stale.trans one.stale,
      live.trans one.live, by rw [List.foldl_cons, tallies, one.tallies]; rfl⟩

/-- Some outcomes make a campaign DONE, or only count. -/
theorem foldl_tallyOne_cases (b : Beacon) (c : Campaign) (notice : Option Campaign) (os : List OutcomeRecord) :
    os.foldl (tallyOne b) (c, notice) = ({ c with tallies := c.tallies.counting os }, notice)
      ∨ c.state = .cut ∧ os ≠ [] ∧ (os.foldl (tallyOne b) (c, notice)).1
        = { c with tallies := c.tallies.counting os, state := .done, doneBeacon := some b } := by
  classical
  by_cases completes : ∃ n, c.completedBy os n
  · refine .inr ⟨(Nat.find_spec completes).1, ?_, ?_⟩
    · rintro rfl
      obtain ⟨-, pos, le, -⟩ := Nat.find_spec completes
      exact absurd le (Nat.not_le.mpr pos)
    · rw [foldl_tallyOne_done b c notice os (Nat.find_spec completes) fun m hm => Nat.find_min completes hm]
  · exact .inl (foldl_tallyOne_counts b c notice os fun n done => completes ⟨n, done⟩)

/-! ### The campaigns after the cuts -/

/-- A campaign that is cut (R95, R96, R103). -/
theorem Cuts.cut {s t : State} {P : List Change} {moved : List OutcomeRecord} {Q : List CampaignIndex} (h : Cuts s P moved Q t)
    (law : TableLaw s) {i : CampaignIndex} (cut : i ∈ Q) {p : LatePolicy} (due : s.duePolicy i = some p) :
    CutOrDone s.air.beacon moved.length (t.campaigns.get i, t.handler.notices.campaignDone.get i)
      ∧ CountedOn { s.campaigns.get i with
          lateCount := (s.campaigns.get i).lateCount + s.table.records.countP fun r =>
            decide (p = .apply ∧ r.delivering = true) && decide (r.campaign = some i)
          staleCount := (s.campaigns.get i).staleCount + s.table.records.countP fun r =>
            decide (r.delivering = true ∧ r.displaced.isSome = true) && decide (r.campaign = some i)
          live := (s.campaigns.get i).live - s.table.records.countP fun r => s.cutEnds r && decide (r.campaign = some i) }
        (ofCampaign moved i) (t.campaigns.get i) := by
  obtain ⟨m, rest, split, result⟩ := h.cutting.campaigns.cut i cut
  have delivers {r : Change} (h : r.delivering = true) : r.state ≠ .finished := by
    intro finished
    simp [Change.delivering, finished] at h
  have late : ((P.filter fun r => decide (r.campaign = some i)).map s.cutLate).sum
      = s.table.records.countP fun r => decide (p = .apply ∧ r.delivering = true) && decide (r.campaign = some i) := by
    rw [← h.countP law cut fun r counts => delivers (of_decide_eq_true counts).2, ← sum_ite_one]
    refine congrArg _ (List.map_congr_left fun r hr => ?_)
    have of := of_decide_eq_true (List.mem_filter.mp hr).2
    simp only [State.cutLate, State.meets, of, Option.bind_some, due, Option.map_some, Option.getD_some, Change.lateAtCut,
      decide_eq_true_eq]
  have stale : ((P.filter fun r => decide (r.campaign = some i)).map Change.staleAtCut).sum
      = s.table.records.countP fun r =>
        decide (r.delivering = true ∧ r.displaced.isSome = true) && decide (r.campaign = some i) := by
    rw [← h.countP law cut fun r counts => delivers (of_decide_eq_true counts).1, ← sum_ite_one]
    refine congrArg _ (List.map_congr_left fun r _ => ?_)
    simp only [Change.staleAtCut, decide_eq_true_eq]
  have live := h.countP law cut fun r ends => cutEnds_live (s := s) ends
  have few : rest.length ≤ moved.length := by
    have := List.length_filter_le (fun o : OutcomeRecord => decide (o.campaign = some i)) moved
    rw [show (moved.filter fun o => decide (o.campaign = some i)) = m ++ rest from split, List.length_append] at this
    omega
  refine ⟨?_, ?_⟩
  · rw [result]
    have counted := (doneNow_cutOrDone s.air.beacon 0 (x := ({ s.cutCounts P i with
      state := .cut, tallies := (s.campaigns.get i).tallies.counting m }, s.handler.notices.campaignDone.get i)) rfl).tallies rest
    cases counted with
    | cut state short => exact .cut state short
    | done y later le state beacon notice counted complete =>
      exact .done y later (by omega) state beacon notice counted complete
  · rw [show t.campaigns.get i = _ from (Prod.ext_iff.mp result).1]
    have one := doneNow_countedOn s.air.beacon ({ s.cutCounts P i with
      state := .cut, tallies := (s.campaigns.get i).tallies.counting m }, s.handler.notices.campaignDone.get i)
    have on := foldl_tallyOne_countedOn s.air.beacon (doneNow s.air.beacon ({ s.cutCounts P i with
      state := .cut, tallies := (s.campaigns.get i).tallies.counting m }, s.handler.notices.campaignDone.get i)) rest
    refine ⟨on.activation.trans one.activation, on.admitted.trans one.admitted, ?_, ?_, ?_, ?_⟩
    · rw [on.late, one.late]
      exact congrArg ((s.campaigns.get i).lateCount + ·) late
    · rw [on.stale, one.stale]
      exact congrArg ((s.campaigns.get i).staleCount + ·) stale
    · rw [on.live, one.live]
      exact congrArg ((s.campaigns.get i).live - ·) live
    · rw [on.tallies, one.tallies, split, counting_append]
      rfl

/-- Every campaign counts the outcomes of it that pass (R94). -/
theorem Cuts.tallies {s t : State} {P : List Change} {moved : List OutcomeRecord} {Q : List CampaignIndex} (h : Cuts s P moved Q t)
    (law : TableLaw s) (all : ∀ i, i ∈ Q ↔ (s.duePolicy i).isSome = true) (j : CampaignIndex) :
    (t.campaigns.get j).tallies = (s.campaigns.get j).tallies.counting (ofCampaign moved j) := by
  cases due : s.duePolicy j with
  | none =>
    rw [show t.campaigns.get j = _ from (Prod.ext_iff.mp (h.cutting.campaigns.others j due)).1]
    exact (foldl_tallyOne_countedOn _ _ _).tallies
  | some p => exact (h.cut law ((all j).mpr (by rw [due]; rfl)) due).2.tallies

end Sys2Proof.Machine
end

section
/-! What a beacon start's cuts leave: records, outcomes, entries, pool, flags, boosts and calendars (R63, R81, R95 to R97). -/

namespace Sys2Proof.Machine

section
variable {s t : State} {P : List Change} {moved : List OutcomeRecord} {Q : List CampaignIndex}

/-! ### Records and outcomes -/

theorem CutSoFar.leaves (h : CutSoFar s P moved t) (law : TableLaw s) {r : Change} (hr : r ∈ s.table.records) {o : OutcomeRecord}
    (ho : o ∈ moved) (serial : o.serial = r.serial) : (s.soFar P r).outcomeRecord = some o := by
  obtain ⟨x, hx, leaves⟩ := h.moves o ho
  obtain rfl := law.eq_of_serial hx hr (by rw [← serial, outcomeRecord_of_serial leaves, soFar_serial])
  exact leaves

/-- A record stands unless its outcome has passed. -/
theorem CutSoFar.stands (h : CutSoFar s P moved t) (law : TableLaw s) {r : Change} (hr : r ∈ s.table.records) :
    s.soFar P r ∈ t.table.records ∨ ∃ o ∈ moved, (s.soFar P r).outcomeRecord = some o := by
  by_cases passed : r.serial ∈ moved.map (·.serial)
  · obtain ⟨o, ho, serial⟩ := List.mem_map.mp passed
    exact .inr ⟨o, ho, h.leaves law hr ho serial⟩
  · rw [h.records]
    exact .inl (List.mem_map.mpr ⟨r, List.mem_filter.mpr ⟨hr, decide_eq_true passed⟩, rfl⟩)

theorem soFar_of_mem {r : Change} (turn : r ∈ P) : s.soFar P r = s.cutOf r := if_pos (List.mem_map.mpr ⟨r, turn, rfl⟩)

/-- A record that does not end stands as the cut leaves it. -/
theorem CutSoFar.stays (h : CutSoFar s P moved t) (law : TableLaw s) {r : Change} (hr : r ∈ s.table.records) (turn : r ∈ P)
    (lasts : (s.cutOf r).outcomeRecord = none) : s.cutOf r ∈ t.table.records := by
  have stands := h.stands law hr
  rw [soFar_of_mem turn] at stands
  refine stands.resolve_right fun ⟨o, _, leaves⟩ => ?_
  rw [lasts] at leaves
  cases leaves

/-- A record that ends at the cut stands in the retire queue with its outcome, or has passed with it. -/
theorem CutSoFar.finished (h : CutSoFar s P moved t) (law : TableLaw s) {r : Change} (hr : r ∈ s.table.records) (turn : r ∈ P)
    (ends : s.cutEnds r = true) {o : OutcomeRecord} (leaves : (s.cutOf r).outcomeRecord = some o)
    (state : (s.cutOf r).state = .finished) : FinishedAs t o := by
  have serial : o.serial = r.serial := (outcomeRecord_of_serial leaves).trans (cutOf_serial s r)
  have stands := h.stands law hr
  rw [soFar_of_mem turn] at stands
  have passed {o' : OutcomeRecord} (ho : o' ∈ moved) (leaves' : (s.cutOf r).outcomeRecord = some o') : FinishedAs t o := by
    rw [leaves] at leaves'
    refine .inl ?_
    rw [h.outcomes]
    exact List.mem_append_right _ (Option.some.inj leaves' ▸ ho)
  obtain stands | ⟨o', ho, leaves'⟩ := stands
  · have named : r.serial ∈ (P.filter s.cutEnds).map (·.serial) := List.mem_map.mpr ⟨r, List.mem_filter.mpr ⟨turn, ends⟩, rfl⟩
    obtain gone | waits := List.mem_append.mp (h.order.subset named)
    · obtain ⟨o', ho, serial'⟩ := List.mem_map.mp gone
      have left := h.leaves law hr ho serial'
      rw [soFar_of_mem turn] at left
      exact passed ho left
    · exact .inr ⟨serial ▸ waits, s.cutOf r, stands, (cutOf_serial s r).trans serial.symm, state, leaves⟩
  · exact passed ho leaves'

theorem cutOf_idle {r : Change} (idle : s.meets r = none) : s.cutOf r = r := by
  unfold State.cutOf
  rw [idle]

theorem soFar_idle {r : Change} (idle : s.meets r = none ∨ r.state = .finished) : s.soFar P r = r := by
  unfold State.soFar
  split
  · exact idle.elim cutOf_idle cutOf_finished
  · rfl

/-- A record the cut does not concern stands, or was FINISHED and has passed. -/
theorem CutSoFar.untouched (h : CutSoFar s P moved t) (law : TableLaw s) {r : Change} (hr : r ∈ s.table.records)
    (idle : s.meets r = none ∨ r.state = .finished) :
    r ∈ t.table.records ∨ r.state = .finished ∧ ∃ o ∈ moved, r.outcomeRecord = some o := by
  have stands := h.stands law hr
  rw [soFar_idle idle] at stands
  exact stands.imp_right fun ⟨o, ho, leaves⟩ => ⟨outcomeRecord_finished law hr leaves, o, ho, leaves⟩

theorem CutSoFar.from (h : CutSoFar s P moved t) {x : Change} (hx : x ∈ t.table.records) :
    ∃ r ∈ s.table.records, r.serial = x.serial ∧ (s.meets r = none → x = r) := by
  rw [h.records] at hx
  obtain ⟨r, hr, rfl⟩ := List.mem_map.mp hx
  exact ⟨r, (List.mem_filter.mp hr).1, (soFar_serial s P r).symm, fun idle => soFar_idle (.inl idle)⟩

/-- Of two records of one campaign that end, the one admitted earlier comes first (R97). -/
theorem Cuts.queued (h : Cuts s P moved Q t) (all : ∀ i, i ∈ Q ↔ (s.duePolicy i).isSome = true) {i : CampaignIndex} {q r : Change}
    (hq : q ∈ s.table.records) (hr : r ∈ s.table.records) (qOf : q.campaign = some i) (rOf : r.campaign = some i)
    (qEnds : s.cutEnds q = true) (rEnds : s.cutEnds r = true) (older : s.ageOf r < s.ageOf q) :
    [q.serial, r.serial].Sublist (t.table.outcomes.map (·.serial) ++ t.table.retire) := by
  have qTurn := (h.mem_ends all q).mpr ⟨hq, qEnds⟩
  have rTurn := (h.mem_ends all r).mpr ⟨hr, rEnds⟩
  have turns := h.order i q (List.mem_filter.mp qTurn).1 r (List.mem_filter.mp rTurn).1 qOf rOf older
  have ended : [q.serial, r.serial].Sublist ((P.filter s.cutEnds).map (·.serial)) := by
    have := (turns.filter s.cutEnds).map (·.serial)
    rwa [List.filter_cons_of_pos qEnds, List.filter_cons_of_pos rEnds] at this
  rw [h.cutting.soFar.outcomes, List.map_append, List.append_assoc]
  exact (ended.trans h.cutting.soFar.order).trans (List.sublist_append_right _ _)

/-! ### Pool, flags and boosts -/

theorem foldl_release_held {E : List Change} {pool : Pool} {x : PoolEntry} :
    x ∈ (E.foldl (fun pool r => pool.release r.serial) pool).held ↔ x ∈ pool.held ∧ ∀ r ∈ E, r.serial ≠ x.serial := by
  induction E generalizing pool with
  | nil => simp
  | cons r E ih =>
    rw [List.foldl_cons, ih, List.forall_mem_cons, ← and_assoc]
    refine and_congr_left' ?_
    unfold Pool.release
    rw [List.mem_filter, decide_eq_true_iff, ne_comm (a := x.serial)]

theorem foldl_release_sum (E : List Change) (pool : Pool) : (E.foldl (fun pool r => pool.release r.serial) pool).free
    + (E.foldl (fun pool r => pool.release r.serial) pool).used = pool.free + pool.used := by
  induction E generalizing pool with
  | nil => rfl
  | cons r E ih => rw [List.foldl_cons, ih, release_sum]

theorem Cuts.pool_held (h : Cuts s P moved Q t) (all : ∀ i, i ∈ Q ↔ (s.duePolicy i).isSome = true) (x : PoolEntry) :
    x ∈ t.pool.held ↔ x ∈ s.pool.held ∧ ∀ r ∈ s.table.records, s.cutEnds r = true → r.serial ≠ x.serial := by
  rw [h.cutting.soFar.pool, foldl_release_held]
  simp only [h.mem_ends all, and_imp]

theorem Cuts.boosts (h : Cuts s P moved Q t) (all : ∀ i, i ∈ Q ↔ (s.duePolicy i).isSome = true) (d : Cell) (y : BoostEntry) :
    y ∈ t.planner.boosts.get d
      ↔ y ∈ s.planner.boosts.get d ∧ ∀ r ∈ s.table.records, s.cutEnds r = true → r.addr ≠ y.addr := by
  rw [h.cutting.soFar.boosts, mem_foldl_boosts]
  simp only [h.mem_ends all, and_imp]

/-- STALE_CUT is set by a delivery with a displaced version (R71, R96). -/
theorem CutSoFar.staleCut (h : CutSoFar s P moved t) : Flag.staleCut.isIn t.handler.flags = true
    ↔ Flag.staleCut.isIn s.handler.flags = true ∨ ∃ r ∈ P, r.delivering = true ∧ r.displaced.isSome = true := by
  have counts : (P.map Change.staleAtCut).sum = P.countP fun r => decide (r.delivering = true ∧ r.displaced.isSome = true) := by
    rw [← sum_ite_one]
    refine congrArg _ (List.map_congr_left fun r _ => ?_)
    simp only [Change.staleAtCut, decide_eq_true_eq]
  rw [h.flags .staleCut (by decide), counts, Bool.or_eq_true, Bool.and_eq_true, decide_eq_true_iff, decide_eq_true_iff,
    List.countP_pos_iff]
  simp only [true_and, decide_eq_true_eq]

theorem CutSoFar.flag (h : CutSoFar s P moved t) {f : Flag} (other : f ≠ .staleCut) (other' : f ≠ .outcomeBacklog) :
    f.isIn t.handler.flags = f.isIn s.handler.flags := by
  rw [h.flags f other', decide_eq_false other, Bool.false_and, Bool.or_false]

/-! ### Entries and calendars -/

theorem foldl_cleared_rest (E : List Change) (e : Entry) :
    ({ E.foldl (fun e r => e.cleared r.addr r.serial) e with live := none } : Entry) = { e with live := none } := by
  induction E generalizing e with
  | nil => rfl
  | cons r E ih =>
    rw [List.foldl_cons, ih]
    unfold Entry.cleared
    split <;> rfl

theorem CutSoFar.tags (h : CutSoFar s P moved t) : SameTags s t where
  grants := by rw [h.dir]
  strangers := by rw [h.dir]
  entries := by
    rw [h.dir, List.map_map]
    exact List.map_congr_left fun e _ => foldl_cleared_rest _ e

theorem foldl_cleared_none (E : List Change) {e : Entry} (none : e.live = none) :
    (E.foldl (fun e r => e.cleared r.addr r.serial) e).live = Option.none := by
  rw [foldl_cleared_other fun r _ live => nomatch none.symm.trans live]
  exact none

/-- An entry whose live change is among the ended ones has none. -/
theorem foldl_cleared_ended {E : List Change} {r : Change} (hr : r ∈ E) {e : Entry} (addr : e.addr = r.addr)
    (live : e.live = some r.serial) : (E.foldl (fun e r => e.cleared r.addr r.serial) e).live = none := by
  induction E generalizing e with
  | nil => cases hr
  | cons q E ih =>
    rw [List.foldl_cons]
    by_cases clears : e.addr = q.addr ∧ e.live = some q.serial
    · rw [show e.cleared q.addr q.serial = { e with live := none } from if_pos clears]
      exact foldl_cleared_none E rfl
    · rw [show e.cleared q.addr q.serial = e from if_neg clears]
      obtain rfl | hr' := List.mem_cons.mp hr
      · exact absurd ⟨addr, live⟩ clears
      · exact ih hr' addr live

theorem CutSoFar.entryAt (h : CutSoFar s P moved t) (directory : DirectoryLaw s) {e : Entry} (he : e ∈ s.dir.entries) :
    t.entryAt e.addr = some ((P.filter s.cutEnds).foldl (fun e r => e.cleared r.addr r.serial) e) := by
  rw [entryAt_map (f := fun e => (P.filter s.cutEnds).foldl (fun e r => e.cleared r.addr r.serial) e) (fun e => foldl_cleared_addr _ e)
    (s := s) (by rw [h.dir]), directory.entryAt he]
  rfl

/-- An entry whose live change does not end keeps it. -/
theorem CutSoFar.entry_kept (h : CutSoFar s P moved t) (law : TableLaw s) (directory : DirectoryLaw s) {e : Entry}
    (he : e ∈ s.dir.entries) (lasts : ∀ r, s.liveRecord e = some r → s.cutEnds r = false) : t.entryAt e.addr = some e := by
  rw [h.entryAt directory he, foldl_cleared_other]
  intro r hr live
  obtain ⟨turn, ends⟩ := List.mem_filter.mp hr
  have record : s.liveRecord e = some r := by
    unfold State.liveRecord
    rw [live]
    exact law.recordOf (h.held r turn).1
  rw [lasts r record] at ends
  cases ends

/-- The tag of an ended record (R81, Table 7-2). -/
theorem Cuts.entry_ended (h : Cuts s P moved Q t) (law : TableLaw s) (all : ∀ i, i ∈ Q ↔ (s.duePolicy i).isSome = true)
    (directory : DirectoryLaw s) (live : LiveLaw s) {e : Entry} (he : e ∈ s.dir.entries) {r : Change} (hr : s.liveRecord e = some r)
    (ends : s.cutEnds r = true) : (t.entryAt e.addr).map (·.live) = some none
      ∧ CalendarTold e (e.commanded.isSome = true ∨ e.flash = true) (ClassFiling s e) s t := by
  obtain ⟨k, names, record⟩ := Option.bind_eq_some_iff.mp hr
  have mem := recordOf_mem record
  obtain ⟨addr, -, -⟩ := live.addr_of_live law he hr
  have turn := (h.mem_ends all r).mpr ⟨mem, ends⟩
  refine ⟨?_, (h.cutting.calendar.told directory live r (List.mem_filter.mp turn).1 e ?_).1 ends⟩
  · rw [h.cutting.soFar.entryAt directory he, Option.map_some,
      foldl_cleared_ended turn addr.symm (names.trans (by rw [recordOf_serial record]))]
  · rw [addr]
    exact directory.entryAt he

/-- The tag of a record become VERIFYING (R63, Table 7-2). -/
theorem Cuts.entry_verifies (h : Cuts s P moved Q t) (law : TableLaw s) (all : ∀ i, i ∈ Q ↔ (s.duePolicy i).isSome = true)
    (directory : DirectoryLaw s) (live : LiveLaw s) {e : Entry} (he : e ∈ s.dir.entries) {r : Change} (hr : s.liveRecord e = some r)
    (staged : r.state = .staged) (meets : (s.meets r).isSome = true) : (t.entryAt e.addr).map (·.live) = some e.live
      ∧ CalendarTold e True (FiledFor s e) s t := by
  obtain ⟨k, -, record⟩ := Option.bind_eq_some_iff.mp hr
  obtain ⟨addr, -, -⟩ := live.addr_of_live law he hr
  have turn := h.mem all (recordOf_mem record) meets (by rw [staged]; decide)
  refine ⟨?_, (h.cutting.calendar.told directory live r turn e (by rw [addr]; exact directory.entryAt he)).2 staged⟩
  rw [h.cutting.soFar.entry_kept law directory he fun q hq => ?_]
  · rfl
  · obtain rfl := Option.some.inj (hq.symm.trans hr)
    obtain ⟨p, meets⟩ := Option.isSome_iff_exists.mp meets
    simp [State.cutEnds, meets, Change.endsWith, staged]

/-- A tag whose live change neither ends nor becomes VERIFYING. -/
theorem Cuts.entry_quiet (h : Cuts s P moved Q t) (law : TableLaw s) (directory : DirectoryLaw s) (live : LiveLaw s) {e : Entry}
    (he : e ∈ s.dir.entries)
    (quiet : ∀ r, s.liveRecord e = some r → s.cutEnds r = false ∧ (r.state = .staged → s.meets r = none)) :
    (t.entryAt e.addr).map (·.live) = some e.live
      ∧ ∀ d y, y.addr = e.addr → (y ∈ t.planner.calendar.get d ↔ y ∈ s.planner.calendar.get d) := by
  refine ⟨?_, fun d y same => h.cutting.calendar.others d y fun r turn touches addr => ?_⟩
  · rw [h.cutting.soFar.entry_kept law directory he fun r hr => (quiet r hr).1]
    rfl
  · obtain ⟨mem, meets⟩ := h.cutting.soFar.held r turn
    obtain ⟨d', hd, dAddr, names⟩ := live.2 r mem (cutTouches_live touches)
    obtain rfl := directory.eq_of_addr hd he (dAddr.trans (addr.trans same))
    have record : s.liveRecord d' = some r := by
      unfold State.liveRecord
      rw [names]
      exact law.recordOf mem
    obtain ⟨lasts, idle⟩ := quiet r record
    obtain ends | staged := touches
    · rw [lasts] at ends
      cases ends
    · rw [idle staged] at meets
      cases meets

/-- The calendar entries of a tag of which the cut concerns no record stay. -/
theorem Cuts.calendar_others (h : Cuts s P moved Q t) {d : Cell} {y : CalendarEntry}
    (idle : ∀ r ∈ s.table.records, r.addr = y.addr → s.meets r = none) :
    y ∈ t.planner.calendar.get d ↔ y ∈ s.planner.calendar.get d := by
  refine h.cutting.calendar.others d y fun r turn _ addr => ?_
  obtain ⟨mem, meets⟩ := h.cutting.soFar.held r turn
  rw [idle r mem addr] at meets
  cases meets

end

end Sys2Proof.Machine
end

section
/-! The cut at a beacon start (R95 to R97, R103). -/

namespace Sys2Proof.Machine

/-! ### The state in which the cuts are taken -/

/-- The next beacon has begun, and no preset is taken (R2, R6). -/
def State.begun (s : State) : State :=
  { s with air := { s.air with
      geometry := s.store.working.geometry
      counter := s.store.working.period - 1
      beacon := s.air.beacon + 1
      preset := none } }

theorem nextBeacon_begun {s : State} (locked : s.presetFree = false) : nextBeacon (reloadGeometry s) = s.begun :=
  nextBeacon_locked (s := reloadGeometry s) (.inr locked)

theorem begun_meets (s : State) : s.begun.meets = s.cutPolicy := rfl

theorem begun_cutEnds (s : State) : s.begun.cutEnds = s.endsAtCut := by
  funext r
  unfold State.cutEnds State.endsAtCut
  rw [begun_meets]
  cases s.cutPolicy r <;> rfl

theorem begun_due_none {s : State} {b : Beacon} (now : b = s.air.beacon + 1) {j : CampaignIndex}
    (other : ∀ x, (s.campaigns.get j).state = .opened → (s.campaigns.get j).activation = some x → x.beacon ≠ b) :
    s.begun.duePolicy j = none := by
  refine Option.eq_none_iff_forall_ne_some.mpr fun p due => ?_
  obtain ⟨opened, x, active, beacon, -⟩ := duePolicy_eq_some.mp due
  exact other x opened active (beacon.trans now.symm)

/-- The laws of the table and of the accounts after the cuts. -/
theorem takeCuts_accounts {s t : State} (law : TableLaw s) (accounts : CampaignLaw s) {n : Nat}
    (cuts : takeCuts s = { t with freeIndex := n }) (j : CampaignIndex) : Account (t.campaigns.get j) (t.campaignRecords j) := by
  have kept := (takeCuts_run (s0 := s) s).keeps (L := fun u => TableLaw u ∧ CampaignLaw u)
    (fun _ _ act held => ⟨act.tableLaw law held.1, act.campaignLaw held.1 held.2⟩) ⟨law, accounts⟩
  rw [cuts] at kept
  exact kept.2 j

/-! ### A campaign's records -/

section
variable {s t : State} {P : List Change} {moved : List OutcomeRecord} {Q : List CampaignIndex}

/-- What becomes of a record of a campaign that is cut, by its state (Table 5-5). -/
theorem Cuts.record (h : Cuts s P moved Q t) (law : TableLaw s) (all : ∀ i, i ∈ Q ↔ (s.duePolicy i).isSome = true)
    {i : CampaignIndex} {p : LatePolicy} (due : s.duePolicy i = some p) {r : Change} (hr : r ∈ s.table.records)
    (of : r.campaign = some i) :
    (r.state = .staged → { r with state := .verifying } ∈ t.table.records)
    ∧ (r.state = .queued ∨ r.state = .sending → p = .apply → { r.markedAtCut with late := true } ∈ t.table.records)
    ∧ (r.state = .queued ∨ r.state = .sending → p = .drop →
        FinishedAs t (r.markedAtCut.finishedWith .droppedLate s.air.beacon))
    ∧ (r.state = .withdrawing → FinishedAs t (r.finishedWith .cancelTooLate s.air.beacon))
    ∧ (r.state = .verifying → r ∈ t.table.records) := by
  have meets : s.meets r = some p := by
    unfold State.meets
    rw [of]
    exact due
  have becomes : s.cutOf r = r.atCut p s.air.beacon := by
    unfold State.cutOf
    rw [meets]
  have ends : s.cutEnds r = r.endsWith p := by
    unfold State.cutEnds
    rw [meets]
    rfl
  have turn (live : r.state ≠ .finished) : r ∈ P := h.mem all hr (by rw [meets]; rfl) live
  have unfinished (live : r.state ≠ .finished) : r.outcome = none :=
    Option.not_isSome_iff_eq_none.mp fun some => live ((law.2.2 r hr).2.2.2 some)
  have stays {x : Change} (live : r.state ≠ .finished) (is : r.atCut p s.air.beacon = x) (still : x.outcome = r.outcome) :
      x ∈ t.table.records := by
    have at' : s.cutOf r = x := becomes.trans is
    rw [← at']
    refine h.cutting.soFar.stays law hr (turn live) ?_
    rw [at']
    unfold Change.outcomeRecord
    rw [still, unfinished live]
  have finished {x : Change} {code : OutcomeCode} (live : r.state ≠ .finished) (ended : r.endsWith p = true)
      (is : r.atCut p s.air.beacon = x.closed code s.air.beacon) : FinishedAs t (x.finishedWith code s.air.beacon) :=
    h.cutting.soFar.finished law hr (turn live) (ends.trans ended) (by rw [becomes, is]; rfl) (by rw [becomes, is]; rfl)
  refine ⟨fun state => ?_, fun state apply => ?_, fun state drop => ?_, fun state => ?_, fun state => ?_⟩
  · exact stays (by rw [state]; decide) (by simp only [Change.atCut, state]) rfl
  · subst apply
    obtain state | state := state <;>
      exact stays (by rw [state]; decide) (by simp only [Change.atCut, state]) rfl
  · subst drop
    obtain state | state := state <;>
      exact finished (by rw [state]; decide) (by simp [Change.endsWith, state]) (by simp only [Change.atCut, state])
  · exact finished (by rw [state]; decide) (by simp [Change.endsWith, state]) (by simp only [Change.atCut, state])
  · exact stays (by rw [state]; decide) (by simp only [Change.atCut, state]) rfl

/-- A campaign that is not cut here (R94, R103). -/
theorem Cuts.campaign_other (h : Cuts s P moved Q t) {j : CampaignIndex} (other : s.duePolicy j = none) :
    (t.campaigns.get j = { s.campaigns.get j with tallies := (t.campaigns.get j).tallies }
        ∧ t.handler.notices.campaignDone.get j = s.handler.notices.campaignDone.get j)
      ∨ (s.campaigns.get j).state = .cut ∧ (∃ o ∈ moved, o.campaign = some j)
        ∧ t.campaigns.get j = { s.campaigns.get j with
            tallies := (t.campaigns.get j).tallies, state := .done, doneBeacon := some s.air.beacon } := by
  obtain ⟨entry, notice⟩ := Prod.ext_iff.mp (h.cutting.campaigns.others j other)
  dsimp only at entry notice
  obtain counts | ⟨cut, some, done⟩ := foldl_tallyOne_cases s.air.beacon (s.campaigns.get j)
    (s.handler.notices.campaignDone.get j) (ofCampaign moved j)
  · rw [counts] at entry notice
    exact .inl ⟨by rw [entry], notice⟩
  · obtain ⟨o, ho⟩ := List.exists_mem_of_ne_nil _ some
    obtain ⟨ho, of⟩ := List.mem_filter.mp ho
    rw [done] at entry
    exact .inr ⟨cut, ⟨o, ho, of_decide_eq_true of⟩, by rw [entry]⟩

/-- A campaign CUT before that counts an outcome is looked at (R103). -/
theorem Cuts.cut_before (h : Cuts s P moved Q t) {j : CampaignIndex} (cut : (s.campaigns.get j).state = .cut)
    (some : ∃ o ∈ moved, o.campaign = Option.some j) :
    CutOrDone s.air.beacon moved.length (t.campaigns.get j, t.handler.notices.campaignDone.get j) := by
  have other : s.duePolicy j = none := Option.eq_none_iff_forall_ne_some.mpr fun p due =>
    CampaignState.noConfusion (cut.symm.trans (duePolicy_eq_some.mp due).1)
  rw [h.cutting.campaigns.others j other]
  obtain ⟨o, ho, of⟩ := some
  have member : o ∈ ofCampaign moved j := List.mem_filter.mpr ⟨ho, decide_eq_true of⟩
  have few : (ofCampaign moved j).length ≤ moved.length := List.length_filter_le _ _
  cases split : ofCampaign moved j with
  | nil => rw [split] at member; cases member
  | cons o os =>
    rw [split, List.length_cons] at few
    rw [List.foldl_cons, tallyOne_doneNow]
    have counted := (doneNow_cutOrDone s.air.beacon (moved.length - os.length) (x := ({ s.campaigns.get j with
      tallies := (s.campaigns.get j).tallies.bump o.code }, s.handler.notices.campaignDone.get j)) cut).tallies os
    rwa [Nat.sub_add_cancel (by omega)] at counted

end

theorem CutOrDone.state {b : Beacon} {n : Nat} {x : Campaign × Option Campaign} (h : CutOrDone b n x) :
    x.1.state = .cut ∨ x.1.state = .done := by
  cases h with
  | cut state => exact .inl state
  | done _ _ _ state => exact .inr state

/-! ### The beacon start -/

/-- Settles O26: the campaigns due are cut one by one, the records of each in the order of their admission. -/
theorem cutRule : Obligations.CutRule := by
  intro i a s hp law opened active now w delivering ends
  have locked : s.presetFree = false := by
    rw [← Bool.not_eq_true, presetFree_iff]
    exact fun ⟨_, allFree, _⟩ => CampaignState.noConfusion (opened.symm.trans (allFree i))
  obtain ⟨n, P, moved, Q, u, result, cuts, all⟩ := takeCuts_cuts (s := s.begun) law
  have due : s.begun.duePolicy i = some a.policy := duePolicy_eq_some.mpr ⟨opened, a, active, now, rfl⟩
  have cut : i ∈ Q := (all i).mpr (by rw [due]; rfl)
  obtain ⟨looked, counted⟩ := cuts.cut law cut due
  have few : moved.length < 2 ^ 32 :=
    Nat.lt_of_le_of_lt cuts.cutting.soFar.moved_length (Nat.lt_of_le_of_lt law.1 (by decide))
  have accounts (held : CampaignLaw s) := takeCuts_accounts (s := s.begun) law held result
  have soFar := cuts.cutting.soFar
  have beacon : s.begun.air.beacon = a.beacon := now.symm
  have endsAt := begun_cutEnds s
  have out : exec .beaconStart s = .next { u with freeIndex := n } := by
    rw [exec_beaconStart hp, beaconStart, nextBeacon_begun locked, result]
  have held := cuts.pool_held all
  have boosts := cuts.boosts all
  have ended {e : Entry} (directory : DirectoryLaw s) (live : LiveLaw s) (he : e ∈ s.dir.entries) {r : Change}
    (hr : s.liveRecord e = some r) := cuts.entry_ended (s := s.begun) law all directory live he hr
  have quiet {e : Entry} (directory : DirectoryLaw s) (live : LiveLaw s) (he : e ∈ s.dir.entries) :=
    cuts.entry_quiet (s := s.begun) law directory live he
  have order {q r : Change} (hq : q ∈ s.table.records) (hr : r ∈ s.table.records) (qOf : q.campaign = some i)
    (rOf : r.campaign = some i) := cuts.queued (s := s.begun) all hq hr qOf rOf
  have live := counted.live
  rw [endsAt] at held boosts live
  simp only [endsAt] at ended order quiet
  have record {r : Change} (hr : r ∈ s.table.records) (of : r.campaign = some i) :=
    cuts.record (s := s.begun) law all due hr of
  have looked' (held : CampaignLaw s) := looked.settled few (accounts held i)
  have other {j : CampaignIndex} (notDue : s.begun.duePolicy j = none) := cuts.campaign_other notDue
  rw [beacon] at looked' record other
  refine ⟨{ u with freeIndex := n }, moved, out, ?air, looked.state, looked', ⟨soFar.tags.grants, soFar.tags.strangers,
    soFar.tags.entries⟩, soFar.base.store, soFar.base.cells, soFar.base.line, soFar.base.pending, soFar.base.powered,
    soFar.base.task, counted.activation.trans active, counted.admitted, ?late, ?stale, ?live, ?marks, ?unmarked,
    fun f other other' => soFar.flag other other', fun r hr of => record hr of, fun q hq r hr qEnds rEnds older =>
      order hq hr qEnds.1 rEnds.1 qEnds.2 rEnds.2 older, soFar.outcomes, soFar.nextSerial, soFar.nextSequence,
    fun x hx => soFar.from hx, fun r hr idle => soFar.untouched law hr idle, cuts.tallies law all,
    fun j notDue => other (begun_due_none now notDue), fun held j was some =>
      ((cuts.cut_before was some).settled few (accounts held j)).1, held, ?sum, soFar.last, boosts,
    fun directory live e he => ⟨fun r hr is => ended directory live he hr is, fun r hr staged meets =>
      cuts.entry_verifies (s := s.begun) law all directory live he hr staged meets, quiet directory live he⟩,
    fun d y idle => cuts.calendar_others idle⟩
  case air =>
    rw [soFar.base.air, now]
    rfl
  case late =>
    rw [counted.late]
    refine congrArg ((s.campaigns.get i).lateCount + ·) ?_
    split
    · next apply =>
      exact List.countP_congr fun r _ => by simp [delivering, Change.delivering, apply, and_comm]
    · next drop =>
      exact List.countP_eq_zero.mpr fun r _ => by simp [drop]
  case stale =>
    rw [counted.stale]
    refine congrArg ((s.campaigns.get i).staleCount + ·) (List.countP_congr fun r _ => ?_)
    simp [delivering, Change.delivering, and_comm, and_left_comm, and_assoc]
  case live =>
    refine live.trans (congrArg ((s.campaigns.get i).live - ·) (List.countP_congr fun r _ => ?_))
    simp [ends, and_comm]
  case marks =>
    rintro ⟨r, hr, ⟨of, state⟩, displaced⟩
    have meets : (s.begun.meets r).isSome = true := by
      unfold State.meets
      rw [of, Option.bind_some, due]
      rfl
    have turn : r ∈ P := cuts.mem all hr meets (by obtain state | state := state <;> rw [state] <;> decide)
    exact soFar.staleCut.mpr (.inr ⟨r, turn, decide_eq_true state, displaced⟩)
  case unmarked =>
    intro none
    refine Bool.eq_iff_iff.mpr (soFar.staleCut.trans (or_iff_left ?_))
    rintro ⟨r, turn, -, displaced⟩
    rw [none r (soFar.held r turn).1] at displaced
    cases displaced
  case sum =>
    rw [soFar.pool]
    exact foldl_release_sum _ _

end Sys2Proof.Machine
end

section
/-! The events due at the present tick: each is there by its own condition, once (R13, R14, R142, R166 to R169, R173, R174, R184). -/

namespace Sys2Proof.Machine

/-! ### The next end of a window -/

theorem remaining_nil (w : Window) : w.remaining = [] ↔ w.slots.all (·.ended) = true := by
  simp [Window.remaining, List.filter_eq_nil_iff]

theorem windowEvent_eq (c : Cell) (w : Window) : windowEvent c w = w.nextEvent c := by
  unfold windowEvent Window.nextEvent
  simp only [remaining_nil]

theorem nextEnd_eq (w : Window) (offset : Nat) : w.nextEnd offset = offset + w.ticksToEnd := by
  unfold Window.nextEnd Window.ticksToEnd
  simp only [remaining_nil]
  split <;> rw [Nat.add_assoc]

theorem endPast_iff (s : State) (c : Cell) (w : Window) : w.endPast s c = true
    ↔ w.beacon = s.air.beacon ∧ (s.air.geometry.cells.get c).offset + w.ticksToEnd ≤ s.ticksElapsed
      ∨ w.beacon ≠ s.air.beacon ∧ w.beacon ≠ s.air.beacon + 1 := by
  unfold Window.endPast
  rw [nextEnd_eq]
  split
  · next here =>
    rw [decide_eq_true_iff]
    exact ⟨fun past => .inl ⟨here, past⟩, fun due => due.elim And.right fun other => absurd here other.1⟩
  · next other => simp [other]

/-! ### Each event by its condition -/

theorem mem_ite_singleton {α : Type} {p : Prop} [Decidable p] {a x : α} : x ∈ (if p then [a] else []) ↔ x = a ∧ p := by
  split <;> simp [*]

theorem mem_requestDue {s : State} {i : Instr} : i ∈ requestDue s
    ↔ ∃ f rest, s.line.inbound = f :: rest ∧ s.handler.task = .idle ∧ s.line.outbound.length < 8
      ∧ i = commandOf f.kind f.num f.payload := by
  have take : s.canTake = true ↔ s.handler.task = .idle ∧ s.line.outbound.length < 8 := by
    unfold State.canTake State.freePlaces
    cases s.handler.task <;> simp [Task.claimed]
  unfold requestDue
  cases s.line.inbound with
  | nil => simp
  | cons f rest =>
    dsimp only
    rw [mem_ite_singleton, take]
    constructor
    · exact fun ⟨is, idle, room⟩ => ⟨f, rest, rfl, idle, room, is⟩
    · rintro ⟨g, later, same, idle, room, rfl⟩
      obtain ⟨rfl, rfl⟩ := List.cons.inj same
      exact ⟨rfl, idle, room⟩

theorem firstDone_isSome (n : NoticeSet) : n.firstDone.isSome = true ↔ ∃ j, (n.campaignDone.get j).isSome = true := by
  simp [NoticeSet.firstDone, List.findSome?_isSome_iff, mem_allFour]

/-- A notice waits (R173). -/
theorem nextNotice_isSome (s : State) : (nextNotice s).isSome = true
    ↔ s.handler.notices.event.isSome = true ∨ (∃ j, (s.handler.notices.campaignDone.get j).isSome = true)
      ∨ s.handler.notices.outcomesReady = true ∨ s.handler.notices.strangers = true := by
  rw [← firstDone_isSome]
  unfold nextNotice
  dsimp only
  cases s.handler.notices.event with
  | some e => simp
  | none =>
    cases s.handler.notices.firstDone with
    | some x => simp
    | none => cases s.handler.notices.outcomesReady <;> cases s.handler.notices.strangers <;> simp

theorem mem_flowDue {s : State} {i : Instr} : i ∈ flowDue s
    ↔ i = .hold ∧ s.line.flow = .holdDue ∧ s.line.flowFree = true ∧ ¬ s.lineChanges
      ∨ i = .go ∧ s.line.flow = .goDue ∧ s.line.flowFree = true ∧ ¬ s.lineChanges := by
  unfold flowDue
  split
  · next ready => cases s.line.flow <;> simp [(flowReady_iff s).mp ready]
  · next blocked =>
    rw [flowReady_iff] at blocked
    simp [blocked]

theorem mem_windowDue {s : State} {c : Cell} {i : Instr} : i ∈ windowDue s c
    ↔ ∃ w, s.cells.windows.get c = some w ∧ i = w.nextEvent c
      ∧ (w.beacon = s.air.beacon ∧ (s.air.geometry.cells.get c).offset + w.ticksToEnd ≤ s.ticksElapsed
        ∨ w.beacon ≠ s.air.beacon ∧ w.beacon ≠ s.air.beacon + 1) := by
  unfold windowDue
  cases s.cells.windows.get c with
  | none => simp
  | some w =>
    dsimp only
    rw [mem_ite_singleton, windowEvent_eq, endPast_iff]
    simp only [Option.some.injEq, exists_eq_left']

theorem mem_instantDue {s : State} {c : Cell} {i : Instr} : i ∈ instantDue s c
    ↔ i = .cellBeaconInstant c .afterStart ∧ s.ticksElapsed = (s.air.geometry.cells.get c).offset
      ∧ s.planner.last.get c ≠ s.air.beacon ∧ s.cells.windows.get c = none := by
  unfold instantDue
  rw [mem_ite_singleton, State.instantOpen, Bool.and_eq_true, decide_eq_true_iff, Option.isNone_iff_eq_none]
  rfl

theorem mem_noticeDue {s : State} {i : Instr} : i ∈ noticeDue s
    ↔ i = .noticeMove ∧ s.line.outbound.length + s.handler.task.claimed ≤ 6
      ∧ (s.handler.notices.event.isSome = true ∨ (∃ j, (s.handler.notices.campaignDone.get j).isSome = true)
        ∨ s.handler.notices.outcomesReady = true ∨ s.handler.notices.strangers = true) := by
  unfold noticeDue
  rw [mem_ite_singleton, two_le_freePlaces_iff, nextNotice_isSome]

theorem mem_resetDue {s : State} {i : Instr} : i ∈ resetDue s
    ↔ i = .resetActs ∧ (∃ k, s.handler.task = .resetting k) ∧ okReplies 0x08 s.line.outbound = 0 := by
  unfold resetDue
  rw [mem_ite_singleton, resetDue_iff]

theorem mem_rateChangeDue {s : State} {i : Instr} : i ∈ rateChangeDue s
    ↔ i = .lineRateChange ∧ okReplies 0x09 s.line.outbound < s.line.rateDue.length := by
  unfold rateChangeDue
  rw [mem_ite_singleton, rateChangeDue_iff]

theorem mem_timeoutDue {s : State} {i : Instr} : i ∈ timeoutDue s ↔ i = .outcomesReadyTimeout ∧ s.timedOut :=
  mem_ite_singleton

/-- The events due are those whose conditions hold. -/
theorem mem_dueNow {s : State} {i : Instr} : i ∈ dueNow s ↔ s.isDue i := by
  simp only [dueNow, List.mem_append, List.mem_flatMap, mem_allFour, true_and, mem_requestDue, mem_noticeDue, mem_resetDue,
    mem_rateChangeDue, mem_flowDue, mem_timeoutDue, mem_windowDue, mem_instantDue, State.isDue, or_assoc]

theorem dueNow_nil {s : State} : dueNow s = [] ↔ ∀ i, ¬ s.isDue i := by
  rw [List.eq_nil_iff_forall_not_mem]
  simp only [mem_dueNow]

/-! ### Once each -/

/-- The place of an event's kind, and of its cell, among the events due. -/
def dueRank : Instr → Nat
  | .noticeMove => 1
  | .resetActs => 2
  | .lineRateChange => 3
  | .hold => 4
  | .go => 4
  | .outcomesReadyTimeout => 5
  | .slotEnd c _ _ => 6 + c.val
  | .joinSlotEnd c _ => 6 + c.val
  | .cellBeaconInstant c _ => 10 + c.val
  | .refreshCrossing => 14
  | _ => 0

theorem dueRank_request {i : Instr} (request : (requestOf i).isSome = true) : dueRank i = 0 := by
  unfold dueRank
  split
  case h_11 => rfl
  all_goals exact absurd request Bool.false_ne_true

theorem dueRank_nextEvent (c : Cell) (w : Window) : dueRank (w.nextEvent c) = 6 + c.val := by
  unfold Window.nextEvent
  split <;> rfl

/-- At most one event, of rank `k`. -/
theorem ite_singleton_rank {p : Prop} [Decidable p] {i : Instr} {k : Nat} (rank : dueRank i = k) :
    ((if p then [i] else []).map dueRank).Sublist [k] := by
  split
  · rw [List.map_singleton, rank]
  · exact List.nil_sublist _

theorem requestDue_rank (s : State) : ((requestDue s).map dueRank).Sublist [0] := by
  unfold requestDue
  split
  · exact List.nil_sublist _
  · exact ite_singleton_rank (dueRank_request (by rw [(commandOf_row _ _ _).1]; rfl))

theorem flowDue_rank (s : State) : ((flowDue s).map dueRank).Sublist [4] := by
  unfold flowDue
  split
  · cases s.line.flow <;> simp [dueRank]
  · exact List.nil_sublist _

theorem windowDue_rank (s : State) (c : Cell) : ((windowDue s c).map dueRank).Sublist [6 + c.val] := by
  unfold windowDue
  split
  · exact List.nil_sublist _
  · exact ite_singleton_rank (by rw [windowEvent_eq, dueRank_nextEvent])

theorem flatMap_cells_rank {f : Cell → List Instr} {k : Nat} (rank : ∀ c, ((f c).map dueRank).Sublist [k + c.val]) :
    ((allFour.flatMap f).map dueRank).Sublist [k, k + 1, k + 2, k + 3] := by
  have each : (allFour.flatMap f).map dueRank
      = (f 0).map dueRank ++ ((f 1).map dueRank ++ ((f 2).map dueRank ++ (f 3).map dueRank)) := by
    simp [allFour]
  rw [each]
  exact (rank 0).append ((rank 1).append ((rank 2).append (rank 3)))

/-- No event is due twice. -/
theorem dueNow_rank (s : State) : ((dueNow s).map dueRank).Sublist (List.range 14) := by
  unfold dueNow
  simp only [List.map_append, List.append_assoc]
  exact (requestDue_rank s).append ((ite_singleton_rank rfl).append ((ite_singleton_rank rfl).append ((ite_singleton_rank rfl).append
    ((flowDue_rank s).append ((ite_singleton_rank rfl).append ((flatMap_cells_rank (windowDue_rank s)).append
      (flatMap_cells_rank fun c => ite_singleton_rank rfl)))))))

theorem dueNow_nodup (s : State) : (dueNow s).Nodup := List.Nodup.of_map _ (List.nodup_range.sublist (dueNow_rank s))

/-- No crossing is due but by its tick. -/
theorem crossing_not_due (s : State) : Instr.refreshCrossing ∉ dueNow s := by
  intro due
  have : (14 : Nat) ∈ List.range 14 := (dueNow_rank s).subset (List.mem_map.mpr ⟨_, due, rfl⟩)
  exact absurd (List.mem_range.mp this) (Nat.lt_irrefl _)

end Sys2Proof.Machine
end

section
/-! The part with no command waiting: due events join the queue in a free order, and a tick passes when none is due (log entries
2 and 5; R1, R7, R10, R13, R99, R174). -/

namespace Sys2Proof.Machine

/-! ### What is left of an order -/

theorem keepBehind_head (p keep : Instr → Bool) (l : List Instr) : (keepBehind p keep l).head? = l.head? := by
  cases l <;> rfl

theorem mem_keepBehind {p keep : Instr → Bool} {l : List Instr} {i : Instr} (hi : i ∈ l) (kept : keep i = true) :
    i ∈ keepBehind p keep l := by
  induction l with
  | nil => cases hi
  | cons j l ih =>
    rw [keepBehind]
    obtain rfl | hi := List.mem_cons.mp hi
    · exact List.mem_cons_self
    · refine List.mem_cons_of_mem _ ?_
      split
      · exact List.mem_filter.mpr ⟨hi, kept⟩
      · exact ih hi

theorem settled_head (order : List Instr) : (settled order).head? = order.head? := by
  unfold settled
  rw [keepBehind_head, keepBehind_head]

/-- A crossing is taken wherever it stands (R184). -/
theorem crossing_mem_settled {order : List Instr} (h : .refreshCrossing ∈ order) : .refreshCrossing ∈ settled order :=
  mem_keepBehind (mem_keepBehind h (by decide)) (by decide)

/-- Without a reset only a time-out is kept back (R174). -/
theorem mem_settled {order : List Instr} {i : Instr} (hi : i ∈ order) (noReset : .resetActs ∉ order)
    (other : i ≠ .outcomesReadyTimeout) : i ∈ settled order := by
  unfold settled
  rw [keepBehind_self]
  · exact mem_keepBehind hi (decide_eq_true other)
  · intro j hj reset
    exact absurd (of_decide_eq_true reset ▸ (keepBehind_sublist _ _ _).subset hj) noReset

theorem enqueue_eq (events : List Instr) (s : State) : ∃ free, enqueue events s = { s with
    pending := s.pending ++ settled (freeOrder events.length s.freeIndex events), freeIndex := free } := by
  unfold enqueue
  dsimp only
  split
  · exact ⟨_, rfl⟩
  · exact ⟨_, rfl⟩

/-- Due events, each once, join an empty queue in some order. -/
theorem enqueue_order {events : List Instr} (once : events.Nodup) {s : State} (empty : s.pending = []) :
    ∃ order free, enqueue events s = { s with pending := settled order, freeIndex := free } ∧ order.Nodup
      ∧ ∀ i, i ∈ order ↔ i ∈ events := by
  have perm := freeOrder_perm events.length s.freeIndex events
  obtain ⟨free, eq⟩ := enqueue_eq events s
  rw [empty, List.nil_append] at eq
  exact ⟨_, free, eq, perm.nodup_iff.mpr once, fun i => perm.mem_iff⟩

/-! ### The step with no command waiting -/

theorem step_idle {s : State} (hp : s.powered = true) (empty : s.pending = []) :
    step s = .next (if dueNow s = [] then tick s else enqueue (dueNow s) s) := by
  have idles : step s = .next (idle s) := by
    unfold step
    rw [empty]
  rw [idles, idle, if_pos hp]

theorem crosses_iff (t : AirTimer) (refreshTime : Nat) : t.crosses refreshTime = true
    ↔ t.clockSet = true ∧ t.clock.toNat % 1024 = 0 ∧ t.clock.toNat / 1024 % 86400 = refreshTime := by
  unfold AirTimer.crosses AirTimer.seconds
  rw [Bool.and_eq_true, Bool.and_eq_true, decide_eq_true_iff, decide_eq_true_iff, and_assoc]

theorem mem_crossingDue {s : State} {i : Instr} : i ∈ crossingDue s
    ↔ i = .refreshCrossing ∧ s.air.crosses s.store.working.refreshTime = true := mem_ite_singleton

/-! ### The underflow -/

theorem mem_endsWithBeacon {s : State} {c : Cell} {i : Instr} : i ∈ endsWithBeacon s c
    ↔ ∃ w, s.cells.windows.get c = some w ∧ w.beacon = s.air.beacon ∧ i = w.nextEvent c := by
  unfold endsWithBeacon
  cases s.cells.windows.get c with
  | none => simp
  | some w =>
    dsimp only
    rw [mem_ite_singleton, windowEvent_eq]
    simp only [Option.some.injEq, exists_eq_left', and_comm]

theorem mem_startInstants {s : State} {i : Instr} : i ∈ startInstants s
    ↔ ∃ c, (s.store.working.cells.get c).offset = 0 ∧ i = .cellBeaconInstant c .beforeStart := by
  simp only [startInstants, List.mem_map, List.mem_filter, mem_allFour, true_and, decide_eq_true_eq,
    eq_comm (b := i)]

/-- The events of an underflow but for the window ends (R98, R99, R118, R174). -/
def startEvents (s : State) : List Instr := .beaconStart :: startInstants s ++ crossingDue s ++ timeoutDue s

theorem mem_startEvents {s : State} {i : Instr} : i ∈ startEvents s ↔ i = .beaconStart
    ∨ (∃ c, (s.store.working.cells.get c).offset = 0 ∧ i = .cellBeaconInstant c .beforeStart)
    ∨ i = .refreshCrossing ∧ s.air.crosses s.store.working.refreshTime = true ∨ i = .outcomesReadyTimeout ∧ s.timedOut := by
  simp only [startEvents, List.cons_append, List.mem_cons, List.mem_append, mem_startInstants, mem_crossingDue, mem_timeoutDue,
    or_assoc]

/-- The beacon starts once. -/
theorem start_once {s : State} {order : List Instr} (perm : order.Perm (startEvents s)) :
    ∃ front back, order = front ++ .beaconStart :: back ∧ .beaconStart ∉ front ∧ .beaconStart ∉ back := by
  have others : .beaconStart ∉ startInstants s ++ crossingDue s ++ timeoutDue s := by
    simp [mem_startInstants, mem_crossingDue, mem_timeoutDue]
  obtain ⟨front, back, split⟩ := List.append_of_mem (perm.mem_iff.mpr (mem_startEvents.mpr (.inl rfl)))
  have rest : (front ++ back).Perm (startInstants s ++ crossingDue s ++ timeoutDue s) := by
    rw [split] at perm
    exact List.Perm.cons_inv (List.perm_middle.symm.trans perm)
  have none := mt rest.mem_iff.mp others
  rw [List.mem_append, not_or] at none
  exact ⟨front, back, split, none⟩

/-- What of an order's front is taken ahead of the beacon start: with a preset pending, no instant (R124). -/
def staysAhead (preset : Bool) (front : List Instr) : List Instr := front.filter fun i => !(preset && isInstant i)

/-- What is taken behind the beacon start. -/
def goesBehind (preset : Bool) (front back : List Instr) : List Instr :=
  ((front.filter fun i => preset && isInstant i) ++ back).map behindStart

theorem startOrder_eq (preset : Bool) {front : List Instr} (back : List Instr) (first : .beaconStart ∉ front) :
    startOrder preset (front ++ .beaconStart :: back)
      = staysAhead preset front ++ .beaconStart :: goesBehind preset front back := by
  have others : ∀ i ∈ front, decide (i ≠ Instr.beaconStart) = true := fun i hi => decide_eq_true fun is => first (is ▸ hi)
  have ahead : (front ++ .beaconStart :: back).takeWhile (fun i => decide (i ≠ .beaconStart)) = front := by
    rw [List.takeWhile_append_of_pos others, List.takeWhile_cons_of_neg (by simp), List.append_nil]
  have behind : (front ++ .beaconStart :: back).dropWhile (fun i => decide (i ≠ .beaconStart)) = .beaconStart :: back := by
    rw [List.dropWhile_append_of_pos others, List.dropWhile_cons_of_neg (by simp)]
  unfold startOrder staysAhead goesBehind
  rw [ahead, behind]
  cases preset with
  | true => simp
  | false => simp

theorem isInstant_iff {i : Instr} : isInstant i = true ↔ ∃ c o, i = .cellBeaconInstant c o := by
  unfold isInstant
  split
  · simp
  · next other => simpa using other

theorem behindStart_eq_other {i j : Instr} (other : isInstant i = false) : behindStart j = i ↔ j = i := by
  unfold behindStart
  split
  · constructor
    · rintro rfl
      cases other
    · rintro rfl
      cases other
  · rfl

theorem behindStart_eq_instant {j : Instr} {c : Cell} {o : InstantOrder} :
    behindStart j = .cellBeaconInstant c o ↔ o = .afterStart ∧ ∃ o', j = .cellBeaconInstant c o' := by
  unfold behindStart
  split
  · next d o' =>
    constructor
    · rintro ⟨⟩
      exact ⟨rfl, o', rfl⟩
    · rintro ⟨rfl, o'', ⟨⟩⟩
      rfl
  · next other =>
    exact ⟨fun is => absurd is (other c o), fun ⟨_, o', is⟩ => absurd is (other c o')⟩

/-- Any other event keeps its side. -/
theorem mem_staysAhead_other {preset : Bool} {front : List Instr} {i : Instr} (other : isInstant i = false) :
    i ∈ staysAhead preset front ↔ i ∈ front := by simp [staysAhead, other]

theorem mem_goesBehind_other {preset : Bool} {front back : List Instr} {i : Instr} (other : isInstant i = false) :
    i ∈ goesBehind preset front back ↔ i ∈ back := by
  simp only [goesBehind, List.mem_map, behindStart_eq_other other, exists_eq_right, List.mem_append, List.mem_filter, other,
    Bool.and_false, Bool.false_eq_true, and_false, false_or]

/-- An instant ahead of the beacon start is taken before it, and only while no preset is pending. -/
theorem instant_ahead {preset : Bool} {front : List Instr} {c : Cell} {o : InstantOrder} :
    .cellBeaconInstant c o ∈ staysAhead preset front ↔ .cellBeaconInstant c o ∈ front ∧ preset = false := by
  simp [staysAhead, isInstant]

/-- An instant behind the beacon start is of the beacon it starts (R99). -/
theorem instant_behind {preset : Bool} {front back : List Instr} {c : Cell} {o : InstantOrder} :
    .cellBeaconInstant c o ∈ goesBehind preset front back ↔ o = .afterStart
      ∧ ((∃ o', .cellBeaconInstant c o' ∈ front) ∧ preset = true ∨ ∃ o', .cellBeaconInstant c o' ∈ back) := by
  simp only [goesBehind, List.mem_map, behindStart_eq_instant, List.mem_append, List.mem_filter, Bool.and_eq_true]
  constructor
  · rintro ⟨j, mem, after, o', rfl⟩
    exact ⟨after, mem.imp (fun ⟨hj, pre, _⟩ => ⟨⟨o', hj⟩, pre⟩) fun hj => ⟨o', hj⟩⟩
  · rintro ⟨after, ⟨⟨o', hj⟩, pre⟩ | ⟨o', hj⟩⟩
    · exact ⟨_, .inl ⟨hj, pre, rfl⟩, after, o', rfl⟩
    · exact ⟨_, .inr hj, after, o', rfl⟩

theorem underflow_eq (s : State) : ∃ free, underflow s = { s with
    pending := s.pending ++ allFour.flatMap (endsWithBeacon s)
      ++ startOrder s.air.preset.isSome (freeOrder (startEvents s).length s.freeIndex (startEvents s))
    freeIndex := free } := ⟨_, rfl⟩

/-- The events around the beacon start of an underflow. -/
structure StartsAmong (s : State) (front back : List Instr) : Prop where
  first : .beaconStart ∉ front
  last : .beaconStart ∉ back
  events : ∀ i, i ∈ front ∨ i = .beaconStart ∨ i ∈ back ↔ i ∈ startEvents s

/-- An underflow queues the ends of the windows that end with their beacon, then the beacon start among its events. -/
theorem underflow_parts {s : State} (empty : s.pending = []) : ∃ front back free,
    underflow s = { s with
      pending := (allFour.flatMap (endsWithBeacon s) ++ staysAhead s.air.preset.isSome front)
        ++ .beaconStart :: goesBehind s.air.preset.isSome front back
      freeIndex := free }
    ∧ StartsAmong s front back := by
  have perm := freeOrder_perm (startEvents s).length s.freeIndex (startEvents s)
  obtain ⟨front, back, split, first, last⟩ := start_once perm
  obtain ⟨free, queued⟩ := underflow_eq s
  rw [empty, List.nil_append, split, startOrder_eq _ back first, ← List.append_assoc] at queued
  refine ⟨front, back, free, queued, first, last, fun i => ?_⟩
  rw [← perm.mem_iff, split, List.mem_append, List.mem_cons]

section
variable {s : State} {front back : List Instr}

/-- The instants at the beacon start are those of the cells whose offset will be 0 (R13). -/
theorem StartsAmong.instant (h : StartsAmong s front back) (c : Cell) (o : InstantOrder) :
    .cellBeaconInstant c o ∈ front ∨ .cellBeaconInstant c o ∈ back
      ↔ o = .beforeStart ∧ (s.store.working.cells.get c).offset = 0 := by
  have event := (h.events (.cellBeaconInstant c o)).trans mem_startEvents
  constructor
  · intro mem
    obtain is | ⟨d, zero, is⟩ | ⟨is, -⟩ | ⟨is, -⟩ := event.mp (mem.imp_right .inr)
    · cases is
    · cases is
      exact ⟨rfl, zero⟩
    · cases is
    · cases is
  · rintro ⟨rfl, zero⟩
    obtain ahead | is | behind := event.mpr (.inr (.inl ⟨c, zero, rfl⟩))
    · exact .inl ahead
    · cases is
    · exact .inr behind

/-- Every instant there is on one side, whether a preset is pending or not. -/
theorem StartsAmong.instant_somewhere (h : StartsAmong s front back) (preset : Bool) (c : Cell) :
    (∃ o, .cellBeaconInstant c o ∈ staysAhead preset front ++ goesBehind preset front back)
      ↔ (s.store.working.cells.get c).offset = 0 := by
  simp only [List.mem_append, instant_ahead, instant_behind]
  constructor
  · rintro ⟨o, ⟨ahead, -⟩ | ⟨-, ⟨⟨o', ahead⟩, -⟩ | ⟨o', behind⟩⟩⟩
    · exact ((h.instant c o).mp (.inl ahead)).2
    · exact ((h.instant c o').mp (.inl ahead)).2
    · exact ((h.instant c o').mp (.inr behind)).2
  · intro zero
    obtain ahead | behind := (h.instant c .beforeStart).mpr ⟨rfl, zero⟩
    · cases preset with
      | true => exact ⟨.afterStart, .inr ⟨rfl, .inl ⟨⟨_, ahead⟩, rfl⟩⟩⟩
      | false => exact ⟨.beforeStart, .inl ⟨ahead, rfl⟩⟩
    · exact ⟨.afterStart, .inr ⟨rfl, .inr ⟨_, behind⟩⟩⟩

theorem StartsAmong.start_gone (h : StartsAmong s front back) (preset : Bool) :
    .beaconStart ∉ staysAhead preset front ++ goesBehind preset front back := by
  rw [List.mem_append, mem_staysAhead_other rfl, mem_goesBehind_other rfl]
  exact not_or.mpr ⟨h.first, h.last⟩

/-- Any other event than an instant or the beacon start is on one side. -/
theorem StartsAmong.other_somewhere (h : StartsAmong s front back) (preset : Bool) {i : Instr} (other : isInstant i = false)
    (start : i ≠ .beaconStart) : i ∈ staysAhead preset front ++ goesBehind preset front back ↔ i ∈ startEvents s := by
  rw [List.mem_append, mem_staysAhead_other other, mem_goesBehind_other other, ← h.events]
  simp [start]

end

/-- What an underflow queues ahead of its events: the ends of the windows that end with their beacon (R14, R142). -/
theorem mem_windowEnds {s : State} {i : Instr} : i ∈ allFour.flatMap (endsWithBeacon s)
    ↔ ∃ c w, s.cells.windows.get c = some w ∧ w.beacon = s.air.beacon ∧ i = w.nextEvent c := by
  simp only [List.mem_flatMap, mem_allFour, true_and, mem_endsWithBeacon]

/-- No other event has the rank of a window's end. -/
theorem not_windowEnd {s : State} {i : Instr} (other : dueRank i < 6 ∨ 10 ≤ dueRank i) : i ∉ allFour.flatMap (endsWithBeacon s) := by
  rw [mem_windowEnds]
  rintro ⟨c, w, -, -, rfl⟩
  rw [dueRank_nextEvent] at other
  omega

/-! ### The statement -/

/-- Settles O2: what is due joins the queue, and else a tick passes. -/
theorem emptyQueueTicks : Obligations.EmptyQueueTicks := by
  intro s hp empty tick' crosses nothing
  have stepped := step_idle hp empty
  have idles (quiet : nothing) : step s = .next (tick s) := by rw [stepped, if_pos (dueNow_nil.mpr quiet)]
  have crossing : (ticked s).air.crosses (ticked s).store.working.refreshTime = true ↔ crosses := crosses_iff _ _
  refine ⟨fun ⟨i, due⟩ => ?due, fun quiet more uncrossed => ?ticks, fun quiet more crossed => ?crosses,
    fun quiet wraps => ?starts⟩
  case due =>
    have some : dueNow s ≠ [] := fun none => dueNow_nil.mp none i due
    obtain ⟨order, free, queued, once, all⟩ := enqueue_order (dueNow_nodup s) empty
    refine ⟨order, settled order, free, by rw [stepped, if_neg some, queued], once, fun i => (all i).trans mem_dueNow,
      settled_sublist order, settled_head order, fun i hi gone => ?_, fun noTimeout noReset => settled_self order noReset noTimeout⟩
    by_contra neither
    obtain ⟨other, noReset⟩ := not_or.mp neither
    exact gone (mem_settled hi noReset other)
  case ticks =>
    rw [idles quiet, tick_eq, if_neg more.ne']
    refine congrArg _ (if_pos (List.eq_nil_iff_forall_not_mem.mpr fun i hi => ?_))
    exact uncrossed (crossing.mp (mem_crossingDue.mp hi).2)
  case crosses =>
    have event : crossingDue (ticked s) = [.refreshCrossing] := if_pos (crossing.mpr crossed)
    have once : (crossingDue (ticked s) ++ dueNow (ticked s)).Nodup := by
      rw [event]
      exact List.nodup_cons.mpr ⟨crossing_not_due _, dueNow_nodup _⟩
    obtain ⟨order, free, queued, distinct, all⟩ := enqueue_order once (s := ticked s) empty
    have members (i : Instr) : i ∈ order ↔ i = .refreshCrossing ∨ (ticked s).isDue i := by
      rw [all, event, List.singleton_append, List.mem_cons, mem_dueNow]
    have ticks : tick s = enqueue (crossingDue (ticked s) ++ dueNow (ticked s)) (ticked s) := by
      rw [tick_eq, if_neg more.ne', if_neg (by rw [event]; exact List.cons_ne_nil _ _)]
    exact ⟨order, settled order, free, (idles quiet).trans (congrArg _ (ticks.trans queued)), distinct, members,
      settled_sublist order, crossing_mem_settled ((members _).mpr (.inl rfl))⟩
  case starts =>
    obtain ⟨front, back, free, queued, among⟩ := underflow_parts (s := ticked s) empty
    have ticks : tick s = underflow (ticked s) := by rw [tick_eq, if_pos wraps]
    have gone := among.start_gone (ticked s).air.preset.isSome
    rw [List.mem_append, not_or] at gone
    refine ⟨_, _, free, (idles quiet).trans (congrArg _ (ticks.trans queued)), ?_, gone.2, ?_, ?_,
      fun c w opened now => List.mem_append_left _ (mem_windowEnds.mpr ⟨c, w, opened, now, rfl⟩), fun i hi => ?_,
      fun c => ⟨?_, fun o ahead => ?_, fun o behind => (instant_behind.mp behind).1⟩⟩
    · rw [List.mem_append]
      exact not_or.mpr ⟨not_windowEnd (by decide), gone.1⟩
    · rw [List.append_assoc, List.mem_append, or_iff_right (not_windowEnd (by decide)),
        among.other_somewhere (i := .refreshCrossing) _ rfl Instr.noConfusion, mem_startEvents, crossing]
      simp
    · rw [List.append_assoc, List.mem_append, or_iff_right (not_windowEnd (by decide)),
        among.other_somewhere (i := .outcomesReadyTimeout) _ rfl Instr.noConfusion, mem_startEvents]
      simp [tick', ticked, timerTick]
    · rw [List.append_assoc] at hi
      obtain hi | hi := List.mem_append.mp hi
      · obtain ⟨c, w, opened, now, is⟩ := mem_windowEnds.mp hi
        exact .inr (.inr (.inl ⟨c, w, opened, now, is⟩))
      · cases instant : isInstant i with
        | true => exact .inr (.inr (.inr (isInstant_iff.mp instant)))
        | false =>
          have start : i ≠ .beaconStart := fun is => among.start_gone _ (is ▸ hi)
          obtain is | ⟨c, -, is⟩ | ⟨is, -⟩ | ⟨is, -⟩ := mem_startEvents.mp ((among.other_somewhere _ instant start).mp hi)
          · exact absurd is start
          · exact .inr (.inr (.inr ⟨c, _, is⟩))
          · exact .inl is
          · exact .inr (.inl is)
    · refine Iff.trans (exists_congr fun o => ?_) (among.instant_somewhere (ticked s).air.preset.isSome c)
      rw [List.append_assoc, List.mem_append, or_iff_right (not_windowEnd (.inr (Nat.le_add_right 10 _)))]
    · rw [List.mem_append, or_iff_right (not_windowEnd (.inr (Nat.le_add_right 10 _))), instant_ahead] at ahead
      obtain ⟨front, noPreset⟩ := ahead
      exact ⟨((among.instant c o).mp (.inl front)).1, Option.isSome_eq_false_iff.mp noPreset |> Option.isNone_iff_eq_none.mp⟩

end Sys2Proof.Machine
end
